-- ==== Sys2Proof/Word.lean ====
section
/-! DEFINITION. The byte of the host link and of the panel bus, and the four router levels of section 4.2 of
spec/00_scope.md.  Multi-byte fields and bit fields are built from bytes in Machine/Ops.lean. -/

namespace Sys2Proof

/-- One byte of a host frame or of a panel bus frame (Chapter 11). -/
abbrev Byte := BitVec 8

/-- The four levels on which a router destination is switched (spec/00_scope.md, 4.2). -/
inductive Level where
  | vid | aud1 | aud2 | aux
  deriving DecidableEq, Repr

end Sys2Proof
end

