-- ==== Sys2Proof/Syntax.lean ====
section
/-! DEFINITION. The commands: one constructor for each row of spec/opcode_table.json.  A host request carries the tag
and the payload bytes of its frame (Chapter 11), since R182 and R194 judge the payload only when the request is executed.
The other commands carry what the line, the port or the pin brings. -/

namespace Sys2Proof

/-- The commands of the part: the rows of spec/opcode_table.json, in the table's order. -/
inductive Instr where
  /-- POWER_ON (R190). Power-on gives every block the values of RESTART(ALL), except that the frame family is F59_94. -/
  | powerOn
  /-- HOST_FRAME_RECEIVED (R181). A complete host frame is collected. A good CRC offers it to the request queue; a bad
  CRC drops it and raises HOST_FRAME_ERROR. `bytes` are the bytes that arrive on the line up to the end of the
  frame. -/
  | hostFrameReceived (bytes : List Byte)
  /-- HOST_BAD_LENGTH (R181). A length byte above 240 arrives, and the frame being collected is dropped at once with
  HOST_FRAME_ERROR. `bytes` are the bytes that arrive on the line up to the length byte. -/
  | hostBadLength (bytes : List Byte)
  /-- HOST_FRAME_TIMEOUT (R181). No byte arrives for 10 ms while a frame is incomplete, so the partial frame is
  dropped and HOST_FRAME_ERROR is raised. -/
  | hostFrameTimeout
  /-- UNKNOWN_REQUEST (R182). A request whose kind is not a request kind is executed in its turn, answered UNKNOWN and
  raises HOST_FRAME_ERROR. -/
  | unknownRequest (kind tag : Byte) (payload : List Byte)
  /-- TRANSMISSION_END (R186). The transmission of an outbound message ends, and the next waiting message, if any,
  begins. -/
  | transmissionEnd
  /-- SET_DEST_DOMAIN (R3). Host sets the domain of a destination. Payload: destination 2, domain 1. -/
  | setDestDomain (tag : Byte) (payload : List Byte)
  /-- PROTECT (R7). Host sets a destination's protect state to SYSTEM_LOCK. Payload: destination 2. -/
  | protect (tag : Byte) (payload : List Byte)
  /-- UNPROTECT (R7). Host sets a destination's protect state to NONE. Payload: destination 2. -/
  | unprotect (tag : Byte) (payload : List Byte)
  /-- PROTECT_ALL (R8). Host sets every destination to SYSTEM_LOCK. Payload: none. -/
  | protectAll (tag : Byte) (payload : List Byte)
  /-- RELEASE_ALL (R8). Host sets every SYSTEM_LOCK or STARTUP_LOCK destination to NONE. Payload: none. -/
  | releaseAll (tag : Byte) (payload : List Byte)
  /-- SET_FABRIC (R11). Host maps a fabric device record and starts its start-up readback. Payload: device 1, level 1,
  first 2, last 2, address 1. -/
  | setFabric (tag : Byte) (payload : List Byte)
  /-- FABRIC_RETRY (R13). Host starts a retry readback of an ONLINE or FAILED device. Payload: device 1. -/
  | fabricRetry (tag : Byte) (payload : List Byte)
  /-- READBACK_COMPLETION (R14). A device returns a well-formed answer for its whole range. The sources are written,
  the device becomes ONLINE and a route change is signalled. `sources` are the returned crosspoints, one per
  destination of the range, lowest first. -/
  | readbackCompletion (device : Nat) (sources : List Nat)
  /-- READBACK_FAILURE (R15). 100 ms pass without a well-formed answer. The range is marked FAULTED at source 0 and
  the device becomes FAILED. -/
  | readbackFailure (device : Nat)
  /-- GET_ROUTE (R20). Host reads a destination record or a fabric device record. Payload: form 1, then destination 2
  or device 1. -/
  | getRoute (tag : Byte) (payload : List Byte)
  /-- TAKE (R22). Host take is checked for acceptance and, if accepted, supersedes pending entries and is queued with
  its reply deferred. Payload: destination 2, mask 1, source 2, flags 1. -/
  | take (tag : Byte) (payload : List Byte)
  /-- SALVO_STORE (R26). Host replaces the stored entry list of a salvo. Payload: salvo 1, counted list of
  (destination 2, mask 1, source 2). -/
  | salvoStore (tag : Byte) (payload : List Byte)
  /-- SALVO_FIRE (R27). Host fires a salvo, whose passing entries are room-checked and queued as one group. Payload:
  salvo 1, flags 1. -/
  | salvoFire (tag : Byte) (payload : List Byte)
  /-- SET_FRAME_FAMILY (R29). Host sets the frame family, putting the reference LOST and restarting the flywheel.
  Payload: family 1. -/
  | setFrameFamily (tag : Byte) (payload : List Byte)
  /-- REFERENCE_PULSE (R30). A frame reference pulse arrives. It is a switch point in LOCKED, and in LOST it becomes a
  candidate or relocks. `time` is the arrival on the timebase of the part, in microseconds. -/
  | referencePulse (time : Nat)
  /-- LOSS_TIMER_EXPIRY (R30). Three nominal periods pass without a pulse. The reference becomes LOST, REF_LOST
  becomes true and the expiry is a switch point. -/
  | lossTimerExpiry
  /-- FLYWHEEL_POINT (R31). In LOST the flywheel reaches a multiple of the nominal period and makes a switch point. -/
  | flywheelPoint
  /-- CROSSPOINT_ANSWER (R38). A fabric device acknowledges or refuses a window's crosspoint write; the last
  outstanding answer closes the window, and a late answer is discarded. The answer names the window it answers,
  the destination and the level of the write. -/
  | crosspointAnswer (window dest : Nat) (level : Level) (acknowledged : Bool)
  /-- WINDOW_EXPIRY (R38). 12 ms after its switch point the open window closes, and every unanswered write counts as
  refused. -/
  | windowExpiry
  /-- SET_ROOT (R44). Host writes a tally root configuration and triggers recomputation. Payload: root 1, enabled 1,
  domain 1, colour 1, kind 1, then destination 2 (and level 1) or mixer 1, bus 1. -/
  | setRoot (tag : Byte) (payload : List Byte)
  /-- SET_MIXER (R46). Host declares a mixer's state source, marking its buses stale. Payload: mixer 1, source 1. -/
  | setMixer (tag : Byte) (payload : List Byte)
  /-- MIXER_STATE (R47). Host sets bus selections of a SYSTEM-sourced mixer and triggers recomputation. Payload: mixer
  1, counted list of (bus 1, input 1). -/
  | mixerState (tag : Byte) (payload : List Byte)
  /-- SET_MIXER_MAP (R50). Host writes entries of a mixer input map and triggers recomputation. Payload: mixer 1,
  counted list of (input 1, destination 2). -/
  | setMixerMap (tag : Byte) (payload : List Byte)
  /-- SET_TIE (R51). Host records that a source is fed by a destination and triggers recomputation. Payload: source 2,
  destination 2. -/
  | setTie (tag : Byte) (payload : List Byte)
  /-- CLEAR_TIE (R51). Host removes a tie map entry and triggers recomputation. Payload: source 2. -/
  | clearTie (tag : Byte) (payload : List Byte)
  /-- GET_TALLY (R62). Host reads colour sets, a root, a mixer, an input map or the tie map. Payload: form 1, then the
  arguments of the form. -/
  | getTally (tag : Byte) (payload : List Byte)
  /-- SET_CAMERA (R65). Host sets or unsets a camera record, re-evaluating drives and signalling a camera change.
  Payload: camera 1, domain 1, source 2, port 1, output 1; or camera 1. -/
  | setCamera (tag : Byte) (payload : List Byte)
  /-- SET_OUTPUT (R67). Host sets or unsets a tally output configuration. Payload: output 1, mode 1, source 2, domain
  1, mask 1, monitor 1; or output 1. -/
  | setOutput (tag : Byte) (payload : List Byte)
  /-- LAMP_CLEAR (R75). Host releases the lamp fault of a tally output to OK. Payload: output 1. -/
  | lampClear (tag : Byte) (payload : List Byte)
  /-- FLASH_CLOCK_HALF (R66). The common 2 Hz flash clock passes between a lit and a dark half, lighting or darkening
  every FLASH output. -/
  | flashClockHalf
  /-- LOAD_SAMPLE (R73). Every 50 ms while a monitored output is lit, a load sample moves its fault state between OK
  and OPEN. -/
  | loadSample (output : Nat) (current : Bool)
  /-- OVERCURRENT_DETECTION (R74). A lit monitored output's driver finds overcurrent, switches the output off and
  latches SHORT. -/
  | overcurrentDetection (output : Nat)
  /-- SET_PORT (R80). Host writes a talk port record and coefficients are recomputed. Payload: port 1, role 1, T 1, V
  1, Dm 1, C 1, Ct 1. -/
  | setPort (tag : Byte) (payload : List Byte)
  /-- SET_GROUP (R82). Host replaces a talk group's membership. Payload: group 1, counted list of ports. -/
  | setGroup (tag : Byte) (payload : List Byte)
  /-- TALK_ON (R93). Host puts a talk in a system slot, ending any talk it held. Payload: slot 1, talker port 1,
  target 2, level 1, priority 1. -/
  | talkOn (tag : Byte) (payload : List Byte)
  /-- TALK_OFF (R94). Host ends the talk in a system slot. Payload: slot 1. -/
  | talkOff (tag : Byte) (payload : List Byte)
  /-- AUTO_TIMER_EXPIRY (R91). The 400 ms AUTO timer of a HELD key expires and the key becomes HELD_LONG. -/
  | autoTimerExpiry (panel key : Nat)
  /-- GET_PATHS (R100). Host reads talks, slots, ports, groups, key states, listener paths, starved paths or counts.
  Payload: form 1, then the arguments of the form. -/
  | getPaths (tag : Byte) (payload : List Byte)
  /-- SET_IFB (R104). Host configures or unconfigures an IFB. Payload: IFB 1, output port 1, program port 1, duck
  depth 1, NO_PREEMPT 1; or IFB 1. -/
  | setIfb (tag : Byte) (payload : List Byte)
  /-- GET_IFB (R119). Host reads an IFB record with its arbitration. Payload: IFB 1. -/
  | getIfb (tag : Byte) (payload : List Byte)
  /-- SET_PANEL (R134). Host declares a panel or changes a declared panel's fields. Payload: panel 1, kind 1, level 1,
  domain 1, own port 1. -/
  | setPanel (tag : Byte) (payload : List Byte)
  /-- SET_PANEL_UNDECLARED (R135). Host removes a panel from the panel table and the removal is signalled to the other
  blocks. Payload: panel 1. -/
  | setPanelUndeclared (tag : Byte) (payload : List Byte)
  /-- SET_COUNT_MODE (R155). Host sets the error report mode and threshold. Payload: mode 1, threshold 1. -/
  | setCountMode (tag : Byte) (payload : List Byte)
  /-- COUNTS_SNAPSHOT (R155). In MANUAL mode, host triggers an error count transfer and window judgement. Payload:
  none. -/
  | countsSnapshot (tag : Byte) (payload : List Byte)
  /-- GET_PANEL (R158). Host reads a panel record, a function slot, bindings, context or lamps. Payload: form 1, then
  the arguments of the form. -/
  | getPanel (tag : Byte) (payload : List Byte)
  /-- GET_COUNTS (R158). Host reads the error counters, report mode, threshold and key event queue length. Payload:
  none. -/
  | getCounts (tag : Byte) (payload : List Byte)
  /-- PANEL_FRAME_RECEIVED (R139). A complete panel bus frame arrives and ends the waiting transaction, which is
  judged; a frame with no transaction waiting is discarded. -/
  | panelFrameReceived (bytes : List Byte)
  /-- TRANSACTION_TIMEOUT (R139). 1 ms after the sent frame with no complete frame, the transaction ends as a timeout. -/
  | transactionTimeout
  /-- EMPTY_CYCLE_END (R137). A poll cycle with no transaction ends after 1 ms and the next cycle begins. -/
  | emptyCycleEnd
  /-- COUNT_TRANSFER (R154). In AUTO mode, each second the error counters are transferred and panels are judged
  DEGRADED or ONLINE. -/
  | countTransfer
  /-- KEY_PRESS (R165). The Function Dispatcher takes a key press from the head of the key event queue, checks it and
  captures and carries out its function. -/
  | keyPress (panel key : Nat)
  /-- KEY_RELEASE (R170). The Function Dispatcher takes a key release and hands it to the Talk Controller, the call
  holder list or the system key queue. -/
  | keyRelease (panel key : Nat)
  /-- KNOB (R81). The Function Dispatcher takes a knob delta, which moves the listen volume of the panel's own port. -/
  | knob (panel : Nat) (delta : Int)
  /-- BUS_STATE (R48). The Function Dispatcher takes a bus-state event, which the Tally Tracer applies to the bridged
  mixer or discards. -/
  | busState (panel bus input : Nat)
  /-- SET_FUNCTION (R160). Host writes or empties a function slot. Payload: function 2, kind 1, arguments, level 1,
  domain 1; or function 2. -/
  | setFunction (tag : Byte) (payload : List Byte)
  /-- SET_BINDING (R162). Host writes one key binding. Payload: panel 1, page 1, key 1, function 2. -/
  | setBinding (tag : Byte) (payload : List Byte)
  /-- SET_LAMP (R177). Host writes the host lamp value of a key. Payload: panel 1, key 1, lamp value 1. -/
  | setLamp (tag : Byte) (payload : List Byte)
  /-- GET_SYSTEM_KEYS (R173). Host reads and empties the system key queue. Payload: none. -/
  | getSystemKeys (tag : Byte) (payload : List Byte)
  /-- SET_EVENTS (R189). Host writes the event flag enables and edge selects. Payload: enables 2, edge selects 5. -/
  | setEvents (tag : Byte) (payload : List Byte)
  /-- RESTART_ALL (R191). Host resets every block to its start values and empties the host link queues except the
  reply to the restart. Payload: scope 1 (0). -/
  | restartAll (tag : Byte) (payload : List Byte)
  /-- RESTART_PANELS (R190). Host sends every panel to ABSENT and ends panel talks, calls and contexts. Payload: scope
  1 (1). -/
  | restartPanels (tag : Byte) (payload : List Byte)
  /-- RESTART_TALK (R190). Host ends every talk and resets the key talk states. Payload: scope 1 (2). -/
  | restartTalk (tag : Byte) (payload : List Byte)
  /-- IDENT (R192). Host reads the vendor code, part code and silicon revision. Payload: none. -/
  | ident (tag : Byte) (payload : List Byte)
  /-- GET_STATUS (R193). Host reads the timing, tally output, camera, state source, flag and queue status. Payload:
  none. -/
  | getStatus (tag : Byte) (payload : List Byte)
  /-- DISCARDED_READBACK_ANSWER (R19). An answer arrives on the fabric port that completes no readback and is
  discarded. This covers an answer after its readback's failure, one belonging to a readback abandoned by
  RESTART(ALL), and a malformed or partial answer within the 100 ms; no destination level or device state changes. -/
  | discardedReadbackAnswer (device : Nat) (sources : List Nat)
  deriving DecidableEq, Repr

end Sys2Proof
end

