-- ==== Sys2Proof/Decode.lean ====
section
/-! DEFINITION. The command that a word spells.  No row of spec/opcode_table.json gives bits (every "fields" is empty and
none has "fixed"), so no word spells a command.  How the bytes of a host frame or of a panel bus frame are read stands in
Machine/Link.lean, Machine/Operands.lean and Machine/Bus.lean. -/

namespace Sys2Proof

/-- The command that a word of `nbits` bits spells: none, since the table gives no row any bits. -/
def decodeTableWord (_nbits _w : Nat) : Option Instr := none

end Sys2Proof
end

