-- ==== Sys2Proof/Config.lean ====
section
/-! DEFINITION. What one part fixes: the numbers that the spec states once for the whole part, and the one value
that the spec gives only a range for (the silicon revision), which stands here without a body. -/

namespace Sys2Proof.Config

/-- R23: the room of the take queue, in entries. -/
def takeRoom : Nat := 64
/-- R36: no switch window carries more than this many crosspoint writes. -/
def windowWrites : Nat := 128
/-- R183: places of the request queue. -/
def requestPlaces : Nat := 8
/-- R184: overflow replies that may wait in the outbound queue at once. -/
def overflowPlaces : Nat := 7
/-- R185: the greatest count of owed deferred replies. -/
def owedLimit : Nat := 64
/-- R54: tie hops one trace may take. -/
def tieHops : Nat := 4
/-- R51: entries of the tie map. -/
def tiePlaces : Nat := 32
/-- R70: entries of the call holder list. -/
def callPlaces : Nat := 64
/-- R84: records of the talk set. -/
def talkPlaces : Nat := 96
/-- R85: the greatest total of the reservations of the talk set. -/
def reservationTotal : Nat := 512
/-- R84, R101: the last creation number and the last admission number. -/
def lastNumber : Nat := 4294967295
/-- R106: admitted paths into one listener. -/
def listenerCap : Nat := 12
/-- R106: admitted paths in all. -/
def totalCap : Nat := 256
/-- R113: talks in the pending list of one IFB. -/
def ifbPending : Nat := 16
/-- R145: events of the key event queue. -/
def keyEventPlaces : Nat := 64
/-- R147: lamp entries of one POLL. -/
def pollLamps : Nat := 16
/-- R153: the value at which a panel error counter stays. -/
def errorCounterTop : Nat := 65535
/-- R172: entries of the system key queue. -/
def systemKeyPlaces : Nat := 16
/-- R192 and section 11.3: the vendor code of Tewcal. -/
def vendorCode : Nat := 0x0E4A
/-- R192 and section 11.3: the part code. -/
def partCode : Nat := 0x0A50

/-- R192: the silicon revision of the part is an integer 1..255.  The spec gives no number, so the model gives none
either: this constant has no body (log entry 1). -/
opaque siliconRevisionIndex : Fin 255

/-- R192: the silicon revision, within 1..255 whatever `siliconRevisionIndex` is. -/
def siliconRevision : Byte := BitVec.ofNat 8 (siliconRevisionIndex.val + 1)

end Sys2Proof.Config
end

