-- ==== Sys2Proof/Machine/State.lean ====
section
/-! DEFINITION. The state of the part: every table, record, queue, counter and mode that spec/ gives the nine blocks,
one record per block (spec/00_scope.md, 2), and the queue of commands that wait.  All of it is plain data.  A numbered
table is kept as the list of the entries that differ from the table's start value, keys rising (`Table`); the operations
over it stand in Machine/Ops.lean.  What the spec defines as a count or a view of other state (call counts, slots, queue
room, the lamp of an output) is not stored twice; Machine/Ops.lean and the chapters' files compute it. -/

namespace Sys2Proof.Machine

/-- A numbered table: the entries that differ from the start value of the table, in ascending order of number. -/
structure Table (α : Type) where
  entries : List (Nat × α)
  deriving DecidableEq, Repr

/-! ### Names used by several blocks -/

/-- One value for each of the four levels of a destination. -/
structure PerLevel (α : Type) where
  vid  : α
  aud1 : α
  aud2 : α
  aux  : α
  deriving DecidableEq, Repr

/-- A level mask: any subset of the four levels, the empty set included (spec/00_scope.md, 4.2). -/
abbrev LevelMask := PerLevel Bool

/-- Domain of a panel, tally root, camera or talk (spec/00_scope.md, 4.6). -/
inductive Domain where
  | a | b
  deriving DecidableEq, Repr

/-- Domain of a destination (R1). -/
inductive DestDomain where
  | a | b | shared
  deriving DecidableEq, Repr

/-- Domain of a function (R159). -/
inductive FunctionDomain where
  | a | b | any
  deriving DecidableEq, Repr

/-- Tally colours (spec/00_scope.md, 4.7). -/
inductive Colour where
  | red | green | amber
  deriving DecidableEq, Repr

/-- A colour set: any subset of the three colours (spec/00_scope.md, 4.7). -/
structure ColourSet where
  red   : Bool
  green : Bool
  amber : Bool
  deriving DecidableEq, Repr

/-- Reply codes, in the order of their numbers (R185, section 11.3). -/
inductive ReplyCode where
  | ok | done | superseded | prot | locked | denied | busy | badArg | badTarget | badState | noSpace | noPort
  | noContext | fabricFault | unknown
  deriving DecidableEq, Repr

/-- Reasons with which a take, toggle, talk, call or key action is refused, in the order in which the table of R171
lists them. -/
inductive Reason where
  | unbound | empty | denied | noContext | badArg | prot | locked | busy | noPort | badTarget | noSpace
  deriving DecidableEq, Repr

/-- Lit colours of a panel lamp (spec/00_scope.md, 4.7). -/
inductive LampColour where
  | red | green | amber | white
  deriving DecidableEq, Repr

/-- One of the nine lamp values: OFF, or a colour steady or FLASH (R146, R177). -/
inductive Lamp where
  | off
  | lit (colour : LampColour) (flash : Bool)
  deriving DecidableEq, Repr

/-! ### Host Link Controller (Chapter 10) -/

/-- A request of the request queue: the kind, tag and payload of a good frame (R182, R183). -/
structure Request where
  kind    : Byte
  tag     : Byte
  payload : List Byte
  deriving DecidableEq, Repr

/-- What a message of the outbound queue is (R186).  `restartReply` is the reply to RESTART(ALL), whose request holds no
place any more (R191). -/
inductive MessageClass where
  | reply | restartReply | deferred | overflow | eventFlags
  deriving DecidableEq, Repr

/-- A message of the outbound queue.  The payload of an EVENT_FLAGS message is taken at the start of its transmission
(R188) and is empty before. -/
structure Message where
  cls     : MessageClass
  tag     : Byte
  payload : List Byte
  deriving DecidableEq, Repr

/-- The 14 event flags, in the order of their numbers (section 10.5). -/
inductive Flag where
  | panelState | panelErrors | countSaturated | refLost | lampFault | tallyChange | traceFault | systemKey | keyRefused
  | pathStarved | ifbChange | fabricFault | hostFrameError | readbackDone
  deriving DecidableEq, Repr

/-- Edge select of a state flag (R187). -/
inductive Edge where
  | rise | fall | both
  deriving DecidableEq, Repr

/-- Edge selects of the five state flags (R187). -/
structure EdgeSelects where
  panelErrors : Edge
  refLost     : Edge
  lampFault   : Edge
  pathStarved : Edge
  fabricFault : Edge
  deriving DecidableEq, Repr

/-- State of the Host Link Controller. -/
structure HostLink where
  /-- R181: bytes of the frame being collected, from its start byte on; empty while the receiver is hunting. -/
  collected : List Byte
  /-- R183: executed requests whose replies wait to be sent, oldest first.  They stand at the front of the request queue. -/
  executed  : List Request
  /-- R183: requests not yet executed, oldest first: the rest of the request queue. -/
  waiting   : List Request
  /-- R186: messages that wait for transmission, oldest first. -/
  outbound  : List Message
  /-- R186: the message in transmission, or none while the link is idle. -/
  sending   : Option Message
  /-- R185: count of owed deferred replies. -/
  owed      : Nat
  /-- R187: enables of the 14 flags, bit n for flag n. -/
  enabled   : BitVec 16
  /-- R187: the set flags, bit n for flag n. -/
  set       : BitVec 16
  /-- R187: edge selects of the state flags. -/
  edges     : EdgeSelects
  deriving DecidableEq, Repr

/-! ### Route Controller (Chapters 1 and 2) -/

/-- What one level of a destination holds: NOT_FITTED, or a source and a fault mark (R1). -/
inductive LevelState where
  | notFitted
  | fitted (source : Nat) (faulted : Bool)
  deriving DecidableEq, Repr

/-- Protect state of a destination (R1, R5). -/
inductive Protect where
  | none
  | panel (p : Nat)
  | systemLock
  | startupLock
  deriving DecidableEq, Repr

/-- A destination record (R1). -/
structure Destination where
  domain  : DestDomain
  levels  : PerLevel LevelState
  protect : Protect
  deriving DecidableEq, Repr

/-- The two readbacks of R13. -/
inductive ReadbackKind where
  | startUp | retry
  deriving DecidableEq, Repr

/-- State of a mapped device (R11).  A readback has begun its exchange, or waits for the close of the open window (R13). -/
inductive DevicePhase where
  | readback (kind : ReadbackKind) (begun : Bool)
  | online
  | failed
  deriving DecidableEq, Repr

/-- A mapped fabric device record (R11).  A record that the device table does not list is UNMAPPED. -/
structure Device where
  level   : Level
  first   : Nat
  last    : Nat
  address : Nat
  phase   : DevicePhase
  deriving DecidableEq, Repr

/-- Origin of a take or of a firing: SYSTEM with the request's tag, or PANEL(p) with key k (R21, R23). -/
inductive Origin where
  | system (tag : Byte)
  | panel (p k : Nat)
  deriving DecidableEq, Repr

/-- A take entry (R21). -/
structure Entry where
  dest   : Nat
  mask   : LevelMask
  source : Nat
  origin : Origin
  force  : Bool
  deriving DecidableEq, Repr

/-- The five counts of a firing (R28). -/
structure Counts where
  applied           : Nat
  refusedAcceptance : Nat
  refusedWindow     : Nat
  superseded        : Nat
  fabricFault       : Nat
  deriving DecidableEq, Repr

/-- The record of a firing (R23). -/
structure Firing where
  origin : Origin
  salvo  : Nat
  counts : Counts
  deriving DecidableEq, Repr

/-- A group of the take queue: a single-take group has no firing, a salvo group has one (R23). -/
structure TakeGroup where
  firing  : Option Firing
  entries : List Entry
  deriving DecidableEq, Repr

/-- An entry drawn into a window: the refusal its re-check gave, if any, and the levels that gave a write (R34, R35). -/
structure Drawn where
  entry   : Entry
  refusal : Option Reason
  written : LevelMask
  deriving DecidableEq, Repr

/-- A group drawn into a window (R34). -/
structure DrawnGroup where
  firing  : Option Firing
  entries : List Drawn
  deriving DecidableEq, Repr

/-- State of a crosspoint write (R34). -/
inductive WriteState where
  | sent | acknowledged | refused
  deriving DecidableEq, Repr

/-- A crosspoint write: the device of its level, the destination, the level and the source (R37). -/
structure Write where
  device : Nat
  dest   : Nat
  level  : Level
  source : Nat
  state  : WriteState
  deriving DecidableEq, Repr

/-- The open switch window (R34).  `number` is the model's own: a crosspoint answer names the window it answers, so that
a late answer is told from an answer to this window (R38, R42; log entry 4). -/
structure Window where
  number : Nat
  groups : List DrawnGroup
  writes : List Write
  deriving DecidableEq, Repr

/-- A stored entry of a salvo (R26). -/
structure StoredEntry where
  dest   : Nat
  mask   : LevelMask
  source : Nat
  deriving DecidableEq, Repr

/-- State of the Route Controller. -/
structure RouteController where
  /-- R1: destination records 1..256; unlisted ones hold the values of R2. -/
  dests       : Table Destination
  /-- R11: fabric device records 1..8; unlisted ones are UNMAPPED. -/
  devices     : Table Device
  /-- R23: the take queue, head first. -/
  queue       : List TakeGroup
  /-- R34: the open switch window, if any. -/
  window      : Option Window
  /-- R26: salvos 1..16; unlisted ones are empty. -/
  salvos      : Table (List StoredEntry)
  /-- R18: the state source FABRIC_FAULT as it was last evaluated. -/
  fabricFault : Bool
  /-- The model's own count of windows opened so far, which gives the next window its number (log entry 4). -/
  windows     : Nat
  deriving DecidableEq, Repr

/-! ### Switch Timing Unit (Chapter 2) -/

/-- Frame families, in the order of R29. -/
inductive FrameFamily where
  | f25 | f29_97 | f50 | f59_94
  deriving DecidableEq, Repr

/-- Reference state (R29). -/
inductive ReferenceState where
  | locked | lost
  deriving DecidableEq, Repr

/-- State of the Switch Timing Unit.  Times are microseconds of the timebase of the part (log entry 5). -/
structure SwitchTiming where
  /-- R29: the frame family in force. -/
  family        : FrameFamily
  /-- R29: LOCKED or LOST. -/
  reference     : ReferenceState
  /-- R29: time of the last accepted reference pulse. -/
  lastPulse     : Option Nat
  /-- R29: the candidate pulse held in LOST. -/
  candidate     : Option Nat
  /-- R29, R31: the flywheel phase: the instant from which its points are counted. -/
  flywheelBase  : Nat
  /-- R29, R31: the flywheel phase: how many nominal periods of the flywheel have passed since that instant. -/
  flywheelCount : Nat
  /-- The latest instant of the timebase that a command has named (the model's own, log entry 5). -/
  now           : Nat
  deriving DecidableEq, Repr

/-! ### Tally Tracer (Chapter 3) -/

/-- Kind of a tally root (R43). -/
inductive RootKind where
  | dest (d : Nat) (level : Level)
  | mixerBus (mixer bus : Nat)
  deriving DecidableEq, Repr

/-- The configuration of a root that SET_ROOT has written (R43). -/
structure RootConfig where
  domain : Domain
  colour : Colour
  kind   : RootKind
  deriving DecidableEq, Repr

/-- Last result of a root (R43, R55). -/
inductive TraceResult where
  | terminal (source : Nat)
  | noTerminal
  | fault
  deriving DecidableEq, Repr

/-- Reason of a trace fault (R43, R54). -/
inductive TraceReason where
  | loop | depth
  deriving DecidableEq, Repr

/-- Trace fault record that is not clear: the reason and the destination at which the trace stopped (R43). -/
structure TraceFault where
  reason : TraceReason
  dest   : Nat
  deriving DecidableEq, Repr

/-- A root record (R43). -/
structure Root where
  enabled : Bool
  config  : Option RootConfig
  last    : TraceResult
  fault   : Option TraceFault
  deriving DecidableEq, Repr

/-- Declared state source of a mixer (R45). -/
inductive MixerSource where
  | system
  | bridge (p : Nat)
  deriving DecidableEq, Repr

/-- A mixer bus (R45). -/
structure Bus where
  selection : Nat
  stale     : Bool
  deriving DecidableEq, Repr

/-- A mixer: its state source and its buses 1..8 (R45). -/
structure Mixer where
  source : MixerSource
  buses  : Table Bus
  deriving DecidableEq, Repr

/-- State of the Tally Tracer. -/
structure TallyTracer where
  /-- R43: roots 1..16. -/
  roots     : Table Root
  /-- R45: mixers 1 and 2. -/
  mixers    : Table Mixer
  /-- R50: input map of mixer 1: the destinations of inputs 1..48; unlisted entries are NONE. -/
  inputMap1 : Table Nat
  /-- R50: input map of mixer 2. -/
  inputMap2 : Table Nat
  /-- R51: the tie map: the destination that feeds a source, in ascending order of source. -/
  ties      : Table Nat
  /-- R57: the source colour table of domain A; unlisted sources hold the empty set. -/
  coloursA  : Table ColourSet
  /-- R57: the source colour table of domain B. -/
  coloursB  : Table ColourSet
  deriving DecidableEq, Repr

/-! ### Tally Output Unit (Chapter 4) -/

/-- A set camera record (R64). -/
structure Camera where
  domain : Domain
  source : Nat
  port   : Option Nat
  output : Option Nat
  deriving DecidableEq, Repr

/-- Mode of a tally output (R66). -/
inductive OutputMode where
  | auto | forceOn | forceOff
  deriving DecidableEq, Repr

/-- Configuration of a set tally output (R66). -/
structure OutputConfig where
  mode    : OutputMode
  source  : Nat
  domain  : Domain
  mask    : ColourSet
  monitor : Bool
  deriving DecidableEq, Repr

/-- Drive of a tally output (R66). -/
inductive Drive where
  | off | on | flash
  deriving DecidableEq, Repr

/-- Fault state of a tally output (R66). -/
inductive LampFaultState where
  | ok | openLoad | short
  deriving DecidableEq, Repr

/-- A tally output record; it is unset while it has no configuration (R66). -/
structure Output where
  config : Option OutputConfig
  drive  : Drive
  fault  : LampFaultState
  deriving DecidableEq, Repr

/-- An entry of the call holder list (R70). -/
structure CallEntry where
  panel  : Nat
  key    : Nat
  camera : Nat
  deriving DecidableEq, Repr

/-- State of the Tally Output Unit. -/
structure TallyOutputs where
  /-- R64: camera records 1..24; unlisted ones are unset. -/
  cameras   : Table Camera
  /-- R66: tally outputs 1..48. -/
  outputs   : Table Output
  /-- R70: the call holder list, in order of arrival.  The call count of a camera is the number of its entries. -/
  holders   : List CallEntry
  /-- R66: whether the common flash clock is in a lit half. -/
  flashLit  : Bool
  /-- R77: the state source LAMP_FAULT as it was last evaluated. -/
  lampFault : Bool
  deriving DecidableEq, Repr

/-! ### Talk Controller (Chapters 5 and 6) -/

/-- Role of a talk port, in the order of R79. -/
inductive Role where
  | unused | normal | ifbOutput | programInput
  deriving DecidableEq, Repr

/-- A port record (R79). -/
structure Port where
  role          : Role
  trim          : Int
  volume        : Int
  dim           : Int
  ceiling       : Option Int
  talkerCeiling : Option Int
  deriving DecidableEq, Repr

/-- A talk target (R83).  The domain of an ONAIR target is the domain of its talk. -/
inductive Target where
  | port (q : Nat)
  | group (g : Nat)
  | ifb (n : Nat)
  | camera (c : Nat)
  | onair
  deriving DecidableEq, Repr

/-- Origin of a talk (R84). -/
inductive TalkOrigin where
  | panel (p k : Nat)
  | system (slot : Nat)
  deriving DecidableEq, Repr

/-- A talk record (R84).  `listeners` are the ports last handed on to the Talk Mix Engine (R97, R98), in ascending
order. -/
structure Talk where
  id          : Nat
  talker      : Nat
  target      : Target
  level       : Int
  priority    : Nat
  origin      : TalkOrigin
  domain      : Option Domain
  creation    : Nat
  reservation : Nat
  listeners   : List Nat
  deriving DecidableEq, Repr

/-- Mode of a talk key, in the order of R88. -/
inductive TalkMode where
  | momentary | latching | auto
  deriving DecidableEq, Repr

/-- State of a talk key, in the order of R88. -/
inductive KeyState where
  | idle | held | heldLong | latched | heldCancel
  deriving DecidableEq, Repr

/-- The key talk state of one key (R88). -/
structure KeyTalk where
  state : KeyState
  mode  : Option TalkMode
  talk  : Option Nat
  timer : Bool
  deriving DecidableEq, Repr

/-- A configured IFB record (R103).  A duck depth of `none` is CUT. -/
structure Ifb where
  output    : Nat
  program   : Nat
  duck      : Option Int
  noPreempt : Bool
  current   : Option Nat
  level     : Nat
  pending   : List Nat
  deriving DecidableEq, Repr

/-- State of the Talk Controller. -/
structure TalkController where
  /-- R79: ports 1..64. -/
  ports   : Table Port
  /-- R82: groups 1..16, members ascending; unlisted ones are empty. -/
  groups  : Table (List Nat)
  /-- R84: the talk set, in ascending order of creation number. -/
  talks   : List Talk
  /-- R84: the creation counter. -/
  counter : Nat
  /-- R88: key talk states, by panel and key. -/
  keys    : Table (Table KeyTalk)
  /-- R103: IFB records 1..16; unlisted ones are unconfigured. -/
  ifbs    : Table Ifb
  deriving DecidableEq, Repr

/-! ### Talk Mix Engine (Chapters 6 and 7) -/

/-- Kind of a path (R101). -/
inductive PathKind where
  | talk
  | program (ifb : Nat)
  deriving DecidableEq, Repr

/-- A coefficient: OFF or a number of steps (R120). -/
inductive Coefficient where
  | off
  | steps (k : Int)
  deriving DecidableEq, Repr

/-- Admission state of a path, with what it holds while ADMITTED (R101). -/
inductive Admission where
  | admitted (number : Nat) (coefficient : Coefficient)
  | starved
  deriving DecidableEq, Repr

/-- A path of the path table (R101).  `level` has no meaning for a PROGRAM path and is 0 there. -/
structure Path where
  kind      : PathKind
  talker    : Nat
  listener  : Nat
  talks     : List Nat
  level     : Int
  priority  : Nat
  admission : Admission
  deriving DecidableEq, Repr

/-- State of the Talk Mix Engine. -/
structure TalkMix where
  /-- R101: the path table, by listener, then talker, PROGRAM first. -/
  paths       : List Path
  /-- R101: the admission counter. -/
  counter     : Nat
  /-- R112: the state source PATH_STARVED as it was last evaluated. -/
  pathStarved : Bool
  deriving DecidableEq, Repr

/-! ### Panel Bus Controller (Chapter 8) -/

/-- Expected kind of a panel (R133). -/
inductive PanelKind where
  | control | mixerBridge
  deriving DecidableEq, Repr

/-- State of a declared panel, in the order of R133. -/
inductive PanelState where
  | absent | joining | online | degraded | lost
  deriving DecidableEq, Repr

/-- Kinds of a counted error, in the order of R133; `none` before the first. -/
inductive ErrorKind where
  | none | crc | framing | timeout | wrongAddress | wrongKind
  deriving DecidableEq, Repr

/-- The lamp of one key in a panel's lamp image (R146).  A sent value of `none` is UNKNOWN. -/
structure LampCell where
  desired : Lamp
  sent    : Option Lamp
  deriving DecidableEq, Repr

/-- A declared panel record (R133) with its lamp image and scan pointer (R146). -/
structure Panel where
  kind        : PanelKind
  access      : Nat
  domain      : Domain
  ownPort     : Option Nat
  state       : PanelState
  keyCount    : Option Nat
  missed      : Nat
  seqBit      : Bool
  /-- Whether the page is 1. -/
  page        : Bool
  lastRefusal : Option (Nat × Reason)
  errors      : Nat
  lastWindow  : Nat
  lastError   : ErrorKind
  lamps       : Table LampCell
  scan        : Nat
  deriving DecidableEq, Repr

/-- What a panel reports of one key, of its knob or of a mixer bus (R145). -/
inductive PanelAction where
  | press (key : Nat)
  | release (key : Nat)
  | knob (delta : Int)
  | busState (bus input : Nat)
  deriving DecidableEq, Repr

/-- An event of the key event queue (R145). -/
structure KeyEvent where
  panel  : Nat
  action : PanelAction
  deriving DecidableEq, Repr

/-- Error report mode (R154, R155). -/
inductive CountMode where
  | auto | manual
  deriving DecidableEq, Repr

/-- The transaction on the panel bus (R136).  `entries` are the lamp entries of the POLL in flight (R146) and `ack` the
bit it carries (R144).  A transaction whose panel was removed, or that stood at a restart, has its outcome discarded
(R135, R157).  `kind` is the expected kind of the panel when the transaction began: a SET_PANEL does not affect a
transaction in flight (R134). -/
structure Transaction where
  probe   : Bool
  panel   : Nat
  ack     : Bool
  entries : List (Nat × Lamp)
  discard : Bool
  kind    : PanelKind
  deriving DecidableEq, Repr

/-- State of the Panel Bus Controller. -/
structure PanelBus where
  /-- R133: panel records 1..32; unlisted ones are undeclared. -/
  panels      : Table Panel
  /-- R145: the key event queue, head first. -/
  events      : List KeyEvent
  /-- R154: the report mode. -/
  mode        : CountMode
  /-- R154: the threshold. -/
  threshold   : Nat
  /-- R137: whether the cycle parity is ODD. -/
  odd         : Bool
  /-- R138: the probe pointer. -/
  pointer     : Nat
  /-- R137: the last panel polled in this cycle, 0 before the first. -/
  lastPolled  : Nat
  /-- R136: the transaction in flight; none during a cycle with no transaction (R137). -/
  transaction : Option Transaction
  /-- R157: a restart stood while a transaction was in flight, and the new cycle begins when it ends. -/
  newCycle    : Bool
  /-- R156: the state source PANEL_ERRORS as it was last evaluated. -/
  panelErrors : Bool
  deriving DecidableEq, Repr

/-! ### Function Dispatcher (Chapter 9) -/

/-- Kind of a function with its arguments, in the order of R159.  A PROTECT_TOGGLE of `none` is SELECTED. -/
inductive FunctionAction where
  | routeTake (d : Nat) (mask : LevelMask) (s : Nat)
  | selectDest (d : Nat)
  | presetSource (s : Nat)
  | takePreset (mask : LevelMask)
  | salvoFire (n : Nat)
  | protectToggle (d : Option Nat)
  | talk (target : Target) (onairDomain : Option Domain) (mode : TalkMode) (level : Int) (priority : Nat)
  | call (c : Nat)
  | pageToggle
  | systemKey (code : Nat)
  deriving DecidableEq, Repr

/-- A function record (R159). -/
structure KeyFunction where
  action : FunctionAction
  level  : Nat
  domain : FunctionDomain
  deriving DecidableEq, Repr

/-- The bindings of one panel, by page and key (R161). -/
structure Bindings where
  page0 : Table Nat
  page1 : Table Nat
  deriving DecidableEq, Repr

/-- A panel's context record (R168). -/
structure Context where
  dest   : Option Nat
  source : Option Nat
  deriving DecidableEq, Repr

/-- A held-key record that is not empty (R166). -/
inductive Held where
  | call (camera : Nat)
  | systemKey (code : Nat)
  deriving DecidableEq, Repr

/-- An entry of the system key queue (R172); `release` tells RELEASE from PRESS. -/
structure SystemKeyEntry where
  panel   : Nat
  key     : Nat
  code    : Nat
  release : Bool
  deriving DecidableEq, Repr

/-- State of the Function Dispatcher. -/
structure FunctionDispatcher where
  /-- R159: function slots 1..511; unlisted ones are empty. -/
  functions  : Table KeyFunction
  /-- R161: bindings by panel; unlisted ones are NULL. -/
  bindings   : Table Bindings
  /-- R168: context records by panel. -/
  contexts   : Table Context
  /-- R166: held-key records by panel and key; unlisted ones are empty. -/
  held       : Table (Table Held)
  /-- R167: counts of pending firings by panel and salvo. -/
  firings    : Table (Table Nat)
  /-- R172: the system key queue. -/
  systemKeys : List SystemKeyEntry
  /-- R177: host lamp values by panel and key. -/
  hostLamps  : Table (Table Lamp)
  deriving DecidableEq, Repr

/-! ### The whole part -/

/-- The state of the part, block by block, and the commands that wait, first in first out (log entry 2). -/
structure State where
  hlc     : HostLink
  rc      : RouteController
  stu     : SwitchTiming
  tt      : TallyTracer
  tou     : TallyOutputs
  tc      : TalkController
  tme     : TalkMix
  pbc     : PanelBus
  fd      : FunctionDispatcher
  pending : List Instr
  deriving DecidableEq, Repr

/-- No command of this part stops it with a fault: what the spec does not allow is answered with a reply code, counted,
discarded or ignored, each by a numbered rule.  The type is empty. -/
inductive Fault where
  deriving DecidableEq, Repr

/-- Why a step may be refused. -/
inductive Refusal where
  /-- Raised by an arm of `exec` that has no meaning yet.  Safe.  No arm of this model raises it. -/
  | notModelled (mnemonic : String)
  deriving DecidableEq, Repr

/-! ### Start values -/

/-- R2: a destination record after power-on and RESTART(ALL). -/
def Destination.start : Destination :=
  { domain := .shared, levels := ⟨.notFitted, .notFitted, .notFitted, .notFitted⟩, protect := .startupLock }

/-- R43: a root record after power-on and RESTART(ALL). -/
def Root.start : Root := { enabled := false, config := none, last := .noTerminal, fault := none }

/-- R45: a mixer bus after power-on and RESTART(ALL). -/
def Bus.start : Bus := { selection := 0, stale := false }

/-- R45: a mixer after power-on and RESTART(ALL). -/
def Mixer.start : Mixer := { source := .system, buses := ⟨[]⟩ }

/-- The empty colour set. -/
def ColourSet.none : ColourSet := { red := false, green := false, amber := false }

/-- R66: a tally output after power-on and RESTART(ALL). -/
def Output.start : Output := { config := none, drive := .off, fault := .ok }

/-- R79: a port record after power-on and RESTART(ALL). -/
def Port.start : Port :=
  { role := .unused, trim := 0, volume := -12, dim := -12, ceiling := none, talkerCeiling := none }

/-- R88: a key in IDLE. -/
def KeyTalk.start : KeyTalk := { state := .idle, mode := none, talk := none, timer := false }

/-- R146: the lamp of a key when its panel is declared. -/
def LampCell.start : LampCell := { desired := .off, sent := none }

/-- R161: the bindings of a panel after power-on and RESTART(ALL). -/
def Bindings.start : Bindings := { page0 := ⟨[]⟩, page1 := ⟨[]⟩ }

/-- R168: an empty context. -/
def Context.start : Context := { dest := none, source := none }

/-- R181 to R187: the Host Link Controller after power-on. -/
def HostLink.start : HostLink :=
  { collected := [], executed := [], waiting := [], outbound := [], sending := none, owed := 0,
    enabled := 0, set := 0, edges := ⟨.rise, .rise, .rise, .rise, .rise⟩ }

/-- R2, R11, R18, R23, R26: the Route Controller after power-on. -/
def RouteController.start : RouteController :=
  { dests := ⟨[]⟩, devices := ⟨[]⟩, queue := [], window := none, salvos := ⟨[]⟩, fabricFault := false, windows := 0 }

/-- R29: the Switch Timing Unit after power-on. -/
def SwitchTiming.start : SwitchTiming :=
  { family := .f59_94, reference := .lost, lastPulse := none, candidate := none,
    flywheelBase := 0, flywheelCount := 0, now := 0 }

/-- R43, R45, R50, R51, R57: the Tally Tracer after power-on. -/
def TallyTracer.start : TallyTracer :=
  { roots := ⟨[]⟩, mixers := ⟨[]⟩, inputMap1 := ⟨[]⟩, inputMap2 := ⟨[]⟩, ties := ⟨[]⟩, coloursA := ⟨[]⟩, coloursB := ⟨[]⟩ }

/-- R64, R66, R72, R77: the Tally Output Unit after power-on.  DESIGN CHOICE, unsafe: the flash clock starts in a lit
half (log entry 6). -/
def TallyOutputs.start : TallyOutputs :=
  { cameras := ⟨[]⟩, outputs := ⟨[]⟩, holders := [], flashLit := true, lampFault := false }

/-- R79, R82, R84, R88, R103: the Talk Controller after power-on. -/
def TalkController.start : TalkController :=
  { ports := ⟨[]⟩, groups := ⟨[]⟩, talks := [], counter := 1, keys := ⟨[]⟩, ifbs := ⟨[]⟩ }

/-- R101, R112: the Talk Mix Engine after power-on. -/
def TalkMix.start : TalkMix := { paths := [], counter := 1, pathStarved := false }

/-- R133, R137, R138, R145, R154, R156: the Panel Bus Controller after power-on.  With no panel declared the first cycle
makes no transaction (R137). -/
def PanelBus.start : PanelBus :=
  { panels := ⟨[]⟩, events := [], mode := .auto, threshold := 8, odd := false, pointer := 1, lastPolled := 0,
    transaction := none, newCycle := false, panelErrors := false }

/-- R159, R161, R166, R167, R168, R172, R177: the Function Dispatcher after power-on. -/
def FunctionDispatcher.start : FunctionDispatcher :=
  { functions := ⟨[]⟩, bindings := ⟨[]⟩, contexts := ⟨[]⟩, held := ⟨[]⟩, firings := ⟨[]⟩, systemKeys := [], hostLamps := ⟨[]⟩ }

/-- The part right after power-on (R190): every block at the values its chapter gives, and no command waiting. -/
def State.reset : State :=
  { hlc := HostLink.start, rc := RouteController.start, stu := SwitchTiming.start, tt := TallyTracer.start,
    tou := TallyOutputs.start, tc := TalkController.start, tme := TalkMix.start, pbc := PanelBus.start,
    fd := FunctionDispatcher.start, pending := [] }

end Sys2Proof.Machine
end

