-- ==== Sys2Proof/Machine/Ops.lean ====
section
/-! DEFINITION. The named operations over the data of State.lean that every chapter shares: tables, level masks, colour
sets, bytes and the CRC, ordered lists, and the reads and writes of each table by the name the spec gives it. -/

namespace Sys2Proof.Machine

/-! ### Numbered tables -/

/-- The value that a list of numbered entries holds for a number. -/
def lookup {α : Type} : List (Nat × α) → Nat → Option α
  | [], _ => none
  | e :: es, k => if e.1 = k then some e.2 else lookup es k

/-- The list with the value of one number written, the numbers kept in ascending order. -/
def insertEntry {α : Type} (k : Nat) (v : α) : List (Nat × α) → List (Nat × α)
  | [] => [(k, v)]
  | e :: es => if k < e.1 then (k, v) :: e :: es else if e.1 = k then (k, v) :: es else e :: insertEntry k v es

/-- The listed value of number `k`, if the table lists one. -/
def Table.find? {α : Type} (t : Table α) (k : Nat) : Option α := lookup t.entries k

/-- The table with the value of number `k` listed. -/
def Table.put {α : Type} (t : Table α) (k : Nat) (v : α) : Table α := ⟨insertEntry k v t.entries⟩

/-- The table with number `k` not listed. -/
def Table.erase {α : Type} (t : Table α) (k : Nat) : Table α := ⟨t.entries.filter fun e => e.1 != k⟩

/-- The value of number `k` in a table whose unlisted numbers hold `start`. -/
def Table.get {α : Type} (t : Table α) (start : α) (k : Nat) : α := (t.find? k).getD start

/-- The table with the value of number `k` written.  The start value is not listed, so that equal tables are equal
data. -/
def Table.set {α : Type} [DecidableEq α] (t : Table α) (start : α) (k : Nat) (v : α) : Table α :=
  if v = start then t.erase k else t.put k v

/-- The table with a function applied to every listed value. -/
def Table.mapValues {α : Type} (f : Nat → α → α) (t : Table α) : Table α := ⟨t.entries.map fun e => (e.1, f e.1 e.2)⟩

/-- The listed numbers of a table. -/
def Table.keys {α : Type} (t : Table α) : List Nat := t.entries.map Prod.fst

/-- The listed values of a table. -/
def Table.values {α : Type} (t : Table α) : List α := t.entries.map Prod.snd

/-- Whether a list of numbered entries is in canonical form: numbers rising, no entry equal to the start value. -/
def ascending {α : Type} : List (Nat × α) → Bool
  | [] => true
  | [_] => true
  | e :: f :: es => e.1 < f.1 && ascending (f :: es)

/-- Whether a table is in canonical form for its start value. -/
def Table.wf {α : Type} [DecidableEq α] (t : Table α) (start : α) : Bool :=
  ascending t.entries && t.entries.all fun e => decide (e.2 ≠ start)

/-! ### Numbers and lists -/

/-- Whether a number lies in a range written "lo..hi", both ends included (spec/00_scope.md, 4.1). -/
def within (lo hi n : Nat) : Bool := decide (lo ≤ n) && decide (n ≤ hi)

/-- Whether a signed number lies in a range, both ends included. -/
def withinInt (lo hi n : Int) : Bool := decide (lo ≤ n) && decide (n ≤ hi)

/-- The numbers lo..hi in ascending order. -/
def numbers (lo hi : Nat) : List Nat := List.range' lo (hi + 1 - lo)

/-- A value put in its place in a list ordered by `before`, behind the values it does not come before. -/
def insertOrdered {α : Type} (before : α → α → Bool) (a : α) : List α → List α
  | [] => [a]
  | b :: bs => if before a b then a :: b :: bs else b :: insertOrdered before a bs

/-- A list put in the order of `before`. -/
def inOrder {α : Type} (before : α → α → Bool) (as : List α) : List α := as.foldr (insertOrdered before) []

/-- Whether no value appears twice. -/
def noRepeats {α : Type} [DecidableEq α] : List α → Bool
  | [] => true
  | a :: as => !as.contains a && noRepeats as

/-- A list without its later repeats of a value. -/
def withoutRepeats {α : Type} [DecidableEq α] (as : List α) : List α :=
  as.foldr (fun a bs => if bs.contains a then bs else a :: bs) []

/-- Ports as a set: ascending, none twice (R82, R97). -/
def asPortSet (ports : List Nat) : List Nat := inOrder (fun a b => decide (a < b)) (withoutRepeats ports)

/-- How many values of a list satisfy a condition. -/
def count {α : Type} (f : α → Bool) (as : List α) : Nat := (as.filter f).length

/-- The smallest of a list by a strict order, the earlier one when two are equal. -/
def firstBy {α : Type} (before : α → α → Bool) : List α → Option α
  | [] => none
  | a :: as =>
    match firstBy before as with
    | none => some a
    | some b => if before b a then some b else some a

/-! ### Levels and masks (spec/00_scope.md, 4.2) -/

/-- The four levels, in the order of the level mask's bits (section 11.1). -/
def levels : List Level := [.vid, .aud1, .aud2, .aux]

/-- The value of one level. -/
def PerLevel.get {α : Type} (p : PerLevel α) : Level → α
  | .vid => p.vid
  | .aud1 => p.aud1
  | .aud2 => p.aud2
  | .aux => p.aux

/-- The value of one level written. -/
def PerLevel.put {α : Type} (p : PerLevel α) (v : α) : Level → PerLevel α
  | .vid => { p with vid := v }
  | .aud1 => { p with aud1 := v }
  | .aud2 => { p with aud2 := v }
  | .aux => { p with aux := v }

/-- A value for each level. -/
def perLevel {α : Type} (f : Level → α) : PerLevel α := ⟨f .vid, f .aud1, f .aud2, f .aux⟩

/-- Whether a mask names a level. -/
def LevelMask.has (m : LevelMask) (l : Level) : Bool := PerLevel.get m l

/-- The empty mask. -/
def noLevels : LevelMask := ⟨false, false, false, false⟩

/-- Whether a mask names no level. -/
def LevelMask.isEmpty (m : LevelMask) : Bool := !(m.vid || m.aud1 || m.aud2 || m.aux)

/-- The levels of the first mask that the second does not name. -/
def LevelMask.minus (m n : LevelMask) : LevelMask := perLevel fun l => LevelMask.has m l && !LevelMask.has n l

/-- The levels of a mask that satisfy a condition. -/
def LevelMask.keep (m : LevelMask) (f : Level → Bool) : LevelMask := perLevel fun l => LevelMask.has m l && f l

/-- The levels that a mask names. -/
def LevelMask.list (m : LevelMask) : List Level := levels.filter fun l => LevelMask.has m l

/-! ### Colours (spec/00_scope.md, 4.7) -/

/-- Whether a colour set holds a colour. -/
def ColourSet.has (c : ColourSet) : Colour → Bool
  | .red => c.red
  | .green => c.green
  | .amber => c.amber

/-- A colour set with a colour added. -/
def ColourSet.add (c : ColourSet) : Colour → ColourSet
  | .red => { c with red := true }
  | .green => { c with green := true }
  | .amber => { c with amber := true }

/-- Whether two colour sets share a colour. -/
def ColourSet.meets (c d : ColourSet) : Bool := c.red && d.red || c.green && d.green || c.amber && d.amber

/-- Whether a colour set is empty. -/
def ColourSet.isEmpty (c : ColourSet) : Bool := !(c.red || c.green || c.amber)

/-! ### Bytes (Chapter 11: most significant byte first) and the CRC of R180 -/

/-- A number as one byte. -/
def byte (n : Nat) : Byte := BitVec.ofNat 8 n

/-- A number as two bytes. -/
def be16 (n : Nat) : List Byte := [byte (n / 256), byte n]

/-- A number as four bytes. -/
def be32 (n : Nat) : List Byte := [byte (n / 16777216), byte (n / 65536), byte (n / 256), byte n]

/-- The number that two bytes spell. -/
def nat16 (hi lo : Byte) : Nat := 256 * hi.toNat + lo.toNat

/-- The signed steps of a gain field (section 11.1). -/
def steps (b : Byte) : Int := b.toInt

/-- Signed steps as one byte. -/
def stepsByte (i : Int) : Byte := BitVec.ofInt 8 i

/-- Signed steps as two bytes. -/
def steps16 (i : Int) : List Byte := be16 (BitVec.ofInt 16 i).toNat

/-- Yes or no as a byte (section 11.1). -/
def yesNo (b : Bool) : Byte := if b then 1 else 0

/-- The byte with every bit set (R196). -/
def allOnes : Byte := 0xFF

/-- A counted list: the count and then the items (section 11.1). -/
def counted (items : List (List Byte)) : List Byte := byte items.length :: items.flatten

/-- One bit of the CRC of R180: polynomial x^16 + x^12 + x^5 + 1, most significant bit first. -/
def crcBit (c : BitVec 16) : BitVec 16 := if c.msb then (c <<< 1) ^^^ 0x1021#16 else c <<< 1

/-- One byte taken into the CRC. -/
def crcByte (c : BitVec 16) (b : Byte) : BitVec 16 :=
  crcBit (crcBit (crcBit (crcBit (crcBit (crcBit (crcBit (crcBit (c ^^^ (b.zeroExtend 16 <<< 8)))))))))

/-- R180: the CRC-16 of bytes, initial value 0xFFFF, nothing reflected or inverted. -/
def crc16 (bytes : List Byte) : BitVec 16 := bytes.foldl crcByte 0xFFFF#16

/-- Bytes followed by their CRC, most significant byte first. -/
def withCrc (bytes : List Byte) : List Byte := bytes ++ be16 (crc16 bytes).toNat

/-- Whether the last two of the bytes are the CRC of those before them. -/
def crcChecks (bytes : List Byte) : Bool :=
  decide (2 ≤ bytes.length) && withCrc (bytes.take (bytes.length - 2)) == bytes

/-! ### Reads and writes of the tables, by the spec's names -/

/-- Destination record d (R1). -/
def State.dest (s : State) (d : Nat) : Destination := s.rc.dests.get Destination.start d

/-- Destination record d written. -/
def State.setDest (s : State) (d : Nat) (v : Destination) : State :=
  { s with rc := { s.rc with dests := s.rc.dests.set Destination.start d v } }

/-- What level `l` of destination d holds (R1). -/
def State.levelAt (s : State) (d : Nat) (l : Level) : LevelState := (s.dest d).levels.get l

/-- Level `l` of destination d written. -/
def State.setLevel (s : State) (d : Nat) (l : Level) (v : LevelState) : State :=
  s.setDest d { s.dest d with levels := (s.dest d).levels.put v l }

/-- Protect state of destination d written (R5 to R9). -/
def State.setProtect (s : State) (d : Nat) (p : Protect) : State := s.setDest d { s.dest d with protect := p }

/-- Fabric device record n, if it is mapped (R11). -/
def State.device? (s : State) (n : Nat) : Option Device := s.rc.devices.find? n

/-- Fabric device record n written. -/
def State.setDevice (s : State) (n : Nat) (v : Device) : State :=
  { s with rc := { s.rc with devices := s.rc.devices.put n v } }

/-- The stored entries of salvo n (R26). -/
def State.salvo (s : State) (n : Nat) : List StoredEntry := s.rc.salvos.get [] n

/-- Root r (R43). -/
def State.root (s : State) (r : Nat) : Root := s.tt.roots.get Root.start r

/-- Mixer m (R45). -/
def State.mixer (s : State) (m : Nat) : Mixer := s.tt.mixers.get Mixer.start m

/-- Mixer m written. -/
def State.setMixer (s : State) (m : Nat) (v : Mixer) : State :=
  { s with tt := { s.tt with mixers := s.tt.mixers.set Mixer.start m v } }

/-- Bus b of a mixer (R45). -/
def Mixer.bus (m : Mixer) (b : Nat) : Bus := m.buses.get Bus.start b

/-- Bus b of a mixer written. -/
def Mixer.setBus (m : Mixer) (b : Nat) (v : Bus) : Mixer := { m with buses := m.buses.set Bus.start b v }

/-- The destination that entry i of the input map of mixer m names, or none for NONE (R50). -/
def State.mapEntry (s : State) (m i : Nat) : Option Nat :=
  if m = 1 then s.tt.inputMap1.find? i else s.tt.inputMap2.find? i

/-- The destination that feeds source x, if x is a tie source (R51). -/
def State.tie? (s : State) (x : Nat) : Option Nat := s.tt.ties.find? x

/-- The colour set of source x in a domain (R57). -/
def State.colours (s : State) (dom : Domain) (x : Nat) : ColourSet :=
  match dom with
  | .a => s.tt.coloursA.get ColourSet.none x
  | .b => s.tt.coloursB.get ColourSet.none x

/-- Camera record c, if it is set (R64). -/
def State.camera? (s : State) (c : Nat) : Option Camera := s.tou.cameras.find? c

/-- The call count of camera c: the number of entries of the call holder list that name it (R64, R70). -/
def State.callCount (s : State) (c : Nat) : Nat := count (fun h => h.camera == c) s.tou.holders

/-- Tally output n (R66). -/
def State.output (s : State) (n : Nat) : Output := s.tou.outputs.get Output.start n

/-- Tally output n written. -/
def State.setOutput (s : State) (n : Nat) (v : Output) : State :=
  { s with tou := { s.tou with outputs := s.tou.outputs.set Output.start n v } }

/-- Port record q (R79). -/
def State.port (s : State) (q : Nat) : Port := s.tc.ports.get Port.start q

/-- Port record q written. -/
def State.setPort (s : State) (q : Nat) (v : Port) : State :=
  { s with tc := { s.tc with ports := s.tc.ports.set Port.start q v } }

/-- The members of group g (R82). -/
def State.group (s : State) (g : Nat) : List Nat := s.tc.groups.get [] g

/-- The talk of an id, if it is active (R84). -/
def State.talk? (s : State) (id : Nat) : Option Talk := s.tc.talks.find? fun t => t.id == id

/-- The talk in a system slot, if any (R93). -/
def State.slotTalk? (s : State) (slot : Nat) : Option Talk := s.tc.talks.find? fun t => t.origin == .system slot

/-- The key talk state of key k of panel p (R88). -/
def State.key (s : State) (p k : Nat) : KeyTalk := (s.tc.keys.get ⟨[]⟩ p).get KeyTalk.start k

/-- The key talk state of key k of panel p written. -/
def State.setKey (s : State) (p k : Nat) (v : KeyTalk) : State :=
  { s with tc := { s.tc with keys := s.tc.keys.set ⟨[]⟩ p ((s.tc.keys.get ⟨[]⟩ p).set KeyTalk.start k v) } }

/-- IFB record n, if it is configured (R103). -/
def State.ifb? (s : State) (n : Nat) : Option Ifb := s.tc.ifbs.find? n

/-- Panel record p, if panel p is declared (R133). -/
def State.panel? (s : State) (p : Nat) : Option Panel := s.pbc.panels.find? p

/-- Panel record p written. -/
def State.setPanel (s : State) (p : Nat) (v : Panel) : State :=
  { s with pbc := { s.pbc with panels := s.pbc.panels.put p v } }

/-- The state of panel p, if it is declared (R133). -/
def State.panelState? (s : State) (p : Nat) : Option PanelState := (s.panel? p).map (·.state)

/-- Whether panel p is ONLINE or DEGRADED: the check of R48, R70, R81, R89 and R165. -/
def State.inService (s : State) (p : Nat) : Bool :=
  s.panelState? p == some .online || s.panelState? p == some .degraded

/-- The lamp cell of key k in a panel's lamp image (R146). -/
def Panel.lamp (p : Panel) (k : Nat) : LampCell := p.lamps.get LampCell.start k

/-- The lamp cell of key k written. -/
def Panel.setLamp (p : Panel) (k : Nat) (v : LampCell) : Panel := { p with lamps := p.lamps.set LampCell.start k v }

/-- Whether key k differs: its sent value is not equal to its desired value (R146). -/
def Panel.differs (p : Panel) (k : Nat) : Bool := (p.lamp k).sent != some (p.lamp k).desired

/-- Function slot f, if it is not empty (R159). -/
def State.function? (s : State) (f : Nat) : Option KeyFunction := s.fd.functions.find? f

/-- The bindings of panel p (R161). -/
def State.bindings (s : State) (p : Nat) : Bindings := s.fd.bindings.get Bindings.start p

/-- The binding of key k on a page of panel p, 0 for NULL (R161); `page1` tells page 1 from page 0. -/
def State.binding (s : State) (p : Nat) (page1 : Bool) (k : Nat) : Nat :=
  if page1 then (s.bindings p).page1.get 0 k else (s.bindings p).page0.get 0 k

/-- The context record of panel p (R168). -/
def State.context (s : State) (p : Nat) : Context := s.fd.contexts.get Context.start p

/-- The context record of panel p written. -/
def State.setContext (s : State) (p : Nat) (v : Context) : State :=
  { s with fd := { s.fd with contexts := s.fd.contexts.set Context.start p v } }

/-- The held-key record of key k of panel p, if it is not empty (R166). -/
def State.held? (s : State) (p k : Nat) : Option Held := (s.fd.held.get ⟨[]⟩ p).find? k

/-- The held-key record of key k of panel p written, or emptied. -/
def State.setHeld (s : State) (p k : Nat) (v : Option Held) : State :=
  let t := s.fd.held.get ⟨[]⟩ p
  let t' := match v with
    | some h => t.put k h
    | none => t.erase k
  { s with fd := { s.fd with held := s.fd.held.set ⟨[]⟩ p t' } }

/-- The count of pending firings of salvo n by panel p (R167). -/
def State.pendingFirings (s : State) (p n : Nat) : Nat := (s.fd.firings.get ⟨[]⟩ p).get 0 n

/-- The count of pending firings of salvo n by panel p written. -/
def State.setPendingFirings (s : State) (p n v : Nat) : State :=
  { s with fd := { s.fd with firings := s.fd.firings.set ⟨[]⟩ p ((s.fd.firings.get ⟨[]⟩ p).set 0 n v) } }

/-- The host lamp value of key k of panel p (R177). -/
def State.hostLamp (s : State) (p k : Nat) : Lamp := (s.fd.hostLamps.get ⟨[]⟩ p).get .off k

/-- The host lamp value of key k of panel p written. -/
def State.setHostLamp (s : State) (p k : Nat) (v : Lamp) : State :=
  { s with fd := { s.fd with hostLamps := s.fd.hostLamps.set ⟨[]⟩ p ((s.fd.hostLamps.get ⟨[]⟩ p).set .off k v) } }

end Sys2Proof.Machine
end

