-- ==== Sys2Proof/Machine/Flags.lean ====
section
/-! DEFINITION. The event flags of section 10.5: their numbers, how a flag is set (R187), how an EVENT_FLAGS message is
queued (R188), how a state source hands over a change of its value (R187), and the refusal of a key action, which writes
the last-refusal record and raises KEY_REFUSED (R171). -/

namespace Sys2Proof.Machine

/-- The number of a flag (section 10.5), which is its bit in the enables, in the set flags and in the EVENT_FLAGS
message. -/
def Flag.number : Flag → Nat
  | .panelState => 0
  | .panelErrors => 1
  | .countSaturated => 2
  | .refLost => 3
  | .lampFault => 4
  | .tallyChange => 5
  | .traceFault => 6
  | .systemKey => 7
  | .keyRefused => 8
  | .pathStarved => 9
  | .ifbChange => 10
  | .fabricFault => 11
  | .hostFrameError => 12
  | .readbackDone => 13

/-- Whether a flag is enabled (R187). -/
def State.flagEnabled (s : State) (f : Flag) : Bool := s.hlc.enabled.getLsbD f.number

/-- Whether a flag is set (R187). -/
def State.flagSet (s : State) (f : Flag) : Bool := s.hlc.set.getLsbD f.number

/-- The edge select of a state flag; an event flag has none (R187). -/
def EdgeSelects.of? (e : EdgeSelects) : Flag → Option Edge
  | .panelErrors => some e.panelErrors
  | .refLost => some e.refLost
  | .lampFault => some e.lampFault
  | .pathStarved => some e.pathStarved
  | .fabricFault => some e.fabricFault
  | _ => none

/-- R187: whether a change of a state source to `value` matches an edge select. -/
def Edge.accepts : Edge → Bool → Bool
  | .rise, value => value
  | .fall, value => !value
  | .both, _ => true

/-- A message put at the tail of the outbound queue (R186). -/
def queueMessage (m : Message) (s : State) : State :=
  { s with hlc := { s.hlc with outbound := s.hlc.outbound ++ [m] } }

/-- Whether an EVENT_FLAGS message is waiting (R188). -/
def State.flagsWaiting (s : State) : Bool := s.hlc.outbound.any fun m => m.cls == .eventFlags

/-- R187, R188: a flag becomes set.  When it was clear and no EVENT_FLAGS message is waiting, one is queued at the tail of
the outbound queue. -/
def setFlag (f : Flag) (s : State) : State :=
  if s.flagSet f then s
  else
    let s1 := { s with hlc := { s.hlc with set := s.hlc.set ||| (1#16 <<< f.number) } }
    if s.flagsWaiting then s1 else queueMessage { cls := .eventFlags, tag := 0, payload := [] } s1

/-- R187: a block raises an event flag.  The raising of a disabled flag is not recorded. -/
def raise (f : Flag) (s : State) : State := if s.flagEnabled f then setFlag f s else s

/-- R187: a block hands over the value of its state source, which was `before` and is `now`.  Only a change that matches
the edge select of an enabled flag sets it. -/
def handOver (f : Flag) (before now : Bool) (s : State) : State :=
  if before == now then s
  else
    match s.hlc.edges.of? f with
    | some e => if s.flagEnabled f && e.accepts now then setFlag f s else s
    | none => s

/-- R171: the refusal of an action of key k of panel p.  It is written while the panel is declared, in whatever state,
and raises KEY_REFUSED; for an undeclared panel it is discarded. -/
def keyRefusal (p k : Nat) (why : Reason) (s : State) : State :=
  match s.panel? p with
  | some v => raise .keyRefused (s.setPanel p { v with lastRefusal := some (k, why) })
  | none => s

end Sys2Proof.Machine
end

