-- ==== Sys2Proof/Machine/Mix.lean ====
section
/-! DEFINITION. The Talk Mix Engine: the five stages of a coefficient (Chapter 7), admission (R106 to R109) and the
handling in which the path table follows the talk set and the IFB table (R110). -/

namespace Sys2Proof.Machine

/-! ### Coefficients (Chapter 7) -/

/-- R125: the auto-level term for `n` admitted TALK paths into a listener. -/
def autoLevel (n : Nat) : Int :=
  if n ≤ 1 then 0 else if n = 2 then -6 else if n = 3 then -10 else if n = 4 then -12 else if n ≤ 8 then -16 else -20

/-- R124: the cap formed from the listener ceiling and the talker ceiling.  Without a listener ceiling there is none. -/
def capOf (listener talker : Option Int) : Option Int :=
  match listener, talker with
  | none, _ => none
  | some c, none => some c
  | some c, some t => some (min c t)

/-- R124: a pre-gain held to a cap. -/
def heldTo (cap : Option Int) (p : Int) : Int :=
  match cap with
  | none => p
  | some c => min p c

/-- R126, stage 5: the limits.  Above +24 saturates, below −144 is OFF. -/
def limited (k : Int) : Coefficient := if 24 < k then .steps 24 else if k < -144 then .off else .steps k

/-- R122: the dim condition of a port: it is the talker of at least one talk of the talk set. -/
def State.dimmed (s : State) (q : Nat) : Bool := s.tc.talks.any fun t => t.talker == q

/-- R122: the dim term of a listener. -/
def State.dimTerm (s : State) (q : Nat) : Int := if s.dimmed q then (s.port q).dim else 0

/-- R123 to R126: the coefficient of an admitted TALK path from talker `t` to listener `l` at path level `x`, with `n`
admitted TALK paths into `l`. -/
def talkCoefficient (s : State) (n : Nat) (t l : Nat) (x : Int) : Coefficient :=
  let p := (s.port t).trim + x + s.dimTerm l
  limited (heldTo (capOf (s.port l).ceiling (s.port t).talkerCeiling) p + autoLevel n + (s.port l).volume)

/-- R127: the coefficient of the PROGRAM path of an IFB record. -/
def programCoefficient (s : State) (i : Ifb) : Coefficient :=
  let sum (duck : Int) := limited ((s.port i.program).trim + duck + (s.port i.output).volume)
  match i.current, i.duck with
  | none, _ => sum 0
  | some _, some d => sum d
  | some _, none => .off

/-! ### Reading the path table -/

/-- Whether a path is ADMITTED. -/
def Path.isAdmitted (p : Path) : Bool := match p.admission with | .admitted _ _ => true | .starved => false

/-- Whether a path is a TALK path. -/
def Path.isTalk (p : Path) : Bool := p.kind == .talk

/-- The admission number of a path, 0 while it is STARVED. -/
def Path.number (p : Path) : Nat := match p.admission with | .admitted n _ => n | .starved => 0

/-- Whether two records are of the same path: kind, talker and listener. -/
def Path.same (p q : Path) : Bool := p.kind == q.kind && p.talker == q.talker && p.listener == q.listener

/-- R106: the admitted paths into a listener. -/
def admittedInto (paths : List Path) (l : Nat) : Nat := count (fun p => p.isAdmitted && p.listener == l) paths

/-- R106: the admitted paths of the table. -/
def admittedCount (paths : List Path) : Nat := count Path.isAdmitted paths

/-- R121: the count n of admitted TALK paths into a listener. -/
def talkCountInto (paths : List Path) (l : Nat) : Nat :=
  count (fun p => p.isAdmitted && p.isTalk && p.listener == l) paths

/-- R102: the creation number of the oldest contributing talk of a path. -/
def State.oldestCreation (s : State) (p : Path) : Nat :=
  match p.talks with
  | id :: _ => ((s.talk? id).map (·.creation)).getD 0
  | [] => 0

/-- R101: the order of the path table. -/
def tableBefore (p q : Path) : Bool :=
  if p.listener != q.listener then decide (p.listener < q.listener)
  else if p.talker != q.talker then decide (p.talker < q.talker)
  else !p.isTalk && q.isTalk

/-- R108, R109: the order of candidates and of the re-admission pass. -/
def candidateBefore (s : State) (p q : Path) : Bool :=
  let second (x : Path) : Nat := match x.kind with | .talk => s.oldestCreation x | .program n => n
  if p.priority != q.priority then decide (q.priority < p.priority)
  else if second p != second q then decide (second p < second q)
  else if p.listener != q.listener then decide (p.listener < q.listener)
  else decide (p.talker < q.talker)

/-! ### Admission (R106 to R109) -/

/-- The path table and the admission counter, as admission works on them. -/
structure Admissions where
  paths   : List Path
  counter : Nat
  deriving DecidableEq, Repr

/-- A path's record changed in the table. -/
def changePath (paths : List Path) (p : Path) (a : Admission) : List Path :=
  paths.map fun q => if q.same p then { q with admission := a } else q

/-- R101: the admitted TALK paths renumbered 1, 2, 3 and so on in the order of their present numbers.  A PROGRAM path keeps
its number, which may then be that of a TALK path too (DESIGN CHOICE, log entry 33). -/
def renumberPaths (paths : List Path) : List Path :=
  paths.map fun p =>
    match p.admission with
    | .admitted n c =>
      if p.isTalk then { p with admission := .admitted (1 + count (fun q => q.isTalk && q.isAdmitted && q.number < n) paths) c }
      else p
    | .starved => p

/-- R106: a path becomes ADMITTED with the next admission number.  Its coefficient is computed at the end of the handling
(R110 step 6).  When the counter would pass its last number, the admitted TALK paths are renumbered (R101). -/
def enterPath (p : Path) (a : Admissions) : Admissions :=
  let paths := changePath a.paths p (.admitted a.counter .off)
  if a.counter < Config.lastNumber then ⟨paths, a.counter + 1⟩
  else ⟨renumberPaths paths, count (fun q => q.isTalk && q.isAdmitted) paths + 1⟩

/-- R106: whether neither cap binds for a path into a listener. -/
def fits (paths : List Path) (l : Nat) : Bool :=
  decide (admittedInto paths l < Config.listenerCap) && decide (admittedCount paths < Config.totalCap)

/-- R107: the victim among the candidates: the lowest priority, and among equals the highest admission number. -/
def victimOf (candidates : List Path) : Option Path :=
  firstBy (fun p q => decide (p.priority < q.priority) || p.priority == q.priority && decide (q.number < p.number)) candidates

/-- R107: the admitted TALK paths among which the victim of an offer into listener `l` is sought. -/
def victimCandidates (paths : List Path) (l : Nat) : List Path :=
  paths.filter fun p =>
    p.isAdmitted && p.isTalk && (decide (admittedInto paths l < Config.listenerCap) || p.listener == l)

/-- R107: a path is offered for admission. -/
def offer (a : Admissions) (p : Path) : Admissions :=
  if fits a.paths p.listener then enterPath p a
  else
    match victimOf (victimCandidates a.paths p.listener) with
    | some v => if v.priority < p.priority then enterPath p ⟨changePath a.paths v .starved, a.counter⟩ else a
    | none => a

/-- R109: a starved path is considered in the re-admission pass. -/
def readmit (a : Admissions) (p : Path) : Admissions := if fits a.paths p.listener then enterPath p a else a

/-! ### The handling (R110) -/

/-- What a path is in a handling, after its first three steps. -/
inductive Standing where
  | kept | marked | new
  deriving DecidableEq, Repr

/-- R102: the ids of the talks that contribute to a pair of ports, in order of creation. -/
def State.contributors (s : State) (t l : Nat) : List Nat :=
  (s.tc.talks.filter fun x => x.talker == t && x.listeners.contains l).map (·.id)

/-- R102: the pairs of ports that some talk joins.  No path has one port as talker and listener. -/
def State.talkPairs (s : State) : List (Nat × Nat) :=
  withoutRepeats ((s.tc.talks.flatMap fun x => x.listeners.map fun l => (x.talker, l)).filter fun x => x.1 != x.2)

/-- The talks of a list of ids. -/
def State.talksOf (s : State) (ids : List Nat) : List Talk := ids.filterMap s.talk?

/-- R102: the highest talk level among talks. -/
def highestLevel : List Talk → Int
  | [] => 0
  | [t] => t.level
  | t :: ts => max t.level (highestLevel ts)

/-- R102: the highest priority among talks. -/
def highestPriority (ts : List Talk) : Nat := ts.foldr (fun t m => max t.priority m) 0

/-- A TALK path with its level and priority derived from its contributing talks (R102). -/
def State.talkPath (s : State) (t l : Nat) (a : Admission) : Path :=
  let ids := s.contributors t l
  { kind := .talk, talker := t, listener := l, talks := ids, level := highestLevel (s.talksOf ids),
    priority := highestPriority (s.talksOf ids), admission := a }

/-- R105: the PROGRAM path of IFB n. -/
def programPath (n : Nat) (i : Ifb) (a : Admission) : Path :=
  { kind := .program n, talker := i.program, listener := i.output, talks := [], level := 0, priority := 8, admission := a }

/-- R117: whether IFB n has output port `l` and a current interrupter of talker port `t`. -/
def State.interrupts (s : State) (t l n : Nat) : Bool :=
  match s.ifb? n with
  | none => false
  | some i => i.output == l && (i.current.bind s.talk?).any fun x => x.talker == t

/-- R117: whether the event that took `before` to `s` left some IFB of output port `l` with a current interrupter of talker
port `t`, as it had one before: the same, or one that took its place. -/
def State.succession (before s : State) (t l : Nat) : Bool :=
  (numbers 1 16).any fun n => before.interrupts t l n && s.interrupts t l n

/-- R110 steps 1 and 2: whether a path stands through the handling of the event that took `before` to `s`, in which its
contributing talks become `ids`.  A path left without contributions by the withdrawals is removed, and the pair meets
admission anew, except where one interrupter of an IFB follows another of the same talker port (R117; DEDUCED, log entry
12). -/
def State.pathStands (before s : State) (old : Path) (ids : List Nat) : Bool :=
  old.talks.any ids.contains || before.succession s old.talker old.listener

/-- R110 steps 1 to 3 for one pair of ports: the path and its standing. -/
def State.pairStanding (before s : State) (pair : Nat × Nat) : Path × Standing :=
  let fresh := s.talkPath pair.1 pair.2 .starved
  match s.tme.paths.find? fun p => p.same fresh with
  | none => (fresh, .new)
  | some old =>
    if before.pathStands s old fresh.talks then
      ({ fresh with admission := old.admission },
        if !old.isAdmitted && decide (old.priority < fresh.priority) then .marked else .kept)
    else (fresh, .new)

/-- R104, R105, R110: the PROGRAM path of one configured IFB and its standing. -/
def State.programStanding (s : State) (entry : Nat × Ifb) : Path × Standing :=
  let fresh := programPath entry.1 entry.2 .starved
  match s.tme.paths.find? fun p => p.same fresh with
  | none => (fresh, .new)
  | some old => (old, .kept)

/-- R110 steps 1 to 3: the paths of the handling in table order, each with its standing. -/
def State.standings (before s : State) : List (Path × Standing) :=
  inOrder (fun x y => tableBefore x.1 y.1) (s.talkPairs.map (before.pairStanding s) ++ s.tc.ifbs.entries.map s.programStanding)

/-- R110 step 1: whether a place under either cap was given back. -/
def placeFreed (old : List Path) (now : List (Path × Standing)) : Bool :=
  old.any fun p => p.isAdmitted && !now.any fun x => x.2 != .new && x.1.same p

/-- R110 steps 4 and 5: the re-admission pass, if a place was given back, and then the offers in candidate order. -/
def admissions (s : State) (now : List (Path × Standing)) : Admissions :=
  let order := inOrder (candidateBefore s)
  let waiting := order ((now.filter fun x => x.2 == .kept && !x.1.isAdmitted).map Prod.fst)
  let offered := order ((now.filter fun x => x.2 != .kept).map Prod.fst)
  let start : Admissions := ⟨now.map Prod.fst, s.tme.counter⟩
  let passed := if placeFreed s.tme.paths now then waiting.foldl readmit start else start
  offered.foldl offer passed

/-- R110 step 6, R120: the coefficient of one path over a path table, against the state as it stands. -/
def State.withCoefficient (s : State) (paths : List Path) (p : Path) : Path :=
  match p.admission with
  | .starved => p
  | .admitted n _ =>
    let c := match p.kind with
      | .talk => talkCoefficient s (talkCountInto paths p.listener) p.talker p.listener p.level
      | .program i => match s.ifb? i with
        | some v => programCoefficient s v
        | none => .off
    { p with admission := .admitted n c }

/-- R129: the coefficients of the admitted paths computed afresh.  A coefficient is a function of its inputs as they
stand, so computing those whose inputs did not change gives the same values. -/
def recompute (s : State) : State :=
  { s with tme := { s.tme with paths := s.tme.paths.map (s.withCoefficient s.tme.paths) } }

/-- R112: PATH_STARVED is re-evaluated and a change handed over. -/
def evaluateStarved (s : State) : State :=
  let now := s.tme.paths.any fun p => !p.isAdmitted
  handOver .pathStarved s.tme.pathStarved now { s with tme := { s.tme with pathStarved := now } }

/-- R110: one handling of the Talk Mix Engine, at the event that took `before` to `s`.  The path table follows the talks
with their listeners and the IFB table as the Talk Controller now holds them. -/
def handling (before s : State) : State :=
  let a := admissions s (before.standings s)
  evaluateStarved (recompute { s with tme := { s.tme with paths := a.paths, counter := a.counter } })

end Sys2Proof.Machine
end

