-- ==== Sys2Proof/Machine/TalkSet.lean ====
section
/-! DEFINITION. The Talk Controller: the listeners of a talk (R97, R98), the creation and the ending of talks (R86, R87),
IFB arbitration (R113 to R117), the talk keys (R88 to R92), and what a camera change, the loss of a panel and the
restarts do to the talk set (R95, R96, R99). -/

namespace Sys2Proof.Machine

/-! ### Targets and listeners -/

/-- The talk port of camera c, when it is set with one (R97). -/
def State.cameraPort (s : State) (c : Nat) : Option Nat := (s.camera? c).bind (·.port)

/-- The current interrupter of IFB n, if any (R113). -/
def State.interrupter (s : State) (n : Nat) : Option Nat := (s.ifb? n).bind (·.current)

/-- R97: the talk ports of the cameras of a domain that are set with a talk port present and whose source holds RED in
that domain. -/
def State.onairPorts (s : State) (dom : Domain) : List Nat :=
  s.tou.cameras.values.filterMap fun c => if c.domain = dom ∧ (s.colours dom c.source).red then c.port else none

/-- R97: the ports that a target names, before the talker is left out. -/
def State.targetPorts (s : State) (t : Talk) : List Nat :=
  match t.target with
  | .port q => [q]
  | .group g => s.group g
  | .ifb n =>
    match s.ifb? n with
    | some i => if i.current = some t.id then [i.output] else []
    | none => []
  | .camera c => (s.cameraPort c).toList
  | .onair =>
    match t.domain with
    | some d => s.onairPorts d
    | none => []

/-- R97: the listeners of a talk: the ports of its target, none twice, without the talker port. -/
def State.listenersOf (s : State) (t : Talk) : List Nat := (asPortSet (s.targetPorts t)).filter fun q => q != t.talker

/-- R98: the listeners of the talks named resolved again. -/
def resolveAgain (named : Talk → Bool) (s : State) : State :=
  { s with tc := { s.tc with
      talks := s.tc.talks.map fun t => if named t then { t with listeners := s.listenersOf t } else t } }

/-- Whether a talk is addressed to an IFB. -/
def Talk.toIfb (t : Talk) : Bool := match t.target with | .ifb _ => true | _ => false

/-- R83: whether a target is valid. -/
def State.targetValid (s : State) : Target → Bool
  | .port q => within 1 64 q && (s.port q).role == .normal
  | .group g => within 1 16 g && !(s.group g).isEmpty
  | .ifb n => within 1 16 n && (s.ifb? n).isSome
  | .camera c => within 1 24 c && (s.cameraPort c).isSome
  | .onair => true

/-- R85: the number of cameras of a domain that are set with a talk port present. -/
def State.onairReservation (s : State) (dom : Domain) : Nat :=
  count (fun c => c.domain == dom && c.port.isSome) s.tou.cameras.values

/-- R85: the reservation of a talk. -/
def State.reservationOf (s : State) (target : Target) (talker : Nat) (dom : Option Domain) : Nat :=
  match target with
  | .group g => count (fun q => q != talker) (s.group g)
  | .onair => match dom with
    | some d => s.onairReservation d
    | none => 0
  | _ => 1

/-- R85: the total of the reservations of the talk set. -/
def totalReservations (talks : List Talk) : Nat := (talks.map (·.reservation)).sum

/-! ### IFB arbitration (R113 to R117) -/

/-- R113: the order of a pending list: priority, then talker port, then creation number. -/
def State.pendingBefore (s : State) (a b : Nat) : Bool :=
  match s.talk? a, s.talk? b with
  | some x, some y =>
    if x.priority != y.priority then decide (y.priority < x.priority)
    else if x.talker != y.talker then decide (x.talker < y.talker)
    else decide (x.creation < y.creation)
  | _, _ => false

/-- R113: a talk put in its place in a pending list. -/
def State.enterPending (s : State) (id : Nat) (pending : List Nat) : List Nat :=
  insertOrdered s.pendingBefore id pending

/-- The priority of a talk, 0 when the id is not active. -/
def State.priorityOf (s : State) (id : Nat) : Nat := ((s.talk? id).map (·.priority)).getD 0

/-- R114: whether the arbitration of an IFB accepts a talk of a priority. -/
def Ifb.accepts (i : Ifb) (priority : Nat) : Bool :=
  priority == 0 || i.current.isNone || decide (i.pending.length < Config.ifbPending)

/-- R114: the IFB after a talk of id and priority that it accepts is created. -/
def State.arbitrate (s : State) (i : Ifb) (id priority : Nat) : Ifb :=
  if priority = 0 then i
  else
    match i.current with
    | none => { i with current := some id, level := priority }
    | some cur =>
      if !i.noPreempt && decide (i.level < priority) then
        { i with current := some id, level := priority, pending := s.enterPending cur i.pending }
      else { i with pending := s.enterPending id i.pending }

/-- R115: the IFB after NO_PREEMPT goes from set to clear. -/
def State.rearbitrate (s : State) (i : Ifb) : Ifb :=
  match i.pending, i.current with
  | head :: rest, some cur =>
    if i.level < s.priorityOf head then
      { i with current := some head, level := s.priorityOf head, pending := s.enterPending cur rest }
    else i
  | _, _ => i

/-- R116: the IFB after the talks `ended` have ended.  All of them leave it before the head of the pending list is
promoted. -/
def State.withoutTalks (s : State) (ended : List Nat) (i : Ifb) : Ifb :=
  let pending := i.pending.filter fun id => !ended.contains id
  match i.current with
  | none => { i with pending := pending }
  | some cur =>
    if ended.contains cur then
      match pending with
      | [] => { i with current := none, level := 0, pending := [] }
      | head :: rest => { i with current := some head, level := s.priorityOf head, pending := rest }
    else { i with pending := pending }

/-- R117: IFB_CHANGE is raised once at an event after which the current interrupter of at least one IFB differs. -/
def announceInterrupters (before s : State) : State :=
  if (numbers 1 16).any fun n => before.interrupter n != s.interrupter n then raise .ifbChange s else s

/-! ### Creation and ending (R84 to R87) -/

/-- What an offer of a talk carries (R86).  A panel without an own port offers no talker port. -/
structure TalkOffer where
  talker   : Option Nat
  target   : Target
  level    : Int
  priority : Nat
  origin   : TalkOrigin
  domain   : Option Domain
  deriving DecidableEq, Repr

/-- R86: the reason with which an offer is refused, or none when it passes every check. -/
def State.offerRefusal (s : State) (o : TalkOffer) : Option Reason :=
  match o.talker with
  | none => some .noPort
  | some q =>
    if (s.port q).role != .normal then some .noPort
    else if !s.targetValid o.target then some .badTarget
    else if Config.talkPlaces ≤ s.tc.talks.length then some .noSpace
    else if Config.reservationTotal < totalReservations s.tc.talks + s.reservationOf o.target q o.domain then some .noSpace
    else
      match o.target with
      | .ifb n => match s.ifb? n with
        | some i => if i.accepts o.priority then none else some .noSpace
        | none => some .badTarget
      | _ => none

/-- R84: the lowest id that no active talk holds. -/
def State.freeTalkId (s : State) : Nat :=
  ((numbers 1 Config.talkPlaces).find? fun id => (s.talk? id).isNone).getD 0

/-- R84: the talks renumbered 1, 2, 3 and so on in their present order, from `next` on. -/
def renumberTalks (next : Nat) : List Talk → List Talk
  | [] => []
  | t :: ts => { t with creation := next } :: renumberTalks (next + 1) ts

/-- R84: a talk joins the talk set.  When the creation counter would pass its last number, the talks are renumbered. -/
def joinTalk (t : Talk) (s : State) : State :=
  if s.tc.counter < Config.lastNumber then
    { s with tc := { s.tc with talks := s.tc.talks ++ [t], counter := s.tc.counter + 1 } }
  else
    { s with tc := { s.tc with talks := renumberTalks 1 (s.tc.talks ++ [t]), counter := s.tc.talks.length + 2 } }

/-- R86: the record of a talk whose offer has passed. -/
def State.newTalk (s : State) (o : TalkOffer) (talker : Nat) : Talk :=
  { id := s.freeTalkId, talker := talker, target := o.target, level := o.level, priority := o.priority, origin := o.origin,
    domain := o.domain, creation := s.tc.counter, reservation := s.reservationOf o.target talker o.domain, listeners := [] }

/-- R114: a talk enters the arbitration of its IFB. -/
def enterArbitration (t : Talk) (s : State) : State :=
  match t.target with
  | .ifb n => match s.ifb? n with
    | some i => { s with tc := { s.tc with ifbs := s.tc.ifbs.put n (s.arbitrate i t.id t.priority) } }
    | none => s
  | _ => s

/-- R86: the creation of a talk whose offer has passed: it joins the talk set, enters the arbitration of its IFB, its
listeners are resolved, and the Talk Mix Engine takes all of it as one handling. -/
def createTalk (t : Talk) (s : State) : State :=
  let s1 := enterArbitration t (joinTalk t s)
  announceInterrupters s (handling s (resolveAgain (fun x => x.toIfb || x.id == t.id) s1))

/-- R87, R116: talks leave the talk set and the arbitration of their IFBs, all together.  The handling follows. -/
def removeTalks (ended : List Nat) (s : State) : State :=
  let s1 := { s with tc := { s.tc with talks := s.tc.talks.filter fun t => !ended.contains t.id } }
  resolveAgain Talk.toIfb
    { s1 with tc := { s1.tc with ifbs := s1.tc.ifbs.mapValues fun _ i => s1.withoutTalks ended i } }

/-- R87: talks end, all together, as one event.  An ending asked for a talk that is not in the talk set changes
nothing. -/
def endTalks (ended : List Nat) (s : State) : State :=
  if s.tc.talks.any fun t => ended.contains t.id then announceInterrupters s (handling s (removeTalks ended s)) else s

/-- The ids of the talks that satisfy a condition. -/
def State.talkIds (s : State) (f : Talk → Bool) : List Nat := (s.tc.talks.filter f).map (·.id)

/-- Whether a talk has origin PANEL(p). -/
def Talk.ofPanel (p : Nat) (t : Talk) : Bool := match t.origin with | .panel q _ => q == p | .system _ => false

/-- Whether a talk has panel origin. -/
def Talk.ofAnyPanel (t : Talk) : Bool := match t.origin with | .panel _ _ => true | .system _ => false

/-! ### Talk keys (R88 to R92) -/

/-- R89: a press of a key in IDLE, handed on with the function's target, mode, level and priority. -/
def pressIdle (p k : Nat) (target : Target) (mode : TalkMode) (level : Int) (priority : Nat) (s : State) : State :=
  match s.panel? p with
  | none => s
  | some v =>
    if s.inService p then
      let o : TalkOffer := ⟨v.ownPort, target, level, priority, .panel p k, some v.domain⟩
      match s.offerRefusal o, o.talker with
      | none, some q =>
        let t := s.newTalk o q
        let s1 := createTalk t s
        match mode with
        | .momentary => s1.setKey p k ⟨.held, some mode, some t.id, false⟩
        | .latching => s1.setKey p k ⟨.latched, some mode, some t.id, false⟩
        | .auto => s1.setKey p k ⟨.held, some mode, some t.id, true⟩
      | some why, _ => keyRefusal p k why (s.setKey p k ⟨.heldCancel, some mode, none, false⟩)
      | none, none => s
    else s

/-- R90, R91: a press of a key that is not IDLE. -/
def pressOwned (p k : Nat) (s : State) : State :=
  let v := s.key p k
  match v.mode, v.state with
  | some .latching, .latched => (endTalks v.talk.toList s).setKey p k ⟨.heldCancel, v.mode, none, false⟩
  | some .auto, .latched => (endTalks v.talk.toList s).setKey p k ⟨.heldCancel, v.mode, none, false⟩
  | _, _ => s

/-- R90, R91: a release of a key that is not IDLE. -/
def releaseOwned (p k : Nat) (s : State) : State :=
  let v := s.key p k
  match v.mode, v.state with
  | some .momentary, .held => (endTalks v.talk.toList s).setKey p k KeyTalk.start
  | some .momentary, .heldCancel => s.setKey p k KeyTalk.start
  | some .latching, .heldCancel => s.setKey p k KeyTalk.start
  | some .auto, .held => s.setKey p k ⟨.latched, v.mode, v.talk, false⟩
  | some .auto, .heldLong => (endTalks v.talk.toList s).setKey p k KeyTalk.start
  | some .auto, .heldCancel => s.setKey p k KeyTalk.start
  | _, _ => s

/-- R91: the AUTO timer of a key expires.  It has an effect only on a key in HELD whose timer runs. -/
def expireTimer (p k : Nat) (s : State) : State :=
  let v := s.key p k
  if v.state = .held ∧ v.timer then s.setKey p k { v with state := .heldLong, timer := false } else s

/-- R92: the key of a talk that ended by another event than its own press or release. -/
def loseTalk (p k : Nat) (s : State) : State :=
  let v := s.key p k
  match v.state with
  | .held => s.setKey p k ⟨.heldCancel, v.mode, none, false⟩
  | .heldLong => s.setKey p k ⟨.heldCancel, v.mode, none, false⟩
  | .latched => s.setKey p k KeyTalk.start
  | _ => s

/-- R95: every key talk state of panel p becomes IDLE. -/
def idleKeys (p : Nat) (s : State) : State := { s with tc := { s.tc with keys := s.tc.keys.erase p } }

/-- R96: every key talk state becomes IDLE. -/
def idleAllKeys (s : State) : State := { s with tc := { s.tc with keys := ⟨[]⟩ } }

/-- R95: panel p is lost or removed. -/
def dropPanelTalks (p : Nat) (s : State) : State := idleKeys p (endTalks (s.talkIds (Talk.ofPanel p)) s)

/-! ### Tally changes and camera changes (R98, R99) -/

/-- R98: the talks named are resolved again at a tally change, and the differences handed on together.  If no listeners
differ, nothing is handed on. -/
def resolveOnair (s : State) : State :=
  let s1 := resolveAgain (fun t => t.target == .onair) s
  if s1.tc.talks = s.tc.talks then s else handling s s1

/-- R85: the ONAIR reservations of the domains named counted again. -/
def recount (doms : List Domain) (s : State) : State :=
  { s with tc := { s.tc with talks := s.tc.talks.map fun t =>
      match t.target, t.domain with
      | .onair, some d => if doms.contains d then { t with reservation := s.onairReservation d } else t
      | _, _ => t } }

/-- Whether a talk is an ONAIR talk of one of the domains. -/
def Talk.onairOf (doms : List Domain) (t : Talk) : Bool :=
  t.target == .onair && match t.domain with | some d => doms.contains d | none => false

/-- R99: the talks that are ended, newest first, until the total is at most 512. -/
def overflowing : List Talk → Nat → List Talk
  | [], _ => []
  | t :: ts, total =>
    if total ≤ Config.reservationTotal then [] else t :: overflowing ts (total - t.reservation)

/-- R99: the key of a forced ending moves by R92, and the reason NO_SPACE is handed to the Function Dispatcher. -/
def forcedEnding (t : Talk) (s : State) : State :=
  match t.origin with
  | .panel p k => keyRefusal p k .noSpace (loseTalk p k s)
  | .system _ => s

/-- R98, R99: a camera change for camera c, whose record was of the domains `doms` before or after the write. -/
def cameraChange (c : Nat) (doms : List Domain) (s : State) : State :=
  let s1 := recount doms s
  let ended := overflowing (s1.tc.talks.reverse.filter (Talk.onairOf doms)) (totalReservations s1.tc.talks)
  let s2 := if ended.isEmpty then s1 else removeTalks (ended.map (·.id)) s1
  let s3 := resolveAgain (fun t => t.target == .camera c || t.onairOf doms) s2
  let s4 := if s3.tc.talks = s1.tc.talks then s3 else handling s s3
  ended.foldl (fun x t => forcedEnding t x) (announceInterrupters s s4)

end Sys2Proof.Machine
end

