-- ==== Sys2Proof/Machine/Lamps.lean ====
section
/-! DEFINITION. The panel lamps: what each lamp shows over the state as it stands (R174, R175), and the re-derivation that
writes the desired values (R176). -/

namespace Sys2Proof.Machine

/-- R174: whether every fitted level of a mask at destination d carries source x, and at least one level is fitted. -/
def State.carries (s : State) (d : Nat) (mask : LevelMask) (x : Nat) : Bool :=
  let fitted := mask.list.filter fun l => s.levelAt d l != .notFitted
  !fitted.isEmpty && fitted.all fun l => match s.levelAt d l with | .fitted y _ => y == x | .notFitted => true

/-- WHITE while a condition holds, OFF otherwise. -/
def whiteWhile (b : Bool) : Lamp := if b then .lit .white false else .off

/-- R174: the tally colour of a colour set, RED before AMBER before GREEN. -/
def shownColour (c : ColourSet) : Option LampColour :=
  if c.red then some .red else if c.amber then some .amber else if c.green then some .green else none

/-- R174: the PROTECT_TOGGLE lamp of panel p for destination d. -/
def State.protectLamp (s : State) (p d : Nat) : Lamp :=
  match (s.dest d).protect with
  | .none => .off
  | .panel q => if q = p then .lit .red false else .lit .amber false
  | .systemLock => .lit .amber false
  | .startupLock => .lit .amber false

/-- R174: whether the talk lamp of a talk flashes. -/
def State.talkFlashes (s : State) (t : Talk) : Bool :=
  (s.tme.paths.any fun x => !x.isAdmitted && x.talks.contains t.id) ||
    match t.target with
    | .ifb n => t.priority == 0 || match s.ifb? n with | some i => i.pending.contains t.id | none => false
    | _ => false

/-- R174: the talk lamp of a captured talk. -/
def State.talkLamp (s : State) (id : Option Nat) : Lamp :=
  match id.bind s.talk? with
  | some t => .lit .red (s.talkFlashes t)
  | none => .off

/-- R165, R174: the level check and the domain check of a function against a panel record. -/
def KeyFunction.allows (f : KeyFunction) (v : Panel) : Bool :=
  decide (v.access ≤ f.level) &&
    match f.domain with
    | .any => true
    | .a => v.domain == .a
    | .b => v.domain == .b

/-- R174: the lamp of a key by the kind of the function of its shown binding. -/
def State.functionLamp (s : State) (p k : Nat) (v : Panel) : FunctionAction → Lamp
  | .routeTake d mask x => whiteWhile (s.carries d mask x)
  | .selectDest d => whiteWhile ((s.context p).dest == some d)
  | .presetSource x =>
    match shownColour (s.colours v.domain x) with
    | some c => .lit c false
    | none => whiteWhile ((s.context p).source == some x)
  | .takePreset mask =>
    match (s.context p).dest, (s.context p).source with
    | some d, some x => whiteWhile (s.carries d mask x)
    | _, _ => .off
  | .salvoFire n => if 0 < s.pendingFirings p n then .lit .white true else .off
  | .protectToggle (some d) => s.protectLamp p d
  | .protectToggle none =>
    match (s.context p).dest with
    | some d => s.protectLamp p d
    | none => .off
  | .talk _ _ _ _ _ => .off
  | .call _ => .off
  | .pageToggle => whiteWhile v.page
  | .systemKey _ => s.hostLamp p k

/-- R174, R175: the lamp of key k of panel p, whose record is `v`. -/
def State.lampOf (s : State) (p k : Nat) (v : Panel) : Lamp :=
  match (s.key p k).state with
  | .heldCancel => .off
  | .held => s.talkLamp (s.key p k).talk
  | .heldLong => s.talkLamp (s.key p k).talk
  | .latched => s.talkLamp (s.key p k).talk
  | .idle =>
    if s.tou.holders.any fun h => h.panel == p && h.key == k then .lit .amber true
    else if s.binding p v.page k = 0 then .off
    else
      match s.function? (s.binding p v.page k) with
      | none => .off
      | some f => if f.allows v then s.functionLamp p k v f.action else .off

/-- The desired value of one key of a lamp image written. -/
def Panel.desire (v : Panel) (k : Nat) (x : Lamp) : Panel := v.setLamp k { v.lamp k with desired := x }

/-- R176: the desired values of a panel's 64 keys written with what `f` derives for each. -/
def Panel.withLamps (f : Nat → Lamp) (v : Panel) : Panel := (numbers 1 64).foldl (fun x k => x.desire k (f k)) v

/-- R176: the lamps of every declared panel re-derived.  A lamp that an event cannot change derives the value it already
holds, so re-deriving all of them writes what re-deriving those that R176 names writes (log entry 13). -/
def relamp (s : State) : State :=
  { s with pbc := { s.pbc with panels := s.pbc.panels.mapValues fun p v => v.withLamps fun k => s.lampOf p k v } }

end Sys2Proof.Machine
end

