-- ==== Sys2Proof/Machine/Operands.lean ====
section
/-! DEFINITION. The operand forms: how the payload of each request kind is decoded, and how each field of a reply is
encoded (Chapter 11).  A decoder answers `none` where the payload length is not one that the layout allows, or where a
code names no value of its field; both are answered BAD_ARG (R182, R194).  Numbers are handed on as they stand, and the
owning block judges their ranges. -/

namespace Sys2Proof.Machine

/-! ### Single fields (section 11.1) -/

/-- Yes or no; any other byte names no value. -/
def boolOf (b : Byte) : Option Bool := if b = 0 then some false else if b = 1 then some true else none

/-- A level mask; a mask with a bit above bit 3 names no value (R194). -/
def maskOf (b : Byte) : Option LevelMask :=
  if b.toNat < 16 then some ⟨b.getLsbD 0, b.getLsbD 1, b.getLsbD 2, b.getLsbD 3⟩ else none

/-- A level mask as a byte. -/
def maskByte (m : LevelMask) : Byte :=
  byte ((if m.vid then 1 else 0) + (if m.aud1 then 2 else 0) + (if m.aud2 then 4 else 0) + (if m.aux then 8 else 0))

/-- A colour set. -/
def colourSetOf (b : Byte) : Option ColourSet :=
  if b.toNat < 8 then some ⟨b.getLsbD 0, b.getLsbD 1, b.getLsbD 2⟩ else none

/-- A colour set as a byte. -/
def colourSetByte (c : ColourSet) : Byte :=
  byte ((if c.red then 1 else 0) + (if c.green then 2 else 0) + (if c.amber then 4 else 0))

/-- A level, by its position in the order VID, AUD1, AUD2, AUX (R195). -/
def levelOf (b : Byte) : Option Level := levels[b.toNat]?

/-- A level as a byte. -/
def levelByte : Level → Byte
  | .vid => 0
  | .aud1 => 1
  | .aud2 => 2
  | .aux => 3

/-- A domain where only A or B is allowed. -/
def domainOf (b : Byte) : Option Domain := if b = 0 then some .a else if b = 1 then some .b else none

/-- A domain as a byte. -/
def domainByte : Domain → Byte
  | .a => 0
  | .b => 1

/-- A destination's domain. -/
def destDomainOf (b : Byte) : Option DestDomain :=
  if b = 0 then some .a else if b = 1 then some .b else if b = 2 then some .shared else none

/-- A destination's domain as a byte. -/
def destDomainByte : DestDomain → Byte
  | .a => 0
  | .b => 1
  | .shared => 2

/-- A function's domain. -/
def functionDomainOf (b : Byte) : Option FunctionDomain :=
  if b = 0 then some .a else if b = 1 then some .b else if b = 2 then some .any else none

/-- A function's domain as a byte. -/
def functionDomainByte : FunctionDomain → Byte
  | .a => 0
  | .b => 1
  | .any => 2

/-- A tally colour, by its position in the order RED, GREEN, AMBER (R195). -/
def colourOf (b : Byte) : Option Colour :=
  if b = 0 then some .red else if b = 1 then some .green else if b = 2 then some .amber else none

/-- A tally colour as a byte. -/
def colourByte : Colour → Byte
  | .red => 0
  | .green => 1
  | .amber => 2

/-- A ceiling: 0x80 is absent. -/
def ceilingOf (b : Byte) : Option Int := if b = 0x80 then none else some (steps b)

/-- A ceiling, or a duck depth, as a byte: 0x80 stands for absent and for CUT. -/
def ceilingByte : Option Int → Byte
  | none => 0x80
  | some i => stepsByte i

/-- An optional port or output: 0 is absent. -/
def optionalOf (b : Byte) : Option Nat := if b = 0 then none else some b.toNat

/-- An optional port or output as a byte. -/
def optionalByte : Option Nat → Byte
  | none => 0
  | some n => byte n

/-- A talk target of two bytes.  Only types 1 to 6 name a target, and ONAIR has argument 0. -/
def targetOf (type arg : Byte) : Option (Target × Option Domain) :=
  match type.toNat with
  | 1 => some (.port arg.toNat, none)
  | 2 => some (.group arg.toNat, none)
  | 3 => some (.ifb arg.toNat, none)
  | 4 => some (.camera arg.toNat, none)
  | 5 => if arg = 0 then some (.onair, some .a) else none
  | 6 => if arg = 0 then some (.onair, some .b) else none
  | _ => none

/-- A talk target as two bytes; the domain tells ONAIR(A) from ONAIR(B). -/
def targetBytes (t : Target) (dom : Option Domain) : List Byte :=
  match t with
  | .port q => [1, byte q]
  | .group g => [2, byte g]
  | .ifb n => [3, byte n]
  | .camera c => [4, byte c]
  | .onair => if dom = some .b then [6, 0] else [5, 0]

/-- A panel lamp value; bits 0..2 above 4, FLASH on OFF and a bit above bit 3 name no value (R194). -/
def lampOf (b : Byte) : Option Lamp :=
  match b.toNat with
  | 0 => some .off
  | 1 => some (.lit .red false)
  | 2 => some (.lit .green false)
  | 3 => some (.lit .amber false)
  | 4 => some (.lit .white false)
  | 9 => some (.lit .red true)
  | 10 => some (.lit .green true)
  | 11 => some (.lit .amber true)
  | 12 => some (.lit .white true)
  | _ => none

/-- A lamp colour in bits 0..2 of a lamp value. -/
def LampColour.code : LampColour → Nat
  | .red => 1
  | .green => 2
  | .amber => 3
  | .white => 4

/-- A panel lamp value as a byte. -/
def lampByte : Lamp → Byte
  | .off => 0
  | .lit c flash => byte (c.code + if flash then 8 else 0)

/-- A talk key mode, by its position in the order MOMENTARY, LATCHING, AUTO. -/
def talkModeOf (b : Byte) : Option TalkMode :=
  if b = 0 then some .momentary else if b = 1 then some .latching else if b = 2 then some .auto else none

/-- A talk key mode as a byte. -/
def talkModeByte : TalkMode → Byte
  | .momentary => 0
  | .latching => 1
  | .auto => 2

/-- The flags byte of TAKE and SALVO_FIRE: bit 0 FORCE, no other bit. -/
def forceOf (b : Byte) : Option Bool := boolOf b

/-- An edge select. -/
def edgeOf (b : Byte) : Option Edge :=
  if b = 0 then some .rise else if b = 1 then some .fall else if b = 2 then some .both else none

/-- An edge select as a byte. -/
def edgeByte : Edge → Byte
  | .rise => 0
  | .fall => 1
  | .both => 2

/-- A role, by its position in the order of R79. -/
def roleOf (b : Byte) : Option Role :=
  match b.toNat with
  | 0 => some .unused
  | 1 => some .normal
  | 2 => some .ifbOutput
  | 3 => some .programInput
  | _ => none

/-- A role as a byte. -/
def roleByte : Role → Byte
  | .unused => 0
  | .normal => 1
  | .ifbOutput => 2
  | .programInput => 3

/-- A frame family, by its position in the order of R29. -/
def familyOf (b : Byte) : Option FrameFamily :=
  match b.toNat with
  | 0 => some .f25
  | 1 => some .f29_97
  | 2 => some .f50
  | 3 => some .f59_94
  | _ => none

/-- A frame family as a byte. -/
def familyByte : FrameFamily → Byte
  | .f25 => 0
  | .f29_97 => 1
  | .f50 => 2
  | .f59_94 => 3

/-- A tally output's mode, by its position in the order AUTO, FORCE_ON, FORCE_OFF. -/
def outputModeOf (b : Byte) : Option OutputMode :=
  if b = 0 then some .auto else if b = 1 then some .forceOn else if b = 2 then some .forceOff else none

/-- A panel kind, by its position in the order CONTROL, MIXER_BRIDGE. -/
def panelKindOf (b : Byte) : Option PanelKind :=
  if b = 0 then some .control else if b = 1 then some .mixerBridge else none

/-- A panel kind as a byte. -/
def panelKindByte : PanelKind → Byte
  | .control => 0
  | .mixerBridge => 1

/-- A report mode, by its position in the order AUTO, MANUAL. -/
def countModeOf (b : Byte) : Option CountMode := if b = 0 then some .auto else if b = 1 then some .manual else none

/-- A mixer's state source: 0 for SYSTEM, p for BRIDGE(p) (section 11.2). -/
def mixerSourceOf (b : Byte) : MixerSource := if b = 0 then .system else .bridge b.toNat

/-- A mixer's state source in a reply: the byte of SET_MIXER, 0 for SYSTEM and p for BRIDGE(p) (DESIGN CHOICE, log entry 28). -/
def mixerSourceByte : MixerSource → Byte
  | .system => 0
  | .bridge p => byte p

/-- A reply code as its number (section 11.3). -/
def ReplyCode.byte : ReplyCode → Byte
  | .ok => 0
  | .done => 1
  | .superseded => 2
  | .prot => 3
  | .locked => 4
  | .denied => 5
  | .busy => 6
  | .badArg => 7
  | .badTarget => 8
  | .badState => 9
  | .noSpace => 10
  | .noPort => 11
  | .noContext => 12
  | .fabricFault => 13
  | .unknown => 14

/-- A refusal reason as its position in the table of R171 (DEDUCED, log entry 9). -/
def Reason.byte : Reason → Byte
  | .unbound => 0
  | .empty => 1
  | .denied => 2
  | .noContext => 3
  | .badArg => 4
  | .prot => 5
  | .locked => 6
  | .busy => 7
  | .noPort => 8
  | .badTarget => 9
  | .noSpace => 10

/-- The reply code that carries a refusal reason to the host.  UNBOUND and EMPTY are never carried to the host. -/
def Reason.code : Reason → ReplyCode
  | .unbound => .badArg
  | .empty => .badArg
  | .denied => .denied
  | .noContext => .noContext
  | .badArg => .badArg
  | .prot => .prot
  | .locked => .locked
  | .busy => .busy
  | .noPort => .noPort
  | .badTarget => .badTarget
  | .noSpace => .noSpace

/-! ### Payloads of requests (sections 11.2 and 11.3) -/

/-- A payload of one destination or source. -/
def wordArg : List Byte → Option Nat
  | [h, l] => some (nat16 h l)
  | _ => none

/-- A payload of one byte. -/
def byteArg : List Byte → Option Nat
  | [b] => some b.toNat
  | _ => none

/-- An empty payload. -/
def noArg : List Byte → Option Unit
  | [] => some ()
  | _ => none

/-- SET_DEST_DOMAIN: destination 2, domain 1. -/
def destDomainArgs : List Byte → Option (Nat × DestDomain)
  | [h, l, b] => (destDomainOf b).map fun x => (nat16 h l, x)
  | _ => none

/-- Arguments of SET_FABRIC. -/
structure FabricArgs where
  device  : Nat
  level   : Level
  first   : Nat
  last    : Nat
  address : Nat
  deriving DecidableEq, Repr

/-- SET_FABRIC: device 1, level 1, first 2, last 2, bus address 1 (one byte: DESIGN CHOICE, log entry 31). -/
def fabricArgs : List Byte → Option FabricArgs
  | [n, l, fh, fl, eh, el, a] => (levelOf l).map fun x => ⟨n.toNat, x, nat16 fh fl, nat16 eh el, a.toNat⟩
  | _ => none

/-- The forms of GET_ROUTE (R20). -/
inductive RouteQuery where
  | dest (d : Nat)
  | device (n : Nat)
  deriving DecidableEq, Repr

/-- GET_ROUTE: form 1, then destination 2 or device 1. -/
def routeQuery : List Byte → Option RouteQuery
  | [f, a] => if f = 1 then some (.device a.toNat) else none
  | [f, h, l] => if f = 0 then some (.dest (nat16 h l)) else none
  | _ => none

/-- Arguments of TAKE.  The mask and FORCE are absent where their bytes name no value. -/
structure TakeArgs where
  dest   : Nat
  mask   : Option LevelMask
  source : Nat
  force  : Option Bool
  deriving DecidableEq, Repr

/-- TAKE: destination 2, level mask 1, source 2, flags 1. -/
def takeArgs : List Byte → Option TakeArgs
  | [dh, dl, m, sh, sl, f] => some ⟨nat16 dh dl, maskOf m, nat16 sh sl, forceOf f⟩
  | _ => none

/-- Salvo entries of five bytes: destination 2, level mask 1, source 2. -/
def salvoItems : List Byte → List (Nat × Option LevelMask × Nat)
  | dh :: dl :: m :: sh :: sl :: rest => (nat16 dh dl, maskOf m, nat16 sh sl) :: salvoItems rest
  | _ => []

/-- Pairs of two bytes: a bus and an input of MIXER_STATE, one byte each (DESIGN CHOICE, log entry 31). -/
def bytePairs : List Byte → List (Nat × Nat)
  | a :: b :: rest => (a.toNat, b.toNat) :: bytePairs rest
  | _ => []

/-- Pairs of a byte and a word: an input of SET_MIXER_MAP, one byte (DESIGN CHOICE, log entry 31), and a destination. -/
def byteWordPairs : List Byte → List (Nat × Nat)
  | a :: h :: l :: rest => (a.toNat, nat16 h l) :: byteWordPairs rest
  | _ => []

/-- A counted list of `width`-byte items: the count byte agrees with the bytes present (R194). -/
def countedBytes (width : Nat) : List Byte → Option (List Byte)
  | [] => none
  | c :: items => if items.length = width * c.toNat then some items else none

/-- SALVO_STORE: salvo 1, counted list of entries. -/
def salvoStoreArgs : List Byte → Option (Nat × List (Nat × Option LevelMask × Nat))
  | n :: rest => (countedBytes 5 rest).map fun items => (n.toNat, salvoItems items)
  | [] => none

/-- SALVO_FIRE: salvo 1, flags 1. -/
def salvoFireArgs : List Byte → Option (Nat × Option Bool)
  | [n, f] => some (n.toNat, forceOf f)
  | _ => none

/-- Arguments of SET_ROOT. -/
structure RootArgs where
  root    : Nat
  enabled : Bool
  config  : RootConfig
  deriving DecidableEq, Repr

/-- The kind of a root from its kind byte and the bytes behind it.  A DEST kind without a level is VID. -/
def rootKindOf : List Byte → Option RootKind
  | [k, a, b] =>
    if k = 0 then some (.dest (nat16 a b) .vid) else if k = 1 then some (.mixerBus a.toNat b.toNat) else none
  | [k, h, l, v] => if k = 0 then (levelOf v).map fun x => .dest (nat16 h l) x else none
  | _ => none

/-- SET_ROOT: root 1, enabled 1, domain 1, colour 1, kind 1 and the kind's arguments. -/
def rootArgs : List Byte → Option RootArgs
  | r :: e :: d :: c :: rest =>
    match boolOf e, domainOf d, colourOf c, rootKindOf rest with
    | some e, some d, some c, some k => some ⟨r.toNat, e, ⟨d, c, k⟩⟩
    | _, _, _, _ => none
  | _ => none

/-- SET_MIXER: mixer 1, source 1. -/
def mixerArgs : List Byte → Option (Nat × MixerSource)
  | [m, b] => some (m.toNat, mixerSourceOf b)
  | _ => none

/-- MIXER_STATE: mixer 1, counted list of bus 1, input 1 (one byte each: DESIGN CHOICE, log entry 31). -/
def mixerStateArgs : List Byte → Option (Nat × List (Nat × Nat))
  | m :: rest => (countedBytes 2 rest).map fun items => (m.toNat, bytePairs items)
  | [] => none

/-- SET_MIXER_MAP: mixer 1, counted list of input 1, destination 2.  NONE is the word with every bit set (DEDUCED, log
entry 9); the mixer and the input are one byte each (DESIGN CHOICE, log entry 31). -/
def mixerMapArgs : List Byte → Option (Nat × List (Nat × Option Nat))
  | m :: rest =>
    (countedBytes 3 rest).map fun items =>
      (m.toNat, (byteWordPairs items).map fun x => (x.1, if x.2 = 0xFFFF then none else some x.2))
  | [] => none

/-- SET_TIE: source 2, destination 2. -/
def tieArgs : List Byte → Option (Nat × Nat)
  | [sh, sl, dh, dl] => some (nat16 sh sl, nat16 dh dl)
  | _ => none

/-- The forms of GET_TALLY (R62). -/
inductive TallyQuery where
  | sources (first : Nat)
  | root (r : Nat)
  | mixer (m : Nat)
  | map (m : Nat)
  | ties
  deriving DecidableEq, Repr

/-- GET_TALLY: form 1, then the arguments of the form. -/
def tallyQuery : List Byte → Option TallyQuery
  | [f] => if f = 4 then some .ties else none
  | [f, a] =>
    if f = 1 then some (.root a.toNat) else if f = 2 then some (.mixer a.toNat)
    else if f = 3 then some (.map a.toNat) else none
  | [f, h, l] => if f = 0 then some (.sources (nat16 h l)) else none
  | _ => none

/-- SET_CAMERA: the camera, and its record or none for UNSET. -/
def cameraArgs : List Byte → Option (Nat × Option Camera)
  | [c] => some (c.toNat, none)
  | [c, d, sh, sl, p, o] =>
    (domainOf d).map fun x => (c.toNat, some ⟨x, nat16 sh sl, optionalOf p, optionalOf o⟩)
  | _ => none

/-- SET_OUTPUT: the output, and its configuration or none for UNSET. -/
def outputArgs : List Byte → Option (Nat × Option OutputConfig)
  | [n] => some (n.toNat, none)
  | [n, m, sh, sl, d, c, f] =>
    match outputModeOf m, domainOf d, colourSetOf c, boolOf f with
    | some m, some d, some c, some f => some (n.toNat, some ⟨m, nat16 sh sl, d, c, f⟩)
    | _, _, _, _ => none
  | _ => none

/-- SET_PORT: port 1, role 1, T 1, V 1, Dm 1, C 1, Ct 1. -/
def portArgs : List Byte → Option (Nat × Port)
  | [q, r, t, v, d, c, ct] => (roleOf r).map fun x => (q.toNat, ⟨x, steps t, steps v, steps d, ceilingOf c, ceilingOf ct⟩)
  | _ => none

/-- SET_GROUP: group 1, counted list of ports. -/
def groupArgs : List Byte → Option (Nat × List Nat)
  | g :: rest => (countedBytes 1 rest).map fun items => (g.toNat, items.map (·.toNat))
  | [] => none

/-- Arguments of TALK_ON. -/
structure TalkOnArgs where
  slot     : Nat
  talker   : Nat
  target   : Target
  domain   : Option Domain
  level    : Int
  priority : Nat
  deriving DecidableEq, Repr

/-- TALK_ON: slot 1, talker port 1, target 2, level X 1, priority 1. -/
def talkOnArgs : List Byte → Option TalkOnArgs
  | [n, q, t, a, x, p] => (targetOf t a).map fun y => ⟨n.toNat, q.toNat, y.1, y.2, steps x, p.toNat⟩
  | _ => none

/-- The forms of GET_PATHS (R100, R119). -/
inductive PathsQuery where
  | talks (first : Nat)
  | slots
  | port (q : Nat)
  | group (g : Nat)
  | keys (p : Nat)
  | listener (q first : Nat)
  | starved (first : Nat)
  | counts
  deriving DecidableEq, Repr

/-- GET_PATHS: form 1, then the arguments of the form. -/
def pathsQuery : List Byte → Option PathsQuery
  | [f] => if f = 1 then some .slots else if f = 7 then some .counts else none
  | [f, a] =>
    if f = 0 then some (.talks a.toNat) else if f = 2 then some (.port a.toNat)
    else if f = 3 then some (.group a.toNat) else if f = 4 then some (.keys a.toNat) else none
  | [f, a, b] =>
    if f = 5 then some (.listener a.toNat b.toNat) else if f = 6 then some (.starved (nat16 a b)) else none
  | _ => none

/-- Arguments of a configuring SET_IFB. -/
structure IfbArgs where
  output    : Nat
  program   : Nat
  duck      : Option Int
  noPreempt : Bool
  deriving DecidableEq, Repr

/-- SET_IFB: the IFB, and its configuration or none for UNSET. -/
def ifbArgs : List Byte → Option (Nat × Option IfbArgs)
  | [n] => some (n.toNat, none)
  | [n, o, p, d, f] => (boolOf f).map fun x => (n.toNat, some ⟨o.toNat, p.toNat, ceilingOf d, x⟩)
  | _ => none

/-- The fields that SET_PANEL writes (R134). -/
structure PanelArgs where
  kind    : PanelKind
  access  : Nat
  domain  : Domain
  ownPort : Option Nat
  deriving DecidableEq, Repr

/-- SET_PANEL: the panel, and its fields or none for UNDECLARED. -/
def panelArgs : List Byte → Option (Nat × Option PanelArgs)
  | [p] => some (p.toNat, none)
  | [p, k, l, d, q] =>
    match panelKindOf k, domainOf d with
    | some k, some d => some (p.toNat, some ⟨k, l.toNat, d, optionalOf q⟩)
    | _, _ => none
  | _ => none

/-- SET_COUNT_MODE: mode 1, threshold 1 (one byte: DESIGN CHOICE, log entry 31). -/
def countModeArgs : List Byte → Option (CountMode × Nat)
  | [m, t] => (countModeOf m).map fun x => (x, t.toNat)
  | _ => none

/-- The forms of GET_PANEL (R158, R179). -/
inductive PanelQuery where
  | panel (p : Nat)
  | function (f : Nat)
  | bindings (p page : Nat)
  | context (p : Nat)
  | lamps (p : Nat)
  deriving DecidableEq, Repr

/-- GET_PANEL: form 1, then the arguments of the form. -/
def panelQuery : List Byte → Option PanelQuery
  | [f, a] =>
    if f = 0 then some (.panel a.toNat) else if f = 3 then some (.context a.toNat)
    else if f = 4 then some (.lamps a.toNat) else none
  | [f, a, b] =>
    if f = 1 then some (.function (nat16 a b)) else if f = 2 then some (.bindings a.toNat b.toNat) else none
  | _ => none

/-- The function kind and its arguments, from the kind byte and the argument bytes (section 11.2). -/
def actionOf (kind : Byte) (args : List Byte) : Option FunctionAction :=
  match kind.toNat, args with
  | 0, [dh, dl, m, sh, sl] => (maskOf m).map fun x => .routeTake (nat16 dh dl) x (nat16 sh sl)
  | 1, [h, l] => some (.selectDest (nat16 h l))
  | 2, [h, l] => some (.presetSource (nat16 h l))
  | 3, [m] => (maskOf m).map .takePreset
  | 4, [n] => some (.salvoFire n.toNat)
  | 5, [h, l] => some (.protectToggle (if nat16 h l = 0 then none else some (nat16 h l)))
  | 6, [t, a, m, x, p] =>
    match targetOf t a, talkModeOf m with
    | some y, some m => some (.talk y.1 y.2 m (steps x) p.toNat)
    | _, _ => none
  | 7, [c] => some (.call c.toNat)
  | 8, [] => some .pageToggle
  | 9, [c] => some (.systemKey c.toNat)
  | _, _ => none

/-- SET_FUNCTION: the function, and its record or none for EMPTY. -/
def functionArgs : List Byte → Option (Nat × Option KeyFunction)
  | [h, l] => some (nat16 h l, none)
  | h :: l :: k :: rest =>
    match rest.drop (rest.length - 2) with
    | [v, d] =>
      match actionOf k (rest.take (rest.length - 2)), functionDomainOf d with
      | some a, some d => some (nat16 h l, some ⟨a, v.toNat, d⟩)
      | _, _ => none
    | _ => none
  | _ => none

/-- SET_BINDING: panel 1, page 1 (one byte: DESIGN CHOICE, log entry 31), key 1, function 2. -/
def bindingArgs : List Byte → Option (Nat × Nat × Nat × Nat)
  | [p, g, k, h, l] => some (p.toNat, g.toNat, k.toNat, nat16 h l)
  | _ => none

/-- SET_LAMP: panel 1, key 1, lamp value 1. -/
def lampArgs : List Byte → Option (Nat × Nat × Lamp)
  | [p, k, v] => (lampOf v).map fun x => (p.toNat, k.toNat, x)
  | _ => none

/-- SET_EVENTS: enables 2, edge selects 5 for flags 1, 3, 4, 9, 11.  An enable of a flag above 13 names no flag. -/
def eventsArgs : List Byte → Option (BitVec 16 × EdgeSelects)
  | [h, l, a, b, c, d, e] =>
    if nat16 h l < 16384 then
      match edgeOf a, edgeOf b, edgeOf c, edgeOf d, edgeOf e with
      | some a, some b, some c, some d, some e => some (BitVec.ofNat 16 (nat16 h l), ⟨a, b, c, d, e⟩)
      | _, _, _, _, _ => none
    else none
  | _ => none

/-! ### Fields of replies (R196) -/

/-- A number of one byte, or every bit set where it is absent. -/
def optByte : Option Nat → Byte
  | none => allOnes
  | some n => byte n

/-- A number of two bytes, or every bit set where it is absent. -/
def optWord : Option Nat → List Byte
  | none => [allOnes, allOnes]
  | some n => be16 n

/-- A protect state: its position in the order of R1, then the panel of PANEL(p). -/
def protectBytes : Protect → List Byte
  | .none => [0]
  | .panel p => [1, byte p]
  | .systemLock => [2]
  | .startupLock => [3]

/-- A device's state, UNMAPPED for none, by its position in the order of R11. -/
def phaseByte : Option DevicePhase → Byte
  | none => 0
  | some (.readback _ _) => 1
  | some .online => 2
  | some .failed => 3

/-- The fields of a root's configuration: domain, colour and kind, each with every bit set where the root has none. -/
def rootConfigBytes : Option RootConfig → List Byte
  | none => [allOnes, allOnes, allOnes]
  | some c =>
    [domainByte c.domain, colourByte c.colour] ++
      match c.kind with
      | .dest d l => [0] ++ be16 d ++ [levelByte l]
      | .mixerBus m b => [1, byte m, byte b]

/-- A last result: its position in the order of R43, then the source of TERMINAL(s). -/
def traceResultBytes : TraceResult → List Byte
  | .terminal x => [0] ++ be16 x
  | .noTerminal => [1]
  | .fault => [2]

/-- A trace fault record: the reason and the destination, or every bit set for a clear one. -/
def traceFaultBytes : Option TraceFault → List Byte
  | none => [allOnes, allOnes, allOnes]
  | some f => (match f.reason with | .loop => (0 : Byte) | .depth => 1) :: be16 f.dest

/-- A drive, by its position in the order of R66. -/
def driveByte : Drive → Byte
  | .off => 0
  | .on => 1
  | .flash => 2

/-- A fault state, by its position in the order of R66. -/
def lampFaultByte : LampFaultState → Byte
  | .ok => 0
  | .openLoad => 1
  | .short => 2

/-- The fields of a port record (R79). -/
def portBytes (p : Port) : List Byte :=
  [roleByte p.role, stepsByte p.trim, stepsByte p.volume, stepsByte p.dim, ceilingByte p.ceiling,
    ceilingByte p.talkerCeiling]

/-- The origin of a talk: the panel and the key, or 0 and the slot (section 11.1). -/
def talkOriginBytes : TalkOrigin → List Byte
  | .panel p k => [byte p, byte k]
  | .system n => [0, byte n]

/-- A talk record, in the order of R84. -/
def talkBytes (t : Talk) : List Byte :=
  [byte t.id, byte t.talker] ++ targetBytes t.target t.domain ++ [stepsByte t.level, byte t.priority] ++
    talkOriginBytes t.origin ++ [(match t.domain with | none => allOnes | some d => domainByte d)] ++
    be32 t.creation ++ [byte t.reservation]

/-- A key talk state, by its position in the order of R88. -/
def keyStateByte : KeyState → Byte
  | .idle => 0
  | .held => 1
  | .heldLong => 2
  | .latched => 3
  | .heldCancel => 4

/-- A key's talk state, its captured mode while it is not IDLE, and its captured talk while it holds one. -/
def keyTalkBytes (k : KeyTalk) : List Byte :=
  keyStateByte k.state ::
    ((match k.mode with | none => [] | some m => [talkModeByte m]) ++
      (match k.talk with | none => [] | some id => [byte id]))

/-- A coefficient: signed steps of two bytes, OFF 0x8000 (section 11.1). -/
def coefficientBytes : Coefficient → List Byte
  | .off => [0x80, 0x00]
  | .steps k => steps16 k

/-- A panel's state, by its position in the order of R133. -/
def panelStateByte : PanelState → Byte
  | .absent => 0
  | .joining => 1
  | .online => 2
  | .degraded => 3
  | .lost => 4

/-- An error kind, by its position in the order of R133. -/
def errorKindByte : ErrorKind → Byte
  | .none => 0
  | .crc => 1
  | .framing => 2
  | .timeout => 3
  | .wrongAddress => 4
  | .wrongKind => 5

/-- A last-refusal record: the key and the reason, or every bit set for a clear one. -/
def lastRefusalBytes : Option (Nat × Reason) → List Byte
  | none => [allOnes, allOnes]
  | some r => [byte r.1, r.2.byte]

/-- The kind and the arguments of a function, as SET_FUNCTION carries them. -/
def actionBytes : FunctionAction → List Byte
  | .routeTake d m x => [0] ++ be16 d ++ [maskByte m] ++ be16 x
  | .selectDest d => [1] ++ be16 d
  | .presetSource x => [2] ++ be16 x
  | .takePreset m => [3, maskByte m]
  | .salvoFire n => [4, byte n]
  | .protectToggle d => [5] ++ be16 (d.getD 0)
  | .talk t dom m x p => [6] ++ targetBytes t dom ++ [talkModeByte m, stepsByte x, byte p]
  | .call c => [7, byte c]
  | .pageToggle => [8]
  | .systemKey c => [9, byte c]

/-- A held-key record: 0 when it is empty, 1 and the camera of a call, 2 and the code of a system key (DEDUCED, log
entry 9). -/
def heldBytes : Option Held → List Byte
  | none => [0]
  | some (.call c) => [1, byte c]
  | some (.systemKey c) => [2, byte c]

/-- The five edge selects, as SET_EVENTS carries them. -/
def edgesBytes (e : EdgeSelects) : List Byte :=
  [edgeByte e.panelErrors, edgeByte e.refLost, edgeByte e.lampFault, edgeByte e.pathStarved, edgeByte e.fabricFault]

/-- The five counts of a firing, in the order of section 11.3. -/
def countsBytes (c : Counts) : List Byte :=
  [byte c.applied, byte c.refusedAcceptance, byte c.refusedWindow, byte c.superseded, byte c.fabricFault]

end Sys2Proof.Machine
end

