-- ==== Sys2Proof/Machine/Link.lean ====
section
/-! DEFINITION. The Host Link Controller's queues (Chapter 10): how a frame is received (R180 to R182), how a request
takes its place and its turn (R183, R184), how replies and deferred replies are issued (R185), and how transmission
begins (R186, R188). -/

namespace Sys2Proof.Machine

/-! ### The outbound queue -/

/-- The reply to a request, issued at its execution (R185): its tag, the code, and the data.  The request keeps its place
until the transmission of this reply begins (R183). -/
def answerData (r : Request) (code : ReplyCode) (data : List Byte) (s : State) : State :=
  queueMessage { cls := .reply, tag := r.tag, payload := code.byte :: data }
    { s with hlc := { s.hlc with executed := s.hlc.executed ++ [r] } }

/-- A reply of a code without data. -/
def answer (r : Request) (code : ReplyCode) (s : State) : State := answerData r code [] s

/-- R185: a TAKE or SALVO_FIRE is accepted with its reply deferred.  The count of owed replies rises, and the request
gives up its place at the end of its execution (R183). -/
def deferReply (s : State) : State := { s with hlc := { s.hlc with owed := s.hlc.owed + 1 } }

/-- R185: a deferred reply is queued at the event that issues it. -/
def issueDeferred (tag : Byte) (code : ReplyCode) (data : List Byte) (s : State) : State :=
  queueMessage { cls := .deferred, tag := tag, payload := code.byte :: data } s

/-- R186, R188: what the start of transmission of a message does.  A reply frees the place of its request (R183), which is
the oldest executed one; a deferred reply lowers the owed count (R185); an EVENT_FLAGS message takes the set flags. -/
def startMessage (m : Message) (h : HostLink) : HostLink :=
  match m.cls with
  | .reply => { h with executed := h.executed.drop 1, sending := some m }
  | .restartReply => { h with sending := some m }
  | .deferred => { h with owed := h.owed - 1, sending := some m }
  | .overflow => { h with sending := some m }
  | .eventFlags => { h with set := 0, sending := some { m with payload := be16 h.set.toNat } }

/-- R186: when the link is idle and the outbound queue holds a message, the transmission of the oldest begins and the
message leaves the queue. -/
def transmit (s : State) : State :=
  match s.hlc.sending, s.hlc.outbound with
  | none, m :: rest => { s with hlc := startMessage m { s.hlc with outbound := rest } }
  | _, _ => s

/-- The kind of a message on the line (R195): 0x01 for a reply, 0x02 for EVENT_FLAGS. -/
def MessageClass.kind : MessageClass → Byte
  | .eventFlags => 0x02
  | _ => 0x01

/-- R180, section 11.2: the host frame of a kind, a tag and a payload. -/
def hostFrame (kind tag : Byte) (payload : List Byte) : List Byte :=
  0xC3 :: withCrc (byte payload.length :: kind :: tag :: payload)

/-- The frame that carries a message. -/
def Message.frame (m : Message) : List Byte := hostFrame m.cls.kind m.tag m.payload

/-! ### The request queue -/

/-- R183: whether the request queue has a free place. -/
def State.requestRoom (s : State) : Bool :=
  decide (s.hlc.executed.length + s.hlc.waiting.length < Config.requestPlaces)

/-- R184: overflow replies that wait in the outbound queue. -/
def State.overflowWaiting (s : State) : Nat := count (fun m => m.cls == .overflow) s.hlc.outbound

/-- R182 to R184: a good frame is offered to the request queue.  With all places taken it is answered BUSY by an overflow
reply, or dropped with HOST_FRAME_ERROR while 7 overflow replies wait. -/
def offerRequest (r : Request) (s : State) : State :=
  if s.requestRoom then { s with hlc := { s.hlc with waiting := s.hlc.waiting ++ [r] } }
  else if s.overflowWaiting < Config.overflowPlaces then
    queueMessage { cls := .overflow, tag := r.tag, payload := [ReplyCode.busy.byte] } s
  else raise .hostFrameError s

/-- R183: the state in which it is the turn of request `r` to be executed, taken from the requests that wait.  The oldest
request not yet executed has the turn.  When none waits, the command brings the request itself: it arrives as a good
frame, takes a place and is executed at once (DESIGN CHOICE, log entry 3).  Otherwise it is not its turn. -/
def turn? (r : Request) (s : State) : Option State :=
  match s.hlc.waiting with
  | [] => if s.requestRoom then some s else none
  | q :: rest => if q = r then some { s with hlc := { s.hlc with waiting := rest } } else none

/-- The execution of a request in its turn (R183).  A request whose turn it is not is offered to the request queue, as a
good frame is, and waits (log entry 3).  A message queued on an idle link begins at once (R186). -/
def request (r : Request) (body : State → State) (s : State) : State :=
  match turn? r s with
  | some s1 => transmit (body s1)
  | none => transmit (offerRequest r s)

/-- The execution of a request whose payload `decode` reads: a payload that it does not read is answered BAD_ARG and no
block is reached (R182, R194). -/
def requestOf {α : Type} (kind tag : Byte) (payload : List Byte) (decode : List Byte → Option α)
    (body : Request → α → State → State) (s : State) : State :=
  request ⟨kind, tag, payload⟩
    (fun s1 =>
      match decode payload with
      | some a => body ⟨kind, tag, payload⟩ a s1
      | none => answer ⟨kind, tag, payload⟩ .badArg s1) s

/-- R195: the request kinds. -/
def requestKinds : List Nat :=
  [0x10, 0x11, 0x12, 0x13, 0x14, 0x15, 0x16, 0x17, 0x20, 0x21, 0x22, 0x23, 0x30, 0x31, 0x32, 0x33, 0x34, 0x35, 0x36,
    0x40, 0x41, 0x42, 0x50, 0x51, 0x52, 0x53, 0x54, 0x60, 0x61, 0x80, 0x81, 0x82, 0x83, 0x84, 0x90, 0x91, 0x92, 0x93,
    0xA0, 0xA1, 0xA2, 0xA3]

/-- Whether a kind is a request kind (R182, R195). -/
def isRequestKind (kind : Byte) : Bool := requestKinds.contains kind.toNat

/-! ### The receiver -/

/-- What the receiver does with the bytes it holds (R181). -/
inductive Judgement where
  /-- No start byte: the receiver hunts and holds nothing. -/
  | hunting
  /-- A frame is being collected and is not complete. -/
  | collecting (held : List Byte)
  /-- The frame is dropped; the receiver resumes with the byte after its start byte. -/
  | dropped (rest : List Byte)
  /-- A good frame; the receiver resumes with the byte after its CRC. -/
  | good (r : Request) (rest : List Byte)
  deriving DecidableEq, Repr

/-- R181: the bytes from the first start byte on. -/
def fromStart : List Byte → List Byte
  | [] => []
  | b :: rest => if b = 0xC3 then b :: rest else fromStart rest

/-- R181: the judgement of the bytes that the receiver holds. -/
def judgeBytes (bytes : List Byte) : Judgement :=
  match fromStart bytes with
  | [] => .hunting
  | start :: body =>
    match body with
    | [] => .collecting [start]
    | len :: _ =>
      if 240 < len.toNat then .dropped body
      else if body.length < len.toNat + 5 then .collecting (start :: body)
      else
        let frame := body.take (len.toNat + 5)
        if crcChecks frame then
          match frame with
          | _ :: kind :: tag :: payload => .good ⟨kind, tag, payload.take len.toNat⟩ (body.drop (len.toNat + 5))
          | _ => .dropped body
        else .dropped body

/-- R181: the receiver judges the bytes it holds until it hunts or collects.  Every judgement shortens them, so their
number bounds the judgements (`fuel`). -/
def receiveBytes : Nat → List Byte → State → State
  | 0, bytes, s => { s with hlc := { s.hlc with collected := bytes } }
  | fuel + 1, bytes, s =>
    match judgeBytes bytes with
    | .hunting => { s with hlc := { s.hlc with collected := [] } }
    | .collecting held => { s with hlc := { s.hlc with collected := held } }
    | .dropped rest => receiveBytes fuel rest (raise .hostFrameError s)
    | .good r rest => receiveBytes fuel rest (offerRequest r s)

/-- R181: bytes arrive on the line. -/
def receive (bytes : List Byte) (s : State) : State :=
  receiveBytes (s.hlc.collected.length + bytes.length + 1) (s.hlc.collected ++ bytes) s

/-- R181: the partial frame being collected is dropped, and the receiver resumes with the byte after its start byte.  A
further incomplete frame among the held bytes goes on being collected, until 10 ms more have passed without a byte (DESIGN
CHOICE, log entry 30). -/
def dropPartial (s : State) : State :=
  match s.hlc.collected with
  | [] => s
  | _ :: rest => receiveBytes (rest.length + 1) rest (raise .hostFrameError s)

end Sys2Proof.Machine
end

