-- ==== Sys2Proof/Machine/Drive.lean ====
section
/-! DEFINITION. The Tally Output Unit: the drive rule (R68, R69), calls (R70 to R72) and the lamp fault monitor (R73 to
R77). -/

namespace Sys2Proof.Machine

/-- R68: whether a camera calls output n. -/
def State.calls (s : State) (n c : Nat) : Bool :=
  match s.camera? c with
  | none => false
  | some v => v.output == some n && decide (0 < s.callCount c) && !(s.colours v.domain v.source).red

/-- R68: the drive of output n, over the state as it stands. -/
def State.driveOf (s : State) (n : Nat) : Drive :=
  match (s.output n).config with
  | none => .off
  | some v =>
    if (s.output n).fault = .short then .off
    else if (numbers 1 24).any (s.calls n) then .flash
    else
      match v.mode with
      | .forceOn => .on
      | .forceOff => .off
      | .auto => if (s.colours v.domain v.source).meets v.mask then .on else .off

/-- R69: the drive of every output re-evaluated. -/
def driveAll (s : State) : State :=
  { s with tou := { s.tou with outputs := s.tou.outputs.mapValues fun n v => { v with drive := s.driveOf n } } }

/-- R66: whether an output is lit. -/
def State.isLit (s : State) (n : Nat) : Bool :=
  match (s.output n).drive with
  | .off => false
  | .on => true
  | .flash => s.tou.flashLit

/-- R73, R74, R76: whether the sense of an output is in use: set, its monitor enabled, and lit. -/
def State.sensed (s : State) (n : Nat) : Bool :=
  match (s.output n).config with
  | none => false
  | some v => v.monitor && s.isLit n

/-- R77: LAMP_FAULT is re-evaluated and a change handed over. -/
def evaluateLampFault (s : State) : State :=
  let now := s.tou.outputs.values.any fun v => v.fault != .ok
  handOver .lampFault s.tou.lampFault now { s with tou := { s.tou with lampFault := now } }

/-- A fault state written, with the re-evaluations of R69 and R77. -/
def setFault (n : Nat) (f : LampFaultState) (s : State) : State :=
  evaluateLampFault (driveAll (s.setOutput n { s.output n with fault := f }))

/-- R73: a load sample acts on the fault state of output n. -/
def takeSample (n : Nat) (current : Bool) (s : State) : State :=
  if s.sensed n then
    match (s.output n).fault, current with
    | .ok, false => setFault n .openLoad s
    | .openLoad, true => setFault n .ok s
    | _, _ => s
  else s

/-- R74: an overcurrent detection on output n. -/
def takeOvercurrent (n : Nat) (s : State) : State :=
  if s.sensed n then setFault n .short s else s

/-- R67, R76: the fault state of an output after an accepted SET_OUTPUT that leaves it with configuration `v`. -/
def faultAfter (old : Output) (v : Option OutputConfig) : LampFaultState :=
  match old.config, v with
  | some o, some n => if o.monitor && n.monitor then old.fault else .ok
  | _, _ => .ok

/-- R67: an accepted SET_OUTPUT. -/
def writeOutput (n : Nat) (v : Option OutputConfig) (s : State) : State :=
  let old := s.output n
  evaluateLampFault (driveAll (s.setOutput n
    { config := v, drive := if v.isNone then .off else old.drive, fault := faultAfter old v }))

/-- The call holder list written, with the re-evaluation of R69. -/
def setHolders (holders : List CallEntry) (s : State) : State :=
  driveAll { s with tou := { s.tou with holders := holders } }

/-- Whether an entry of the call holder list is of a key. -/
def CallEntry.ofKey (p k : Nat) (h : CallEntry) : Bool := h.panel == p && h.key == k

/-- R70: a call press, from a panel that is in service. -/
def callPress (p k c : Nat) (s : State) : State :=
  if !s.inService p then s
  else if s.tou.holders.any (CallEntry.ofKey p k) then s
  else if Config.callPlaces ≤ s.tou.holders.length then keyRefusal p k .noSpace s
  else setHolders (s.tou.holders ++ [⟨p, k, c⟩]) s

/-- R71: a call release acts on the key. -/
def callRelease (p k : Nat) (s : State) : State :=
  if s.tou.holders.any (CallEntry.ofKey p k) then
    setHolders (s.tou.holders.filter fun h => !h.ofKey p k) s
  else s

/-- R72: the calls of panel p are dropped, all together. -/
def dropPanelCalls (p : Nat) (s : State) : State :=
  if s.tou.holders.any fun h => h.panel == p then setHolders (s.tou.holders.filter fun h => h.panel != p) s else s

/-- R72: every call is dropped. -/
def dropAllCalls (s : State) : State := if s.tou.holders.isEmpty then s else setHolders [] s

end Sys2Proof.Machine
end

