-- ==== Sys2Proof/Machine/Trace.lean ====
section
/-! DEFINITION. The Tally Tracer: the trace of a root (R52 to R54), the recomputation of the source colour table (R57,
R58) with the flags and the signal that follow it (R56, R61), and the marking of stale buses (R48, R49). -/

namespace Sys2Proof.Machine

/-- How a trace ends (section 3.4). -/
inductive TraceEnd where
  | terminal (source : Nat)
  | noTerminal
  | fault (reason : TraceReason) (dest : Nat)
  deriving DecidableEq, Repr

/-- R53, R54: the trace from the current point (d, l), with the destinations visited before it and the tie hops that may
still be taken. -/
def State.traceFrom (s : State) (l : Level) : Nat → List Nat → Nat → TraceEnd
  | hops, visited, d =>
    match s.levelAt d l with
    | .notFitted => .noTerminal
    | .fitted x _ =>
      if x = 0 then .noTerminal
      else
        match s.tie? x with
        | none => .terminal x
        | some d2 =>
          if (d :: visited).contains d2 then .fault .loop d
          else
            match hops with
            | 0 => .fault .depth d
            | n + 1 => s.traceFrom l n (d :: visited) d2

/-- R52: the trace of a root's kind. -/
def State.trace (s : State) : RootKind → TraceEnd
  | .dest d l => s.traceFrom l Config.tieHops [] d
  | .mixerBus m b =>
    let i := ((s.mixer m).bus b).selection
    if i = 0 then .noTerminal
    else
      match s.mapEntry m i with
      | none => .noTerminal
      | some d => s.traceFrom .vid Config.tieHops [] d

/-- R43, R58: the trace of a root record; a root that is disabled is not traced. -/
def State.traceRoot (s : State) (r : Root) : Option TraceEnd :=
  if r.enabled then r.config.map fun c => s.trace c.kind else none

/-- R43, R55: a root record after its trace. -/
def Root.after (r : Root) (e : Option TraceEnd) : Root :=
  match e with
  | some (.terminal x) => { r with last := .terminal x, fault := none }
  | some (.fault why d) => { r with last := .fault, fault := some ⟨why, d⟩ }
  | some .noTerminal => { r with last := .noTerminal, fault := none }
  | none => { r with last := .noTerminal, fault := none }

/-- R57: a root's colour added to the set of its terminal, in the domain asked for. -/
def addRoot (s : State) (dom : Domain) (t : Table ColourSet) (r : Root) : Table ColourSet :=
  match s.traceRoot r, r.config with
  | some (.terminal x), some c =>
    if c.domain = dom then t.set ColourSet.none x ((t.get ColourSet.none x).add c.colour) else t
  | _, _ => t

/-- R57, R58: the source colour table of a domain built anew from empty sets. -/
def State.buildColours (s : State) (dom : Domain) : Table ColourSet := s.tt.roots.values.foldl (addRoot s dom) ⟨[]⟩

/-- R61: whether at least one colour set differs between two tables. -/
def coloursDiffer (old new : Table ColourSet) : Bool :=
  (old.keys ++ new.keys).any fun x => old.get ColourSet.none x != new.get ColourSet.none x

/-- R56: whether at least one trace fault record changed to a fault value. -/
def newFault (old new : Table Root) : Bool :=
  new.entries.any fun e => e.2.fault.isSome && e.2.fault != (old.get Root.start e.1).fault

/-- R58: the root records and the source colour table after a recomputation. -/
def retrace (s : State) : State :=
  { s with tt := { s.tt with
      roots := s.tt.roots.mapValues fun _ r => r.after (s.traceRoot r)
      coloursA := s.buildColours .a
      coloursB := s.buildColours .b } }

/-- R61: a tally change reaches the Tally Output Unit and the Talk Controller. -/
def tallyChange (s : State) : State := resolveOnair (driveAll s)

/-- R56, R58, R61: one recomputation of the source colour table. -/
def recomputeTally (s : State) : State :=
  let s1 := retrace s
  let s2 := if newFault s.tt.roots s1.tt.roots then raise .traceFault s1 else s1
  if coloursDiffer s.tt.coloursA s1.tt.coloursA || coloursDiffer s.tt.coloursB s1.tt.coloursB then
    tallyChange (raise .tallyChange s2)
  else s2

/-- Every bus of a mixer marked stale (R46, R49). -/
def Mixer.allStale (m : Mixer) : Mixer :=
  (numbers 1 8).foldl (fun x b => x.setBus b { x.bus b with stale := true }) m

/-- R49: every bus of the mixer whose declared state source is BRIDGE(p) is marked stale. -/
def staleBridge (p : Nat) (s : State) : State :=
  (numbers 1 2).foldl (fun x m => if (x.mixer m).source = .bridge p then x.setMixer m (x.mixer m).allStale else x) s

/-- R49: RESTART(PANELS) marks stale every bus of each mixer whose source is a bridge. -/
def staleAllBridges (s : State) : State :=
  (numbers 1 2).foldl (fun x m => if (x.mixer m).source = .system then x else x.setMixer m (x.mixer m).allStale) s

/-- R48: a bus-state event of panel p is applied or discarded. -/
def applyBusState (p bus input : Nat) (s : State) : State :=
  match (numbers 1 2).find? fun m => (s.mixer m).source == .bridge p with
  | none => s
  | some m =>
    if s.inService p && within 1 8 bus && within 0 48 input then
      recomputeTally (s.setMixer m ((s.mixer m).setBus bus { selection := input, stale := false }))
    else s

end Sys2Proof.Machine
end

