-- ==== Sys2Proof/Machine/Router.lean ====
section
/-! DEFINITION. The Route Controller: domains, permission and the protect toggle (R4 to R6), fitted levels and the fabric
device table (R12 to R18), the acceptance of takes with supersession (R22 to R25), salvo firings (R27, R28), and the
switch window (R34 to R41). -/

namespace Sys2Proof.Machine

/-! ### Domains and permission -/

/-- R4: the domain check of an origin against destination d.  A panel that is not in the panel table fails it (R35). -/
def State.domainPasses (s : State) (o : Origin) (d : Nat) : Bool :=
  match o with
  | .system _ => true
  | .panel p _ =>
    match s.panel? p with
    | none => false
    | some v =>
      match (s.dest d).domain with
      | .shared => true
      | .a => v.domain == .a
      | .b => v.domain == .b

/-- R5: the permission table.  The reason with which an origin is refused, or none when it is permitted. -/
def permission (state : Protect) (o : Origin) (force : Bool) : Option Reason :=
  match state, o with
  | .none, _ => none
  | .panel p, .panel q _ => if p = q then none else some .prot
  | .panel _, .system _ => if force then none else some .prot
  | .systemLock, .panel _ _ => some .locked
  | .systemLock, .system _ => none
  | .startupLock, .panel _ _ => some .locked
  | .startupLock, .system _ => none

/-- R6: a PROTECT_TOGGLE of panel p for destination d: the protect state it gives, or the reason of its refusal. -/
def State.toggled (s : State) (p d : Nat) : Except Reason Protect :=
  if s.domainPasses (.panel p 0) d then
    match (s.dest d).protect with
    | .none => .ok (.panel p)
    | .panel q => if q = p then .ok .none else .error .prot
    | .systemLock => .error .locked
    | .startupLock => .error .locked
  else .error .denied

/-- The protect state of a destination of a destination table rewritten by `f`. -/
def reprotect (f : Protect → Protect) (t : Table Destination) (d : Nat) : Table Destination :=
  let v := t.get Destination.start d
  t.set Destination.start d { v with protect := f v.protect }

/-- The protect state of every destination rewritten by `f`, all at once. -/
def rewriteProtects (f : Protect → Protect) (s : State) : State :=
  { s with rc := { s.rc with dests := (numbers 1 256).foldl (reprotect f) s.rc.dests } }

/-- R8: what PROTECT_ALL makes of a protect state. -/
def lockedBy (_ : Protect) : Protect := .systemLock

/-- R8: what RELEASE_ALL makes of a protect state. -/
def releasedBy : Protect → Protect
  | .systemLock => .none
  | .startupLock => .none
  | p => p

/-- R9: what the removal of panel p makes of a protect state. -/
def withoutPanel (p : Nat) (x : Protect) : Protect := if x = .panel p then .none else x

/-! ### Fabric devices (R11 to R18) -/

/-- R12: whether a mapped device covers level `l` of destination d. -/
def Device.covers (v : Device) (d : Nat) (l : Level) : Bool :=
  v.level == l && decide (v.first ≤ d) && decide (d ≤ v.last)

/-- R12: the device of a destination level, with its number, if the level is fitted. -/
def State.deviceOf? (s : State) (d : Nat) (l : Level) : Option (Nat × Device) :=
  s.rc.devices.entries.find? fun e => e.2.covers d l

/-- Whether a device is in READBACK. -/
def Device.inReadback (v : Device) : Bool := match v.phase with | .readback _ _ => true | _ => false

/-- Whether the device of a destination level is in READBACK. -/
def State.readbackAt (s : State) (d : Nat) (l : Level) : Bool :=
  match s.deviceOf? d l with
  | some e => e.2.inReadback
  | none => false

/-- Whether the device of a destination level is ONLINE. -/
def State.onlineAt (s : State) (d : Nat) (l : Level) : Bool :=
  match s.deviceOf? d l with
  | some e => e.2.phase == .online
  | none => false

/-- The number of the device of a destination level, 0 where there is none. -/
def State.deviceNumber (s : State) (d : Nat) (l : Level) : Nat :=
  match s.deviceOf? d l with
  | some e => e.1
  | none => 0

/-- R12: a mask without the levels that are not fitted at destination d. -/
def State.trimmed (s : State) (d : Nat) (mask : LevelMask) : LevelMask :=
  mask.keep fun l => (s.deviceOf? d l).isSome

/-- R11 check 3: whether a mapped record of the level covers any destination of first..last. -/
def State.rangeTaken (s : State) (l : Level) (first last : Nat) : Bool :=
  s.rc.devices.values.any fun v => v.level == l && decide (v.first ≤ last) && decide (first ≤ v.last)

/-- R11 check 4: whether a mapped record has the bus address. -/
def State.addressTaken (s : State) (address : Nat) : Bool := s.rc.devices.values.any fun v => v.address == address

/-- R18: FABRIC_FAULT is re-evaluated and a change handed over. -/
def evaluateFabric (s : State) : State :=
  let faulted (v : Destination) : Bool :=
    levels.any fun l => match v.levels.get l with | .fitted _ f => f | .notFitted => false
  let now := (s.rc.devices.values.any fun v => v.phase == .failed) || s.rc.dests.values.any faulted
  handOver .fabricFault s.rc.fabricFault now { s with rc := { s.rc with fabricFault := now } }

/-- R1: a route change reaches the Tally Tracer, which recomputes (R58), and the Function Dispatcher, which re-derives the
lamps (R176). -/
def routeChange (s : State) : State := relamp (recomputeTally s)

/-- Level `l` of the destinations from d on written with a list of values. -/
def writeLevels (l : Level) : Nat → List LevelState → State → State
  | _, [], s => s
  | d, v :: vs, s => writeLevels l (d + 1) vs (s.setLevel d l v)

/-- The number of destinations of a device's range. -/
def Device.width (v : Device) : Nat := v.last + 1 - v.first

/-- R11, R13: an accepted SET_FABRIC.  The range becomes fitted at source 0 and the start-up readback begins. -/
def mapDevice (n : Nat) (a : FabricArgs) (s : State) : State :=
  let v : Device := ⟨a.level, a.first, a.last, a.address, .readback .startUp true⟩
  (writeLevels a.level a.first (List.replicate v.width (.fitted 0 false)) s).setDevice n v

/-- R13, R18: an accepted FABRIC_RETRY.  The exchange begins at once, or at the close of the open window. -/
def retryDevice (n : Nat) (v : Device) (s : State) : State :=
  evaluateFabric (s.setDevice n { v with phase := .readback .retry s.rc.window.isNone })

/-- R16: READBACK_DONE at the ending of a readback of `kind`, when no other start-up readback is in flight. -/
def readbackDone (kind : ReadbackKind) (s : State) : State :=
  let inFlight := s.rc.devices.values.any fun v =>
    match v.phase with
    | .readback .startUp _ => true
    | _ => false
  if kind = .startUp ∧ inFlight = false then raise .readbackDone s else s

/-- R14: the level value that a returned source gives. -/
def readLevel (x : Nat) : LevelState := if within 0 256 x then .fitted x false else .fitted 0 true

/-- R14 to R16: the ending of the readback of device n, which writes its range and leaves it in `phase`. -/
def endReadback (n : Nat) (v : Device) (kind : ReadbackKind) (phase : DevicePhase) (range : List LevelState)
    (s : State) : State :=
  let s1 := (writeLevels v.level v.first range s).setDevice n { v with phase := phase }
  routeChange (evaluateFabric (readbackDone kind s1))

/-- R14: a readback completion.  An answer that does not belong to an exchange in flight, or that is not for the whole
range, completes nothing (R15, R19). -/
def completeReadback (n : Nat) (sources : List Nat) (s : State) : State :=
  match s.device? n with
  | none => s
  | some v =>
    match v.phase with
    | .readback kind true =>
      if sources.length = v.width then endReadback n v kind .online (sources.map readLevel) s else s
    | _ => s

/-- R15: a readback failure. -/
def failReadback (n : Nat) (s : State) : State :=
  match s.device? n with
  | none => s
  | some v =>
    match v.phase with
    | .readback kind true => endReadback n v kind .failed (List.replicate v.width (.fitted 0 true)) s
    | _ => s

/-! ### The take queue (R22 to R25) -/

/-- R23: entries that are pending. -/
def State.pendingEntries (s : State) : Nat := (s.rc.queue.map fun g => g.entries.length).sum

/-- R23: entries drawn into the open window. -/
def State.drawnEntries (s : State) : Nat :=
  match s.rc.window with
  | none => 0
  | some w => (w.groups.map fun g => g.entries.length).sum

/-- R23: the free room of the take queue. -/
def State.freeRoom (s : State) : Nat := Config.takeRoom - s.pendingEntries - s.drawnEntries

/-- R22 checks 1 to 5: the entry with its trimmed mask, or the reason of the first check that fails. -/
def State.checkEntry (s : State) (e : Entry) : Except Reason Entry :=
  let mask := s.trimmed e.dest e.mask
  if within 1 256 e.dest && within 0 256 e.source then
    if mask.isEmpty then .error .badArg
    else if s.domainPasses e.origin e.dest then
      match permission (s.dest e.dest).protect e.origin e.force with
      | some why => .error why
      | none =>
        if mask.list.any (s.readbackAt e.dest) then .error .busy else .ok { e with mask := mask }
    else .error .denied
  else .error .badArg

/-- R24: an entry stripped of the levels of a mask at a destination. -/
def Entry.strip (d : Nat) (mask : LevelMask) (e : Entry) : Entry :=
  if e.dest = d then { e with mask := e.mask.minus mask } else e

/-- R24, R25: entries stripped, those left with an empty mask removed. -/
def stripEntries (d : Nat) (mask : LevelMask) (es : List Entry) : List Entry :=
  (es.map (Entry.strip d mask)).filter fun e => !e.mask.isEmpty

/-- R28: one more superseded entry, `n` times. -/
def Counts.supersede (c : Counts) (n : Nat) : Counts := { c with superseded := c.superseded + n }

/-- R24, R25: a group stripped, with its superseded entries counted when it is a salvo group. -/
def TakeGroup.strip (d : Nat) (mask : LevelMask) (g : TakeGroup) : TakeGroup :=
  let left := stripEntries d mask g.entries
  { firing := g.firing.map fun f => { f with counts := f.counts.supersede (g.entries.length - left.length) },
    entries := left }

/-- R28, R167: a firing ends.  A host firing gets its reply; a panel firing lowers the count of pending firings. -/
def endFiring (f : Firing) (s : State) : State :=
  match f.origin with
  | .system tag => issueDeferred tag .done (countsBytes f.counts) s
  | .panel p _ => s.setPendingFirings p f.salvo (s.pendingFirings p f.salvo - 1)

/-- R25: what follows the removal of a group that supersession has emptied; `g` is the group before, `left` after. -/
def endSuperseded (g left : TakeGroup) (s : State) : State :=
  match left.firing with
  | some f => endFiring f s
  | none =>
    match g.entries with
    | [] => s
    | e :: _ =>
      match e.origin with
      | .system tag => issueDeferred tag .superseded [] s
      | .panel _ _ => s

/-- R24, R25: supersession of the pending entries by an accepted entry for destination d and mask.  The groups that one
accepted entry empties end in queue order, head first, and their replies are issued in that order (DESIGN CHOICE, log entry
26). -/
def supersede (d : Nat) (mask : LevelMask) (s : State) : State :=
  let queue := (s.rc.queue.map (TakeGroup.strip d mask)).filter fun g => !g.entries.isEmpty
  let ended := s.rc.queue.filter fun g => (g.strip d mask).entries.isEmpty
  ended.foldl (fun x g => endSuperseded g (g.strip d mask) x) { s with rc := { s.rc with queue := queue } }

/-- A group appended to the take queue. -/
def joinQueue (g : TakeGroup) (s : State) : State := { s with rc := { s.rc with queue := s.rc.queue ++ [g] } }

/-- R22: a take is offered: the state with it accepted, or the reason of its refusal. -/
def offerTake (e : Entry) (s : State) : Except Reason State :=
  match s.checkEntry e with
  | .error why => .error why
  | .ok x =>
    if s.freeRoom = 0 then .error .busy
    else .ok (joinQueue { firing := none, entries := [x] } (supersede x.dest x.mask s))

/-! ### Salvo firings (R27, R28) -/

/-- What a firing comes to. -/
inductive FiringResult where
  /-- Refused BUSY for want of room. -/
  | busy
  /-- No passing entries: the firing ends at once with its counts. -/
  | ended (counts : Counts)
  /-- Accepted and pending. -/
  | accepted (s : State)

/-- A stored entry as a firing offers it. -/
def StoredEntry.offered (o : Origin) (force : Bool) (e : StoredEntry) : Entry := ⟨e.dest, e.mask, e.source, o, force⟩

/-- R27 step 1: the passing entries of a firing. -/
def State.passing (s : State) (n : Nat) (o : Origin) (force : Bool) : List Entry :=
  (s.salvo n).filterMap fun e => (s.checkEntry (e.offered o force)).toOption

/-- R27 step 4: the acceptance of the passing entries in stored order: the entries of the group and the state. -/
def acceptEntries : List Entry → List Entry → State → List Entry × State
  | [], own, s => (own, s)
  | e :: es, own, s => acceptEntries es (stripEntries e.dest e.mask own ++ [e]) (supersede e.dest e.mask s)

/-- R27: salvo n is fired. -/
def fireSalvo (n : Nat) (o : Origin) (force : Bool) (s : State) : FiringResult :=
  let passing := s.passing n o force
  let refused := (s.salvo n).length - passing.length
  if passing.isEmpty then .ended ⟨0, refused, 0, 0, 0⟩
  else if s.freeRoom < passing.length then .busy
  else
    let r := acceptEntries passing [] s
    let counts : Counts := ⟨0, refused, 0, passing.length - r.1.length, 0⟩
    .accepted (joinQueue { firing := some ⟨o, n, counts⟩, entries := r.1 } r.2)

/-! ### The switch window (R34 to R41) -/

/-- R35: the re-check of an entry at a switch point. -/
def State.recheck (s : State) (e : Entry) : Drawn :=
  if s.domainPasses e.origin e.dest then
    match permission (s.dest e.dest).protect e.origin e.force with
    | some why => ⟨e, some why, noLevels⟩
    | none => ⟨e, none, e.mask.keep (s.onlineAt e.dest)⟩
  else ⟨e, some .denied, noLevels⟩

/-- R35: a group re-checked. -/
def State.draw (s : State) (g : TakeGroup) : DrawnGroup := ⟨g.firing, g.entries.map s.recheck⟩

/-- R37: the crosspoint writes of a drawn group: the entries in stored order, and the levels of one entry in the order VID,
AUD1, AUD2, AUX (DESIGN CHOICE, log entry 27). -/
def State.writesOf (s : State) (g : DrawnGroup) : List Write :=
  g.entries.flatMap fun x => x.written.list.map fun l =>
    ⟨s.deviceNumber x.entry.dest l, x.entry.dest, l, x.entry.source, .sent⟩

/-- R36: the groups drawn into a window that already carries `used` writes, and the groups that stay. -/
def drain (s : State) : Nat → List TakeGroup → List DrawnGroup × List TakeGroup
  | _, [] => ([], [])
  | used, g :: gs =>
    let n := (s.writesOf (s.draw g)).length
    if used + n ≤ Config.windowWrites then
      let r := drain s (used + n) gs
      (s.draw g :: r.1, r.2)
    else ([], g :: gs)

/-- R17, R39: the answer to one write applied to the destination table and the fabric device table.  A write that is
still unanswered counts as refused (R38). -/
def applyWrite (s : State) (w : Write) : State :=
  match s.levelAt w.dest w.level with
  | .notFitted => s
  | .fitted x _ =>
    if w.state = .acknowledged then s.setLevel w.dest w.level (.fitted w.source false)
    else
      let s1 := s.setLevel w.dest w.level (.fitted x true)
      match s1.device? w.device with
      | some v => if v.phase = .online then s1.setDevice w.device { v with phase := .failed } else s1
      | none => s1

/-- R40: the done mask of a drawn entry: the levels whose writes were acknowledged. -/
def doneMask (writes : List Write) (x : Drawn) : LevelMask :=
  x.written.keep fun l => writes.any fun w => w.dest == x.entry.dest && w.level == l && w.state == .acknowledged

/-- R40: the outcome of a drawn entry. -/
inductive Outcome where
  | refused (why : Reason)
  | done
  | fabricFault
  deriving DecidableEq, Repr

/-- R40: the outcome of a drawn entry over the answers to the window's writes. -/
def outcomeOf (writes : List Write) (x : Drawn) : Outcome :=
  match x.refusal with
  | some why => .refused why
  | none => if doneMask writes x = x.entry.mask then .done else .fabricFault

/-- R28: a drawn entry counted in its firing. -/
def Counts.count (c : Counts) : Outcome → Counts
  | .refused _ => { c with refusedWindow := c.refusedWindow + 1 }
  | .done => { c with applied := c.applied + 1 }
  | .fabricFault => { c with fabricFault := c.fabricFault + 1 }

/-- R41: the report of a drawn entry of a single-take group. -/
def reportTake (writes : List Write) (s : State) (x : Drawn) : State :=
  match x.entry.origin, outcomeOf writes x with
  | .system tag, .refused why => issueDeferred tag why.code [] s
  | .system tag, .done => issueDeferred tag .done [maskByte (doneMask writes x)] s
  | .system tag, .fabricFault => issueDeferred tag .fabricFault [maskByte (doneMask writes x)] s
  | .panel p k, .refused why => keyRefusal p k why s
  | .panel _ _, _ => s

/-- R41, R28: the report of a drawn group. -/
def reportGroup (writes : List Write) (s : State) (g : DrawnGroup) : State :=
  match g.firing with
  | none => g.entries.foldl (reportTake writes) s
  | some f => endFiring { f with counts := g.entries.foldl (fun c x => c.count (outcomeOf writes x)) f.counts } s

/-- R13: the retry readbacks that wait for the close of a window begin their exchanges. -/
def beginExchanges (s : State) : State :=
  { s with rc := { s.rc with devices := s.rc.devices.mapValues fun _ v =>
      match v.phase with
      | .readback kind _ => { v with phase := .readback kind true }
      | _ => v } }

/-- R39: the close of a window.  The lamps follow the ends of panel firings (R176). -/
def closeWindow (w : Window) (s : State) : State :=
  let s1 := w.writes.foldl applyWrite s
  let s2 := evaluateFabric s1
  let s3 := w.groups.foldl (reportGroup w.writes) { s2 with rc := { s2.rc with window := none } }
  let changed := w.writes.any fun x => s.levelAt x.dest x.level != s1.levelAt x.dest x.level
  beginExchanges (if changed then routeChange s3 else relamp s3)

/-- R34, R36, R37: a window opens, the queue is drained into it and its writes are sent.  A window without writes closes
at once. -/
def openWindow (s : State) : State :=
  let r := drain s 0 s.rc.queue
  let w : Window := ⟨s.rc.windows + 1, r.1, r.1.flatMap s.writesOf⟩
  let s1 := { s with rc := { s.rc with queue := r.2, window := some w, windows := s.rc.windows + 1 } }
  if w.writes.isEmpty then closeWindow w s1 else s1

/-- R34: a switch point. -/
def switchPoint (s : State) : State :=
  match s.rc.window with
  | some _ => s
  | none => if s.rc.queue.isEmpty then s else openWindow s

/-- Whether a write is the one that an answer names, and is unanswered. -/
def Write.awaits (d : Nat) (l : Level) (w : Write) : Bool := w.dest == d && w.level == l && w.state == .sent

/-- R38: an answer to a crosspoint write.  The answer to the last outstanding write closes the window.  An answer that is
not to an outstanding write of the open window is discarded (R38, R42). -/
def takeAnswer (number d : Nat) (l : Level) (acknowledged : Bool) (s : State) : State :=
  match s.rc.window with
  | none => s
  | some w =>
    if w.number = number ∧ w.writes.any (Write.awaits d l) then
      let answered (x : Write) : Write :=
        if x.awaits d l then { x with state := if acknowledged then .acknowledged else .refused } else x
      let w1 := { w with writes := w.writes.map answered }
      if w1.writes.any fun x => x.state == .sent then { s with rc := { s.rc with window := some w1 } }
      else closeWindow w1 s
    else s

/-- R38: 12 ms after its switch point the open window closes. -/
def expireWindow (s : State) : State :=
  match s.rc.window with
  | none => s
  | some w => closeWindow w s

end Sys2Proof.Machine
end

