-- ==== Sys2Proof/Machine/Press.lean ====
section
/-! DEFINITION. The Function Dispatcher's handling of the events of the key event queue (R163 to R172): presses, releases,
knob deltas and bus states. -/

namespace Sys2Proof.Machine

/-! ### The system key queue (R172) -/

/-- R172: an entry is offered to the system key queue: appended while there is room, dropped otherwise.  SYSTEM_KEY is
raised in both cases. -/
def offerSystemKey (e : SystemKeyEntry) (s : State) : State :=
  raise .systemKey
    (if s.fd.systemKeys.length < Config.systemKeyPlaces then
      { s with fd := { s.fd with systemKeys := s.fd.systemKeys ++ [e] } }
    else s)

/-! ### What a captured function does (R163, R167 to R169) -/

/-- R21, R167: a panel take is offered; a refusal goes to the last-refusal record. -/
def panelTake (p k d : Nat) (mask : LevelMask) (x : Nat) (s : State) : State :=
  match offerTake ⟨d, mask, x, .panel p k, false⟩ s with
  | .ok t => t
  | .error why => keyRefusal p k why s

/-- R6, R167: a protect toggle is handed to the Route Controller; a refusal goes to the last-refusal record. -/
def panelToggle (p k d : Nat) (s : State) : State :=
  match s.toggled p d with
  | .ok v => s.setProtect d v
  | .error why => keyRefusal p k why s

/-- R27, R167: a firing is handed to the Route Controller.  An accepted firing raises the count of pending firings; one
without passing entries raises and lowers it at the same event. -/
def panelFiring (p k n : Nat) (s : State) : State :=
  match fireSalvo n (.panel p k) false s with
  | .busy => keyRefusal p k .busy s
  | .ended _ => s
  | .accepted t => t.setPendingFirings p n (t.pendingFirings p n + 1)

/-- R163: the page of a panel changes over. -/
def togglePage (p : Nat) (s : State) : State :=
  match s.panel? p with
  | some v => s.setPanel p { v with page := !v.page }
  | none => s

/-- R166 to R169: a captured function is carried out. -/
def carryOut (p k : Nat) (f : FunctionAction) (s : State) : State :=
  match f with
  | .routeTake d mask x => panelTake p k d mask x s
  | .selectDest d => s.setContext p { s.context p with dest := some d }
  | .presetSource x => s.setContext p { s.context p with source := some x }
  | .takePreset mask =>
    match (s.context p).dest, (s.context p).source with
    | some d, some x => panelTake p k d mask x s
    | _, _ => keyRefusal p k .noContext s
  | .salvoFire n => panelFiring p k n s
  | .protectToggle (some d) => panelToggle p k d s
  | .protectToggle none =>
    match (s.context p).dest with
    | some d => panelToggle p k d s
    | none => keyRefusal p k .noContext s
  | .talk target _ mode level priority => pressIdle p k target mode level priority s
  | .call c => callPress p k c (s.setHeld p k (some (.call c)))
  | .pageToggle => togglePage p s
  | .systemKey code => offerSystemKey ⟨p, k, code, false⟩ (s.setHeld p k (some (.systemKey code)))

/-- R165 step 4: a press that passes the use checks, from a panel that is not in service.  A TALK or CALL press is handed
on without capture, and its receiver discards it. -/
def handOnUncaptured (p k : Nat) (f : FunctionAction) (s : State) : State :=
  match f with
  | .talk target _ mode level priority => pressIdle p k target mode level priority s
  | .call c => callPress p k c s
  | _ => s

/-! ### Presses, releases, knobs and bus states -/

/-- R165: the use checks of a press of key k of panel p, whose record is `v`. -/
def State.usedFunction (s : State) (p k : Nat) (v : Panel) : Except Reason KeyFunction :=
  if s.binding p v.page k = 0 then .error .unbound
  else
    match s.function? (s.binding p v.page k) with
    | none => .error .empty
    | some f => if f.allows v then .ok f else .error .denied

/-- R165: the handling of a key press. -/
def handlePress (p k : Nat) (s : State) : State :=
  if (s.key p k).state = .idle then
    match s.panel? p with
    | none => s
    | some v =>
      match s.usedFunction p k v with
      | .error why => if s.inService p then keyRefusal p k why s else s
      | .ok f => if s.inService p then carryOut p k f.action s else handOnUncaptured p k f.action s
  else pressOwned p k s

/-- R170: the handling of a key release. -/
def handleRelease (p k : Nat) (s : State) : State :=
  if (s.key p k).state = .idle then
    match s.held? p k with
    | none => s
    | some (.call _) => (callRelease p k s).setHeld p k none
    | some (.systemKey code) => (offerSystemKey ⟨p, k, code, true⟩ s).setHeld p k none
  else releaseOwned p k s

/-- R81: a volume moved by a knob, limited to −120..0. -/
def moved (v delta : Int) : Int := max (-120) (min 0 (v + delta))

/-- R81: the handling of a knob delta. -/
def handleKnob (p : Nat) (delta : Int) (s : State) : State :=
  match (s.panel? p).bind (·.ownPort) with
  | none => s
  | some q =>
    if s.inService p && (s.port q).role == .normal then
      if moved (s.port q).volume delta = (s.port q).volume then s
      else recompute (s.setPort q { s.port q with volume := moved (s.port q).volume delta })
    else s

/-- R164: the event at the head of the key event queue is taken and handled.  A command that brings an event takes it when
it stands at the head, or when the queue is empty, in which case the event is handled as if it had just joined (DESIGN
CHOICE, log entry 14).  When another event stands at the head it is not its turn, and nothing happens. -/
def takeEvent (e : KeyEvent) (handle : State → State) (s : State) : State :=
  match s.pbc.events with
  | [] => handle s
  | x :: rest => if x = e then handle { s with pbc := { s.pbc with events := rest } } else s

end Sys2Proof.Machine
end

