-- ==== Sys2Proof/Machine/Bus.lean ====
section
/-! DEFINITION. The Panel Bus Controller: panel bus frames (R139, R197), the poll cycle with its polls and probes (R136 to
R138, R144, R147), the handling of replies and idents (R140, R142, R143, R148 to R150), the loss and the removal of a
panel (R135, R151), error counting (R153 to R155) and the flags PANEL_STATE and PANEL_ERRORS (R152, R156). -/

namespace Sys2Proof.Machine

/-! ### Frames (R197) -/

/-- A panel bus frame: the start byte, the address, the kind and the content, with the CRC over address to content. -/
def panelFrame (address kind : Byte) (content : List Byte) : List Byte := 0x5A :: withCrc (address :: kind :: content)

/-- The POLL that a transaction carries. -/
def pollFrame (p : Nat) (ack : Bool) (entries : List (Nat × Lamp)) : List Byte :=
  panelFrame (byte p) 0x01
    (yesNo ack :: byte entries.length :: entries.flatMap fun e => [byte e.1, lampByte e.2])

/-- The PROBE of a panel. -/
def probeFrame (p : Nat) : List Byte := panelFrame (byte p) 0x02 []

/-- The frame that the part sends in a transaction (R136). -/
def Transaction.frame (t : Transaction) : List Byte :=
  if t.probe then probeFrame t.panel else pollFrame t.panel t.ack t.entries

/-- A knob delta: bits 0..6 as a signed 7-bit value; bit 7 is not read. -/
def knobDelta (b : Byte) : Int := (b.truncate 7).toInt

/-- A key event record.  A key outside 1..`keys`, or a kind outside 1..4, is malformed. -/
def eventOf (keys : Nat) (kind a b : Byte) : Option PanelAction :=
  match kind.toNat with
  | 1 => if within 1 keys a.toNat then some (.press a.toNat) else none
  | 2 => if within 1 keys a.toNat then some (.release a.toNat) else none
  | 3 => some (.knob (knobDelta a))
  | 4 => some (.busState a.toNat b.toNat)
  | _ => none

/-- The event records of a REPLY. -/
def eventsOf (keys : Nat) : List Byte → Option (List PanelAction)
  | [] => some []
  | kind :: a :: b :: rest =>
    match eventOf keys kind a b, eventsOf keys rest with
    | some e, some es => some (e :: es)
    | _, _ => none
  | _ => none

/-- What a well-formed frame of a panel says. -/
inductive PanelAnswer where
  | reply (bit : Bool) (events : List PanelAction)
  | ident (kind : PanelKind) (keys : Nat) (bit : Bool)
  deriving DecidableEq, Repr

/-- R139, R197: the content of a frame in answer to a poll (`probe` false) or a probe.  None is a malformed frame. -/
def answerOf (probe : Bool) (keys : Nat) (kind : Byte) (content : List Byte) : Option PanelAnswer :=
  match probe, content with
  | false, seq :: n :: events =>
    if kind = 0x81 ∧ n.toNat ≤ 8 ∧ events.length = 3 * n.toNat then
      (eventsOf keys events).map fun es => .reply (seq.getLsbD 0) es
    else none
  | true, [k, n, seq] =>
    if kind = 0x82 ∧ within 1 64 n.toNat then
      some (.ident (if k.getLsbD 0 then .mixerBridge else .control) n.toNat (seq.getLsbD 0))
    else none
  | _, _ => none

/-- R139: the judgement of what arrived. -/
inductive BusJudgement where
  | timeout
  | bad (kind : ErrorKind)
  | valid (answer : PanelAnswer)
  deriving DecidableEq, Repr

/-- R139: the judgement of a complete frame, given behind its start byte, in a transaction with panel p, whose key count
is `keys`. -/
def judgeFrame (probe : Bool) (p keys : Nat) (body : List Byte) : BusJudgement :=
  if crcChecks body then
    match body with
    | address :: kind :: rest =>
      match answerOf probe keys kind (rest.take (rest.length - 2)) with
      | none => .bad .framing
      | some a => if address.toNat = p then .valid a else .bad .wrongAddress
    | _ => .bad .framing
  else .bad .crc

/-! ### Flags and counted errors -/

/-- R156: PANEL_ERRORS is re-evaluated and a change handed over. -/
def evaluatePanelErrors (s : State) : State :=
  let now := s.pbc.panels.values.any fun v => v.state == .degraded
  handOver .panelErrors s.pbc.panelErrors now { s with pbc := { s.pbc with panelErrors := now } }

/-- R152, R156: what follows an event that changed the state of at least one panel. -/
def panelStateChanged (s : State) : State := evaluatePanelErrors (raise .panelState s)

/-- R153: a counted error against panel p. -/
def countError (p : Nat) (kind : ErrorKind) (s : State) : State :=
  match s.panel? p with
  | none => s
  | some v =>
    if v.errors < Config.errorCounterTop then
      let s1 := s.setPanel p { v with lastError := kind, errors := v.errors + 1 }
      if v.errors + 1 = Config.errorCounterTop then raise .countSaturated s1 else s1
    else s.setPanel p { v with lastError := kind }

/-- R154: a panel record after a transfer and its judgement. -/
def Panel.transferred (threshold : Nat) (v : Panel) : Panel :=
  let state := match v.state with
    | .online => if threshold ≤ v.errors then .degraded else .online
    | .degraded => if v.errors < threshold then .online else .degraded
    | x => x
  { v with lastWindow := v.errors, errors := 0, state := state }

/-- R154: a transfer of every panel's error counter and the judgement that follows it. -/
def transfer (s : State) : State :=
  let panels := s.pbc.panels.mapValues fun _ v => v.transferred s.pbc.threshold
  let changed := s.pbc.panels.values.any fun v => (v.transferred s.pbc.threshold).state != v.state
  let s1 := { s with pbc := { s.pbc with panels := panels } }
  if changed then panelStateChanged s1 else s1

/-! ### Loss and removal -/

/-- R151: panel p, whose record is `v`, becomes LOST. -/
def losePanel (p : Nat) (v : Panel) (s : State) : State :=
  let s1 := (s.setPanel p { v with state := .lost, missed := 0, page := false }).setContext p Context.start
  panelStateChanged (staleBridge p (dropPanelCalls p (dropPanelTalks p s1)))

/-- R9: the panel protects of panel p become NONE. -/
def clearProtects (p : Nat) (s : State) : State := rewriteProtects (withoutPanel p) s

/-- The held-key records of panel p emptied (R166). -/
def dropHeld (p : Nat) (s : State) : State := { s with fd := { s.fd with held := s.fd.held.erase p } }

/-- R135: panel p, whose record is `v`, is removed from the panel table. -/
def removePanel (p : Nat) (v : Panel) (s : State) : State :=
  let discarded (t : Transaction) : Transaction := if t.panel = p then { t with discard := true } else t
  let s1 := { s with pbc := { s.pbc with
    panels := s.pbc.panels.erase p, transaction := s.pbc.transaction.map discarded } }
  let s2 := dropHeld p ((clearProtects p s1).setContext p Context.start)
  let s3 := staleBridge p (dropPanelCalls p (dropPanelTalks p s2))
  if v.state = .absent then s3 else panelStateChanged s3

/-! ### The outcome of a transaction -/

/-- R140: a missed poll of panel p.  The third in succession loses the panel. -/
def missPoll (p : Nat) (s : State) : State :=
  match s.panel? p with
  | none => s
  | some v => if 3 ≤ v.missed + 1 then losePanel p v s else s.setPanel p { v with missed := v.missed + 1 }

/-- R148: the lamp entries of an answered POLL acknowledged. -/
def Panel.acknowledge (entries : List (Nat × Lamp)) (v : Panel) : Panel :=
  entries.foldl (fun x e => x.setLamp e.1 { x.lamp e.1 with sent := some e.2 }) v

/-- R150: whether no key of a sent image is UNKNOWN. -/
def Panel.allKnown (v : Panel) : Bool := (numbers 1 64).all fun k => (v.lamp k).sent.isSome

/-- R142, R143: the events of a valid REPLY of a panel taken, held back or discarded. -/
def takeEvents (p : Nat) (v : Panel) (bit : Bool) (events : List PanelAction) (s : State) : State :=
  match v.state with
  | .joining => s.setPanel p { v with seqBit := bit }
  | .absent => s
  | .lost => s
  | _ =>
    if bit = v.seqBit then s
    else if s.pbc.events.length + events.length ≤ Config.keyEventPlaces then
      let s1 := s.setPanel p { v with seqBit := bit }
      { s1 with pbc := { s1.pbc with events := s1.pbc.events ++ events.map fun a => ⟨p, a⟩ } }
    else s

/-- R140, R148, R150: an answered poll of panel p: the missed polls are 0, the entries of the POLL are acknowledged, and a
JOINING panel that shows every lamp becomes ONLINE. -/
def answeredPoll (p : Nat) (entries : List (Nat × Lamp)) (s : State) : State :=
  match s.panel? p with
  | none => s
  | some v =>
    let v1 := { v with missed := 0 }.acknowledge entries
    if v1.state = .joining ∧ v1.allKnown then panelStateChanged (s.setPanel p { v1 with state := .online })
    else s.setPanel p v1

/-- R142, R143: a valid REPLY to the poll of panel p. -/
def takeReply (p : Nat) (bit : Bool) (events : List PanelAction) (entries : List (Nat × Lamp)) (s : State) : State :=
  match s.panel? p with
  | none => s
  | some v => answeredPoll p entries (takeEvents p v bit events s)

/-- R146: every sent value of a lamp image UNKNOWN and the scan pointer 1. -/
def Panel.forgetSent (v : Panel) : Panel :=
  (numbers 1 64).foldl (fun x k => x.setLamp k { x.lamp k with sent := none }) { v with scan := 1 }

/-- R149: a valid IDENT that answers the probe of panel p, which was sent while the panel had the expected kind `expected`:
a SET_PANEL governs from the next transaction on (R134). -/
def takeIdent (p : Nat) (expected kind : PanelKind) (keys : Nat) (bit : Bool) (s : State) : State :=
  match s.panel? p with
  | none => s
  | some v =>
    if kind = expected then
      let v1 := { v with state := .joining, keyCount := some keys, seqBit := bit, missed := 0 }.forgetSent
      panelStateChanged (dropHeld p (s.setPanel p v1))
    else countError p .wrongKind s

/-- R139: the outcome of a transaction by its judgement. -/
def outcome (t : Transaction) (j : BusJudgement) (s : State) : State :=
  match t.probe, j with
  | true, .timeout => s
  | true, .bad kind => countError t.panel kind s
  | true, .valid (.ident kind keys bit) => takeIdent t.panel t.kind kind keys bit s
  | true, .valid (.reply _ _) => countError t.panel .framing s
  | false, .timeout => missPoll t.panel (countError t.panel .timeout s)
  | false, .bad kind => missPoll t.panel (countError t.panel kind s)
  | false, .valid (.reply bit events) => takeReply t.panel bit events t.entries s
  | false, .valid (.ident _ _ _) => missPoll t.panel (countError t.panel .framing s)

/-! ### The poll cycle -/

/-- R137: whether a panel in a state is polled in a cycle of the parity in force. -/
def PanelBus.polls (b : PanelBus) : PanelState → Bool
  | .joining => true
  | .online => true
  | .degraded => !b.odd
  | _ => false

/-- R137: the lowest address above the last panel polled whose panel qualifies for a poll. -/
def PanelBus.nextPoll (b : PanelBus) : Option Nat :=
  (numbers 1 32).find? fun p =>
    decide (b.lastPolled < p) && match b.panels.find? p with | some v => b.polls v.state | none => false

/-- R138: whether an address is probed. -/
def PanelBus.probes (b : PanelBus) (p : Nat) : Bool :=
  match b.panels.find? p with
  | some v => v.state == .absent || v.state == .lost
  | none => false

/-- R138: the address of the probe turn: the lowest at or above the pointer, else from address 1. -/
def PanelBus.nextProbe (b : PanelBus) : Option Nat :=
  ((numbers b.pointer 32).find? b.probes).or ((numbers 1 32).find? b.probes)

/-- R147: the keys in the order of the lamp scan from a scan pointer. -/
def scanOrder (scan : Nat) : List Nat := numbers scan 64 ++ numbers 1 (scan - 1)

/-- R147: the keys that a POLL carries. -/
def Panel.scanned (v : Panel) : List Nat := ((scanOrder v.scan).filter v.differs).take Config.pollLamps

/-- R147: the scan pointer after a POLL. -/
def Panel.nextScan (v : Panel) : Nat :=
  match v.scanned.getLast? with
  | none => v.scan
  | some k => if k = 64 then 1 else k + 1

/-- R136, R144, R147: a POLL to panel p is sent. -/
def sendPoll (p : Nat) (b : PanelBus) : PanelBus :=
  match b.panels.find? p with
  | none => b
  | some v =>
    { b with
      lastPolled := p
      panels := b.panels.put p { v with scan := v.nextScan }
      transaction := some ⟨false, p, v.seqBit, v.scanned.map fun k => (k, (v.lamp k).desired), false, v.kind⟩ }

/-- R138: a PROBE to panel p is sent. -/
def sendProbe (p : Nat) (b : PanelBus) : PanelBus :=
  match b.panels.find? p with
  | none => b
  | some v =>
    { b with pointer := if p = 32 then 1 else p + 1, transaction := some ⟨true, p, false, [], false, v.kind⟩ }

/-- R137: a cycle starts.  Where no panel qualifies and no address is probed it makes no transaction. -/
def startCycle (b : PanelBus) : PanelBus :=
  let b := { b with lastPolled := 0 }
  match b.nextPoll with
  | some p => sendPoll p b
  | none =>
    match b.nextProbe with
    | some p => sendProbe p b
    | none => { b with transaction := none }

/-- R137: the next cycle starts under the other parity. -/
def nextCycle (b : PanelBus) : PanelBus := startCycle { b with odd := !b.odd }

/-- R137: the Panel Bus Controller chooses what follows the transaction that has ended.  After a restart the new cycle
starts under the parity that the restart set (R157). -/
def chooseNext (wasProbe : Bool) (b : PanelBus) : PanelBus :=
  if b.newCycle then startCycle { b with newCycle := false }
  else if wasProbe then nextCycle b
  else
    match b.nextPoll with
    | some p => sendPoll p b
    | none =>
      match b.nextProbe with
      | some p => sendProbe p b
      | none => nextCycle b

/-- R136, R139: the transaction in flight ends with a judgement, and the next one begins.  The outcome of a transaction
whose panel was removed, or that stood at a restart, is discarded (R135, R157). -/
def endTransaction (j : Transaction → State → BusJudgement) (s : State) : State :=
  match s.pbc.transaction with
  | none => s
  | some t =>
    let s1 := { s with pbc := { s.pbc with transaction := none } }
    let s2 := if t.discard then s1 else relamp (outcome t (j t s) s1)
    { s2 with pbc := chooseNext t.probe s2.pbc }

/-- The key count of panel p, 0 while it has none. -/
def State.keyCountOf (s : State) (p : Nat) : Nat := ((s.panel? p).bind (·.keyCount)).getD 0

/-- R139: bytes arrive on the panel bus.  Every frame begins with its start byte; bytes that do not are no frame. -/
def receivePanelFrame (bytes : List Byte) (s : State) : State :=
  match bytes with
  | [] => s
  | b :: body =>
    if b = 0x5A then
      endTransaction (fun t x => judgeFrame t.probe t.panel (x.keyCountOf t.panel) body) s
    else s

/-- R139: the transaction ends without a complete frame. -/
def timeOut (s : State) : State := endTransaction (fun _ _ => .timeout) s

/-- R137: the end of a cycle without a transaction. -/
def endEmptyCycle (s : State) : State :=
  match s.pbc.transaction with
  | some _ => s
  | none => { s with pbc := nextCycle s.pbc }

end Sys2Proof.Machine
end

