-- ==== Sys2Proof/Machine/Timing.lean ====
section
/-! DEFINITION. The Switch Timing Unit (R29 to R33): reference pulses, the loss timer, the flywheel and the frame family.
Instants are microseconds of the timebase of the part (log entry 5). -/

namespace Sys2Proof.Machine

/-- R29: the nominal frame period of a family, in microseconds. -/
def FrameFamily.period : FrameFamily → Nat
  | .f25 => 40000
  | .f29_97 => 33367
  | .f50 => 20000
  | .f59_94 => 16683

/-- R33: the state source REF_LOST. -/
def State.refLost (s : State) : Bool := s.stu.reference == .lost

/-- The Switch Timing Unit's state written, with a change of REF_LOST handed over (R33). -/
def setTiming (v : SwitchTiming) (s : State) : State :=
  handOver .refLost s.refLost (v.reference == .lost) { s with stu := v }

/-- R32: whether the spacing of two pulses lies from 0.99 to 1.01 nominal periods. -/
def relocks (period spacing : Nat) : Bool := decide (99 * period ≤ 100 * spacing) && decide (100 * spacing ≤ 101 * period)

/-- The instants seen so far, with one more. -/
def SwitchTiming.at (v : SwitchTiming) (time : Nat) : SwitchTiming := { v with now := max v.now time }

/-- R30, R32: an accepted reference pulse: the reference is LOCKED, the flywheel stands and the pulse is a switch point.  At a
relock the change of REF_LOST is handed over first, so that its EVENT_FLAGS message stands before the replies of a window
without writes that the switch point opens and closes (DESIGN CHOICE, log entry 32). -/
def acceptPulse (time : Nat) (s : State) : State :=
  switchPoint (setTiming { s.stu.at time with
    reference := .locked, lastPulse := some time, candidate := none, flywheelBase := time, flywheelCount := 0 } s)

/-- R30 to R32: a reference pulse arrives. -/
def pulse (time : Nat) (s : State) : State :=
  match s.stu.reference with
  | .locked => acceptPulse time s
  | .lost =>
    match s.stu.candidate with
    | none => { s with stu := { s.stu.at time with candidate := some time } }
    | some c =>
      if relocks s.stu.family.period (time - c) then acceptPulse time s
      else { s with stu := { s.stu.at time with candidate := some time } }

/-- R30: the loss timer expires: three nominal periods have passed since the last accepted pulse.  The timer runs in
LOCKED alone.  The change of REF_LOST is handed over before the switch point, so that its EVENT_FLAGS message stands before
the replies of a window without writes (DESIGN CHOICE, log entry 32). -/
def loseReference (s : State) : State :=
  match s.stu.reference with
  | .lost => s
  | .locked =>
    let base := s.stu.lastPulse.getD s.stu.flywheelBase
    switchPoint (setTiming { s.stu.at (base + 3 * s.stu.family.period) with
      reference := .lost, candidate := none, flywheelBase := base, flywheelCount := 3 } s)

/-- R31: the flywheel reaches its next point.  It runs in LOST alone. -/
def flywheel (s : State) : State :=
  match s.stu.reference with
  | .locked => s
  | .lost =>
    let v := { s.stu with flywheelCount := s.stu.flywheelCount + 1 }
    switchPoint { s with stu := v.at (v.flywheelBase + v.flywheelCount * v.family.period) }

/-- R29: a change of the frame family. -/
def changeFamily (f : FrameFamily) (s : State) : State :=
  if f = s.stu.family then s
  else setTiming { s.stu with
    family := f, reference := .lost, candidate := none, flywheelBase := s.stu.now, flywheelCount := 0 } s

end Sys2Proof.Machine
end

