-- ==== Sys2Proof/Machine/Restart.lean ====
section
/-! DEFINITION. Power-on and the three scopes of RESTART (R190, R191), each carried out whole over all blocks. -/

namespace Sys2Proof.Machine

/-- R157: the transaction in flight at a restart, whose outcome is discarded. -/
def discarded (t : Option Transaction) : Option Transaction := t.map fun x => { x with discard := true }

/-- R157: a panel record after RESTART(PANELS). -/
def Panel.restarted (v : Panel) : Panel := { v with state := .absent, missed := 0, page := false }.forgetSent

/-- R157: the Panel Bus Controller's part of RESTART(PANELS), before the new cycle begins. -/
def restartBus (b : PanelBus) : PanelBus :=
  { b with
    panels := b.panels.mapValues fun _ v => v.restarted
    events := []
    odd := false
    pointer := 1
    lastPolled := 0
    transaction := discarded b.transaction
    newCycle := b.transaction.isSome }

/-- R157, R190: RESTART(PANELS). -/
def restartPanels (s : State) : State :=
  let changed := s.pbc.panels.values.any fun v => v.state != .absent
  let s1 := { s with
    pbc := restartBus s.pbc
    fd := { s.fd with contexts := ⟨[]⟩, held := ⟨[]⟩ } }
  let s2 := staleAllBridges (dropAllCalls (idleAllKeys (endTalks (s1.talkIds Talk.ofAnyPanel) s1)))
  let s3 := relamp (if changed then panelStateChanged s2 else evaluatePanelErrors s2)
  if s3.pbc.transaction.isSome then s3 else { s3 with pbc := startCycle s3.pbc }

/-- R96, R178, R190: RESTART(TALK). -/
def restartTalk (s : State) : State :=
  let s1 := { s with fd := { s.fd with contexts := ⟨[]⟩ } }
  let s2 := idleAllKeys (endTalks (s1.talkIds fun _ => true) s1)
  relamp { s2 with tc := { s2.tc with counter := 1 } }

/-- R191: the Host Link Controller after RESTART(ALL) of a request with `tag`.  The message in transmission goes on to its
end. -/
def restartLink (tag : Byte) (h : HostLink) : HostLink :=
  { HostLink.start with
    outbound := [{ cls := .restartReply, tag := tag, payload := [ReplyCode.ok.byte] }]
    sending := h.sending }

/-- R29: the Switch Timing Unit after RESTART(ALL): the family stands, and the flywheel counts from the reset. -/
def restartTiming (v : SwitchTiming) : SwitchTiming :=
  { SwitchTiming.start with family := v.family, flywheelBase := v.now, now := v.now }

/-- R157: the Panel Bus Controller after RESTART(ALL). -/
def restartBusAll (b : PanelBus) : PanelBus :=
  { PanelBus.start with transaction := discarded b.transaction, newCycle := b.transaction.isSome }

/-- R190, R191: RESTART(ALL) of a request with `tag`.  The flash clock goes on (log entry 6) and the window numbers of the
model go on (log entry 4). -/
def restartAll (tag : Byte) (s : State) : State :=
  { State.reset with
    hlc := restartLink tag s.hlc
    rc := { RouteController.start with windows := s.rc.windows }
    stu := restartTiming s.stu
    tou := { TallyOutputs.start with flashLit := s.tou.flashLit }
    pbc := restartBusAll s.pbc
    pending := s.pending }

/-- R190: power-on.  The commands that wait and the window numbers, both the model's own, go on (log entries 2 and 4). -/
def powerOn (s : State) : State :=
  { State.reset with rc := { RouteController.start with windows := s.rc.windows }, pending := s.pending }

/-- R190: a RESTART request, whose scope byte chooses the scope. -/
def restart (r : Request) (scope : Nat) (s : State) : State :=
  match scope with
  | 0 => restartAll r.tag s
  | 1 => restartPanels (answer r .ok s)
  | 2 => restartTalk (answer r .ok s)
  | _ => answer r .badArg s

end Sys2Proof.Machine
end

