-- ==== Sys2Proof/Machine/HostCommands.lean ====
section
/-! DEFINITION. The meanings of the commands of the host link (Chapter 10): power-on, the receiver, the transmitter,
unknown requests, SET_EVENTS, the three RESTART rows, IDENT and GET_STATUS. -/

namespace Sys2Proof.Machine

/-- What a step answers. -/
abbrev Result := Host.Outcome State Fault Refusal

/-- An event that is not a request: its effect, after which a message queued on an idle link begins (R186). -/
def event (effect : State → State) (s : State) : Result := .next (transmit (effect s))

/-- POWER_ON (R190). -/
def execPowerOn (s : State) : Result := .next (powerOn s)

/-- HOST_FRAME_RECEIVED (R181, R182, R184). -/
def execHostFrameReceived (bytes : List Byte) (s : State) : Result := event (receive bytes) s

/-- HOST_BAD_LENGTH (R181). -/
def execHostBadLength (bytes : List Byte) (s : State) : Result := event (receive bytes) s

/-- HOST_FRAME_TIMEOUT (R181). -/
def execHostFrameTimeout (s : State) : Result := event dropPartial s

/-- UNKNOWN_REQUEST (R182).  A kind that is a request kind is no unknown request, and nothing happens. -/
def execUnknownRequest (kind tag : Byte) (payload : List Byte) (s : State) : Result :=
  if isRequestKind kind then .next s
  else .next (request ⟨kind, tag, payload⟩ (fun x => raise .hostFrameError (answer ⟨kind, tag, payload⟩ .unknown x)) s)

/-- R186: the transmission of a message ends. -/
def endTransmission (s : State) : State :=
  match s.hlc.sending with
  | none => s
  | some _ => transmit { s with hlc := { s.hlc with sending := none } }

/-- TRANSMISSION_END (R186, R188). -/
def execTransmissionEnd (s : State) : Result := .next (endTransmission s)

/-- R189: the enables and edge selects written.  A flag that is disabled becomes clear, and one newly enabled begins
clear. -/
def writeEvents (enabled : BitVec 16) (edges : EdgeSelects) (s : State) : State :=
  { s with hlc := { s.hlc with
      enabled := enabled, edges := edges, set := s.hlc.set &&& s.hlc.enabled &&& enabled } }

/-- SET_EVENTS (R189). -/
def execSetEvents (tag : Byte) (payload : List Byte) (s : State) : Result :=
  .next (requestOf 0xA0 tag payload eventsArgs (fun r a x => writeEvents a.1 a.2 (answer r .ok x)) s)

/-- RESTART_ALL (R191).  The scope byte chooses the scope (log entry 16). -/
def execRestartAll (tag : Byte) (payload : List Byte) (s : State) : Result :=
  .next (requestOf 0xA1 tag payload byteArg restart s)

/-- RESTART_PANELS (R190).  The scope byte chooses the scope (log entry 16). -/
def execRestartPanels (tag : Byte) (payload : List Byte) (s : State) : Result :=
  .next (requestOf 0xA1 tag payload byteArg restart s)

/-- RESTART_TALK (R190).  The scope byte chooses the scope (log entry 16). -/
def execRestartTalk (tag : Byte) (payload : List Byte) (s : State) : Result :=
  .next (requestOf 0xA1 tag payload byteArg restart s)

/-- R192: the three numbers of IDENT. -/
def identData : List Byte := be16 Config.vendorCode ++ be16 Config.partCode ++ [Config.siliconRevision]

/-- IDENT (R192). -/
def execIdent (tag : Byte) (payload : List Byte) (s : State) : Result :=
  .next (requestOf 0xA2 tag payload noArg (fun r _ x => answerData r .ok identData x) s)

/-- R33, R193: the frame family, the reference state and the free room of the take queue. -/
def timingStatus (s : State) : List Byte := [familyByte s.stu.family, yesNo s.refLost, byte s.freeRoom]

/-- R78: the set, drive and fault state of each tally output. -/
def outputStatus (s : State) : List Byte :=
  (numbers 1 48).flatMap fun n =>
    [yesNo (s.output n).config.isSome, driveByte (s.output n).drive, lampFaultByte (s.output n).fault]

/-- R78: the set and call count of each camera. -/
def cameraStatus (s : State) : List Byte :=
  (numbers 1 24).flatMap fun c => [yesNo (s.camera? c).isSome, byte (s.callCount c)]

/-- R193: the present value of each of the five state sources. -/
def sourceStatus (s : State) : List Byte :=
  [yesNo s.pbc.panelErrors, yesNo s.refLost, yesNo s.tou.lampFault, yesNo s.tme.pathStarved, yesNo s.rc.fabricFault]

/-- R193, R196: the enables, the set flags and the edge selects. -/
def flagStatus (s : State) : List Byte :=
  be16 s.hlc.enabled.toNat ++ be16 s.hlc.set.toNat ++ edgesBytes s.hlc.edges

/-- R193: the queues as they stand at the execution, with the request in execution counted. -/
def queueStatus (s : State) : List Byte :=
  [byte (s.hlc.executed.length + s.hlc.waiting.length + 1), byte s.hlc.owed, byte s.hlc.outbound.length]

/-- R193: the data of GET_STATUS. -/
def statusData (s : State) : List Byte :=
  timingStatus s ++ outputStatus s ++ cameraStatus s ++ sourceStatus s ++ flagStatus s ++ queueStatus s

/-- GET_STATUS (R193). -/
def execGetStatus (tag : Byte) (payload : List Byte) (s : State) : Result :=
  .next (requestOf 0xA3 tag payload noArg (fun r _ x => answerData r .ok (statusData x) x) s)

end Sys2Proof.Machine
end

