-- ==== Sys2Proof/Machine/PanelCommands.lean ====
section
/-! DEFINITION. The meanings of the commands of Chapters 8 and 9: the panel table, the panel bus, error counts, the events
of the key event queue, functions, bindings, lamps and the system key queue. -/

namespace Sys2Proof.Machine

/-! ### The panel table (R134, R135) -/

/-- R134 check 1: whether the fields given are in range. -/
def PanelArgs.inRange (a : PanelArgs) : Bool :=
  within 0 3 a.access && (match a.ownPort with | some q => within 1 64 q | none => true)

/-- R133, R146: a panel record as it is declared. -/
def PanelArgs.declared (a : PanelArgs) : Panel :=
  { kind := a.kind, access := a.access, domain := a.domain, ownPort := a.ownPort, state := .absent, keyCount := none,
    missed := 0, seqBit := false, page := false, lastRefusal := none, errors := 0, lastWindow := 0, lastError := .none,
    lamps := ⟨[]⟩, scan := 1 }

/-- R134 check 2: whether a panel in a state may change its expected kind. -/
def PanelState.outOfService : PanelState → Bool
  | .absent => true
  | .lost => true
  | _ => false

/-- R134: panel p declared, or its four fields changed, in its turn. -/
def declarePanel (r : Request) (p : Nat) (a : PanelArgs) (s : State) : State :=
  if within 1 32 p && a.inRange then
    match s.panel? p with
    | none => relamp (((answer r .ok s).setPanel p a.declared).setContext p Context.start)
    | some v =>
      if a.kind ≠ v.kind ∧ !v.state.outOfService then answer r .busy s
      else
        relamp ((answer r .ok s).setPanel p
          { v with kind := a.kind, access := a.access, domain := a.domain, ownPort := a.ownPort })
  else answer r .badArg s

/-- R135: panel p removed, in its turn. -/
def undeclarePanel (r : Request) (p : Nat) (s : State) : State :=
  if within 1 32 p then
    match s.panel? p with
    | none => answer r .ok s
    | some v => relamp (removePanel p v (answer r .ok s))
  else answer r .badArg s

/-- R134, R135: a SET_PANEL request, whose form the payload length tells. -/
def setPanelRequest (r : Request) (a : Nat × Option PanelArgs) (s : State) : State :=
  match a.2 with
  | some x => declarePanel r a.1 x s
  | none => undeclarePanel r a.1 s

/-- SET_PANEL (R134).  The payload length tells its form (log entry 16). -/
def execSetPanel (tag : Byte) (payload : List Byte) (s : State) : Result :=
  .next (requestOf 0x80 tag payload panelArgs setPanelRequest s)

/-- SET_PANEL_UNDECLARED (R135).  The payload length tells its form (log entry 16). -/
def execSetPanelUndeclared (tag : Byte) (payload : List Byte) (s : State) : Result :=
  .next (requestOf 0x80 tag payload panelArgs setPanelRequest s)

/-! ### Error counts (R154, R155) -/

/-- R155: SET_COUNT_MODE in its turn. -/
def setCountMode (r : Request) (a : CountMode × Nat) (s : State) : State :=
  if within 1 255 a.2 then
    let s1 := answer r .ok s
    { s1 with pbc := { s1.pbc with mode := a.1, threshold := a.2 } }
  else answer r .badArg s

/-- SET_COUNT_MODE (R155). -/
def execSetCountMode (tag : Byte) (payload : List Byte) (s : State) : Result :=
  .next (requestOf 0x81 tag payload countModeArgs setCountMode s)

/-- R155: COUNTS_SNAPSHOT in its turn. -/
def countsSnapshot (r : Request) (_ : Unit) (s : State) : State :=
  match s.pbc.mode with
  | .auto => answer r .badState s
  | .manual => relamp (transfer (answer r .ok s))

/-- COUNTS_SNAPSHOT (R155). -/
def execCountsSnapshot (tag : Byte) (payload : List Byte) (s : State) : Result :=
  .next (requestOf 0x82 tag payload noArg countsSnapshot s)

/-- R154: the transfer of report mode AUTO.  In MANUAL no transfer happens on the passing of time. -/
def secondTransfer (s : State) : State :=
  match s.pbc.mode with
  | .auto => relamp (transfer s)
  | .manual => s

/-- COUNT_TRANSFER (R154). -/
def execCountTransfer (s : State) : Result := event secondTransfer s

/-! ### Reading the panels and the Function Dispatcher (R158, R179) -/

/-- R158: the record of panel p. -/
def panelData (s : State) (p : Nat) : List Byte :=
  match s.panel? p with
  | none => [yesNo false]
  | some v =>
    [yesNo true, panelKindByte v.kind, byte v.access, domainByte v.domain, optionalByte v.ownPort,
      panelStateByte v.state, optByte v.keyCount, byte v.missed, yesNo v.page] ++ lastRefusalBytes v.lastRefusal ++
      [byte v.scan, byte (count v.differs (numbers 1 64))]

/-- R179: function slot f: whether it is empty, else its kind, arguments, level and domain. -/
def functionData (s : State) (f : Nat) : List Byte :=
  match s.function? f with
  | none => [yesNo true]
  | some v => yesNo false :: (actionBytes v.action ++ [byte v.level, functionDomainByte v.domain])

/-- R179: the 64 bindings of panel p on a page. -/
def bindingsData (s : State) (p : Nat) (page1 : Bool) : List Byte :=
  (numbers 1 64).flatMap fun k => be16 (s.binding p page1 k)

/-- R179: the context of panel p, its held-key records and its counts of pending firings. -/
def contextData (s : State) (p : Nat) : List Byte :=
  optWord (s.context p).dest ++ optWord (s.context p).source ++
    ((numbers 1 64).flatMap fun k => heldBytes (s.held? p k)) ++
    (numbers 1 16).map fun n => byte (s.pendingFirings p n)

/-- A sent value: every bit set for UNKNOWN. -/
def sentByte : Option Lamp → Byte
  | none => allOnes
  | some x => lampByte x

/-- R179: the lamps of panel p. -/
def lampsData (s : State) (p : Nat) : List Byte :=
  match s.panel? p with
  | none => [yesNo false]
  | some v =>
    yesNo true :: (numbers 1 64).flatMap fun k =>
      [lampByte (v.lamp k).desired, sentByte (v.lamp k).sent, lampByte (s.hostLamp p k)]

/-- R158, R179: GET_PANEL in its turn. -/
def getPanel (r : Request) (q : PanelQuery) (s : State) : State :=
  match q with
  | .panel p => if within 1 32 p then answerData r .ok (panelData s p) s else answer r .badArg s
  | .function f => if within 1 511 f then answerData r .ok (functionData s f) s else answer r .badArg s
  | .bindings p page =>
    if within 1 32 p && within 0 1 page then answerData r .ok (bindingsData s p (page == 1)) s else answer r .badArg s
  | .context p => if within 1 32 p then answerData r .ok (contextData s p) s else answer r .badArg s
  | .lamps p => if within 1 32 p then answerData r .ok (lampsData s p) s else answer r .badArg s

/-- GET_PANEL (R158, R179). -/
def execGetPanel (tag : Byte) (payload : List Byte) (s : State) : Result :=
  .next (requestOf 0x83 tag payload panelQuery getPanel s)

/-- R158: the counts of panel p; an undeclared panel has none, and zeros stand in their place (log entry 9). -/
def panelCounts (s : State) (p : Nat) : List Byte :=
  match s.panel? p with
  | none => [0, 0, 0, 0, 0]
  | some v => be16 v.errors ++ be16 v.lastWindow ++ [errorKindByte v.lastError]

/-- A report mode as a byte. -/
def countModeByte : CountMode → Byte
  | .auto => 0
  | .manual => 1

/-- R158: the data of GET_COUNTS. -/
def countData (s : State) : List Byte :=
  (numbers 1 32).flatMap (panelCounts s) ++ [countModeByte s.pbc.mode, byte s.pbc.threshold, byte s.pbc.events.length]

/-- GET_COUNTS (R158). -/
def execGetCounts (tag : Byte) (payload : List Byte) (s : State) : Result :=
  .next (requestOf 0x84 tag payload noArg (fun r _ x => answerData r .ok (countData x) x) s)

/-! ### The panel bus (R136 to R153) -/

/-- PANEL_FRAME_RECEIVED (R139). -/
def execPanelFrameReceived (bytes : List Byte) (s : State) : Result := event (receivePanelFrame bytes) s

/-- TRANSACTION_TIMEOUT (R139). -/
def execTransactionTimeout (s : State) : Result := event timeOut s

/-- EMPTY_CYCLE_END (R137). -/
def execEmptyCycleEnd (s : State) : Result := event endEmptyCycle s

/-! ### Events of the key event queue (R164) -/

/-- KEY_PRESS (R165). -/
def execKeyPress (panel key : Nat) (s : State) : Result :=
  event (takeEvent ⟨panel, .press key⟩ fun x => relamp (handlePress panel key x)) s

/-- KEY_RELEASE (R170). -/
def execKeyRelease (panel key : Nat) (s : State) : Result :=
  event (takeEvent ⟨panel, .release key⟩ fun x => relamp (handleRelease panel key x)) s

/-- KNOB (R81). -/
def execKnob (panel : Nat) (delta : Int) (s : State) : Result :=
  event (takeEvent ⟨panel, .knob delta⟩ (handleKnob panel delta)) s

/-- BUS_STATE (R48). -/
def execBusState (panel bus input : Nat) (s : State) : Result :=
  event (takeEvent ⟨panel, .busState bus input⟩ fun x => relamp (applyBusState panel bus input x)) s

/-! ### Functions, bindings and lamps (R160, R162, R177) -/

/-- R159, R160: whether the arguments of a function are in range.  The validity of a talk target, the range of its number
included (R83), is not checked here (log entry 17). -/
def FunctionAction.inRange : FunctionAction → Bool
  | .routeTake d _ x => within 1 256 d && within 0 256 x
  | .selectDest d => within 1 256 d
  | .presetSource x => within 0 256 x
  | .takePreset _ => true
  | .salvoFire n => within 1 16 n
  | .protectToggle d => match d with | some d => within 1 256 d | none => true
  | .talk _ _ _ x p => withinInt (-80) 12 x && within 0 7 p
  | .call c => within 1 24 c
  | .pageToggle => true
  | .systemKey c => within 0 255 c

/-- R160: SET_FUNCTION in its turn. -/
def setFunction (r : Request) (a : Nat × Option KeyFunction) (s : State) : State :=
  if within 1 511 a.1 && (match a.2 with | some v => v.action.inRange && within 0 3 v.level | none => true) then
    let s1 := answer r .ok s
    relamp { s1 with fd := { s1.fd with functions :=
      match a.2 with
      | some v => s1.fd.functions.put a.1 v
      | none => s1.fd.functions.erase a.1 } }
  else answer r .badArg s

/-- SET_FUNCTION (R160). -/
def execSetFunction (tag : Byte) (payload : List Byte) (s : State) : Result :=
  .next (requestOf 0x90 tag payload functionArgs setFunction s)

/-- R162 check 6: whether the target of a TALK function is valid. -/
def State.bindable (s : State) : FunctionAction → Bool
  | .talk t _ _ _ _ => s.targetValid t
  | _ => true

/-- R162: checks 2 to 6 of a binding of function f to panel p: the reply code of the first that fails. -/
def State.bindingRefusal (s : State) (p f : Nat) : Option ReplyCode :=
  if f = 0 then none
  else
    match s.function? f with
    | none => some .badArg
    | some v =>
      match s.panel? p with
      | none => some .badState
      | some x => if !v.allows x then some .denied else if !s.bindable v.action then some .badTarget else none

/-- R161: the binding of key k on a page of panel p written. -/
def writeBinding (p : Nat) (page1 : Bool) (k f : Nat) (s : State) : State :=
  let b := s.bindings p
  let b1 := if page1 then { b with page1 := b.page1.set 0 k f } else { b with page0 := b.page0.set 0 k f }
  { s with fd := { s.fd with bindings := s.fd.bindings.set Bindings.start p b1 } }

/-- R162: SET_BINDING in its turn. -/
def setBinding (r : Request) (a : Nat × Nat × Nat × Nat) (s : State) : State :=
  match a with
  | (p, page, k, f) =>
    if within 1 32 p && within 0 1 page && within 1 64 k && within 0 511 f then
      match s.bindingRefusal p f with
      | some code => answer r code s
      | none => relamp (writeBinding p (page == 1) k f (answer r .ok s))
    else answer r .badArg s

/-- SET_BINDING (R162). -/
def execSetBinding (tag : Byte) (payload : List Byte) (s : State) : Result :=
  .next (requestOf 0x91 tag payload bindingArgs setBinding s)

/-- R177: SET_LAMP in its turn. -/
def setHostLamp (r : Request) (a : Nat × Nat × Lamp) (s : State) : State :=
  match a with
  | (p, k, x) =>
    if within 1 32 p && within 1 64 k then relamp ((answer r .ok s).setHostLamp p k x) else answer r .badArg s

/-- SET_LAMP (R177). -/
def execSetLamp (tag : Byte) (payload : List Byte) (s : State) : Result :=
  .next (requestOf 0x92 tag payload lampArgs setHostLamp s)

/-- R173, R196: an entry of the system key queue. -/
def systemKeyBytes (e : SystemKeyEntry) : List Byte := [byte e.panel, byte e.key, byte e.code, yesNo e.release]

/-- R173: GET_SYSTEM_KEYS in its turn. -/
def getSystemKeys (r : Request) (_ : Unit) (s : State) : State :=
  answerData r .ok (counted (s.fd.systemKeys.map systemKeyBytes)) { s with fd := { s.fd with systemKeys := [] } }

/-- GET_SYSTEM_KEYS (R173). -/
def execGetSystemKeys (tag : Byte) (payload : List Byte) (s : State) : Result :=
  .next (requestOf 0x93 tag payload noArg getSystemKeys s)

end Sys2Proof.Machine
end

