-- ==== Sys2Proof/Machine/RouteCommands.lean ====
section
/-! DEFINITION. The meanings of the commands of Chapters 1 and 2: the destination table, the fabric devices, takes,
salvos, the frame reference and the switch window. -/

namespace Sys2Proof.Machine

/-! ### The destination table (R3, R7, R8) -/

/-- R3: SET_DEST_DOMAIN in its turn. -/
def setDestDomain (r : Request) (a : Nat × DestDomain) (s : State) : State :=
  if within 1 256 a.1 then relamp ((answer r .ok s).setDest a.1 { s.dest a.1 with domain := a.2 })
  else answer r .badArg s

/-- SET_DEST_DOMAIN (R3). -/
def execSetDestDomain (tag : Byte) (payload : List Byte) (s : State) : Result :=
  .next (requestOf 0x10 tag payload destDomainArgs setDestDomain s)

/-- R7: a host protect change to `v` in its turn. -/
def hostProtect (v : Protect) (r : Request) (d : Nat) (s : State) : State :=
  if within 1 256 d then relamp ((answer r .ok s).setProtect d v) else answer r .badArg s

/-- PROTECT (R7). -/
def execProtect (tag : Byte) (payload : List Byte) (s : State) : Result :=
  .next (requestOf 0x11 tag payload wordArg (hostProtect .systemLock) s)

/-- UNPROTECT (R7). -/
def execUnprotect (tag : Byte) (payload : List Byte) (s : State) : Result :=
  .next (requestOf 0x12 tag payload wordArg (hostProtect .none) s)

/-- PROTECT_ALL (R8). -/
def execProtectAll (tag : Byte) (payload : List Byte) (s : State) : Result :=
  .next (requestOf 0x13 tag payload noArg (fun r _ x => relamp (rewriteProtects lockedBy (answer r .ok x))) s)

/-- RELEASE_ALL (R8). -/
def execReleaseAll (tag : Byte) (payload : List Byte) (s : State) : Result :=
  .next (requestOf 0x14 tag payload noArg (fun r _ x => relamp (rewriteProtects releasedBy (answer r .ok x))) s)

/-! ### Fabric devices (R11 to R20) -/

/-- R11 check 1: the ranges of the arguments of SET_FABRIC. -/
def FabricArgs.inRange (a : FabricArgs) : Bool :=
  within 1 8 a.device && within 1 256 a.first && within 1 256 a.last && decide (a.first ≤ a.last) && within 1 63 a.address

/-- R11: SET_FABRIC in its turn. -/
def setFabric (r : Request) (a : FabricArgs) (s : State) : State :=
  if !a.inRange then answer r .badArg s
  else if (s.device? a.device).isSome then answer r .badState s
  else if s.rangeTaken a.level a.first a.last then answer r .badArg s
  else if s.addressTaken a.address then answer r .badArg s
  else relamp (mapDevice a.device a (answer r .ok s))

/-- SET_FABRIC (R11, R13). -/
def execSetFabric (tag : Byte) (payload : List Byte) (s : State) : Result :=
  .next (requestOf 0x15 tag payload fabricArgs setFabric s)

/-- R13: FABRIC_RETRY in its turn. -/
def fabricRetry (r : Request) (n : Nat) (s : State) : State :=
  if within 1 8 n then
    match s.device? n with
    | none => answer r .badState s
    | some v => if v.inReadback then answer r .busy s else relamp (retryDevice n v (answer r .ok s))
  else answer r .badArg s

/-- FABRIC_RETRY (R13). -/
def execFabricRetry (tag : Byte) (payload : List Byte) (s : State) : Result :=
  .next (requestOf 0x16 tag payload byteArg fabricRetry s)

/-- READBACK_COMPLETION (R14, R16). -/
def execReadbackCompletion (device : Nat) (sources : List Nat) (s : State) : Result :=
  event (completeReadback device sources) s

/-- READBACK_FAILURE (R15, R16). -/
def execReadbackFailure (device : Nat) (s : State) : Result := event (failReadback device) s

/-- DISCARDED_READBACK_ANSWER (R15, R19): no destination level and no device state changes. -/
def execDiscardedReadbackAnswer (_device : Nat) (_sources : List Nat) (s : State) : Result := .next s

/-- R20, R196: what GET_ROUTE gives of one level of destination d. -/
def routeLevelBytes (s : State) (d : Nat) (l : Level) : List Byte :=
  match s.levelAt d l with
  | .notFitted => [allOnes, allOnes]
  | .fitted x f =>
    be16 x ++ [yesNo f, byte (s.deviceNumber d l), phaseByte ((s.deviceOf? d l).map fun e => e.2.phase)]

/-- R20: the data of GET_ROUTE(DEST, d). -/
def destData (s : State) (d : Nat) : List Byte :=
  destDomainByte (s.dest d).domain :: (protectBytes (s.dest d).protect ++ levels.flatMap (routeLevelBytes s d))

/-- R20: the data of GET_ROUTE(DEVICE, n). -/
def deviceData (s : State) (n : Nat) : List Byte :=
  match s.device? n with
  | none => [phaseByte none]
  | some v => [phaseByte (some v.phase), levelByte v.level] ++ be16 v.first ++ be16 v.last ++ [byte v.address]

/-- R20: GET_ROUTE in its turn. -/
def getRoute (r : Request) (q : RouteQuery) (s : State) : State :=
  match q with
  | .dest d => if within 1 256 d then answerData r .ok (destData s d) s else answer r .badArg s
  | .device n => if within 1 8 n then answerData r .ok (deviceData s n) s else answer r .badArg s

/-- GET_ROUTE (R20). -/
def execGetRoute (tag : Byte) (payload : List Byte) (s : State) : Result :=
  .next (requestOf 0x17 tag payload routeQuery getRoute s)

/-! ### Takes and salvos (R21 to R28) -/

/-- R22: the take that a host request offers. -/
def hostTake (tag : Byte) (a : TakeArgs) (s : State) : Except Reason State :=
  match a.mask, a.force with
  | some m, some f => offerTake ⟨a.dest, m, a.source, .system tag, f⟩ s
  | _, _ => .error .badArg

/-- R22, R185: TAKE in its turn.  An accepted take owes its reply. -/
def take (r : Request) (a : TakeArgs) (s : State) : State :=
  if Config.owedLimit ≤ s.hlc.owed then answer r .busy s
  else
    match hostTake r.tag a s with
    | .ok t => relamp (deferReply t)
    | .error why => answer r why.code s

/-- TAKE (R22). -/
def execTake (tag : Byte) (payload : List Byte) (s : State) : Result :=
  .next (requestOf 0x20 tag payload takeArgs take s)

/-- R26: one entry of a SALVO_STORE, when its values are in range. -/
def storedEntry (x : Nat × Option LevelMask × Nat) : Option StoredEntry :=
  match x.2.1 with
  | some m => if within 1 256 x.1 && within 0 256 x.2.2 then some ⟨x.1, m, x.2.2⟩ else none
  | none => none

/-- R26: SALVO_STORE in its turn. -/
def salvoStore (r : Request) (a : Nat × List (Nat × Option LevelMask × Nat)) (s : State) : State :=
  if within 1 16 a.1 && decide (a.2.length ≤ 32) && a.2.all fun x => (storedEntry x).isSome then
    let s1 := answer r .ok s
    { s1 with rc := { s1.rc with salvos := s1.rc.salvos.set [] a.1 (a.2.filterMap storedEntry) } }
  else answer r .badArg s

/-- SALVO_STORE (R26). -/
def execSalvoStore (tag : Byte) (payload : List Byte) (s : State) : Result :=
  .next (requestOf 0x21 tag payload salvoStoreArgs salvoStore s)

/-- R27, R185: SALVO_FIRE in its turn.  An accepted firing owes its reply. -/
def salvoFire (r : Request) (a : Nat × Option Bool) (s : State) : State :=
  if Config.owedLimit ≤ s.hlc.owed then answer r .busy s
  else
    match a.2 with
    | none => answer r .badArg s
    | some f =>
      if within 1 16 a.1 then
        match fireSalvo a.1 (.system r.tag) f s with
        | .busy => answer r .busy s
        | .ended counts => answerData r .done (countsBytes counts) s
        | .accepted t => relamp (deferReply t)
      else answer r .badArg s

/-- SALVO_FIRE (R27, R28). -/
def execSalvoFire (tag : Byte) (payload : List Byte) (s : State) : Result :=
  .next (requestOf 0x22 tag payload salvoFireArgs salvoFire s)

/-! ### The frame reference and the switch window (R29 to R41) -/

/-- The payload of SET_FRAME_FAMILY. -/
def familyArgs : List Byte → Option FrameFamily
  | [b] => familyOf b
  | _ => none

/-- SET_FRAME_FAMILY (R29). -/
def execSetFrameFamily (tag : Byte) (payload : List Byte) (s : State) : Result :=
  .next (requestOf 0x23 tag payload familyArgs (fun r f x => changeFamily f (answer r .ok x)) s)

/-- REFERENCE_PULSE (R30, R32, R34). -/
def execReferencePulse (time : Nat) (s : State) : Result := event (pulse time) s

/-- LOSS_TIMER_EXPIRY (R30, R34). -/
def execLossTimerExpiry (s : State) : Result := event loseReference s

/-- FLYWHEEL_POINT (R31, R34). -/
def execFlywheelPoint (s : State) : Result := event flywheel s

/-- CROSSPOINT_ANSWER (R38). -/
def execCrosspointAnswer (window dest : Nat) (level : Level) (acknowledged : Bool) (s : State) : Result :=
  event (takeAnswer window dest level acknowledged) s

/-- WINDOW_EXPIRY (R38). -/
def execWindowExpiry (s : State) : Result := event expireWindow s

end Sys2Proof.Machine
end

