-- ==== Sys2Proof/Machine/TalkCommands.lean ====
section
/-! DEFINITION. The meanings of the commands of Chapters 5 and 6: ports, groups, system talks, the AUTO timer, IFBs and
the reading of the talk and path tables. -/

namespace Sys2Proof.Machine

/-! ### Ports and groups (R80, R82) -/

/-- R79: whether an optional ceiling is in range. -/
def ceilingInRange : Option Int → Bool
  | none => true
  | some c => withinInt (-40) 24 c

/-- R79: whether a port record is in range. -/
def Port.inRange (v : Port) : Bool :=
  withinInt (-24) 24 v.trim && withinInt (-120) 0 v.volume && withinInt (-60) 0 v.dim &&
    ceilingInRange v.ceiling && ceilingInRange v.talkerCeiling

/-- R80 check 2: whether port q is in use by a talk, a group or an IFB. -/
def State.portInUse (s : State) (q : Nat) : Bool :=
  (s.tc.talks.any fun t => t.talker == q || t.target == .port q) ||
    (s.tc.groups.values.any fun g => g.contains q) ||
    s.tc.ifbs.values.any fun i => i.output == q || i.program == q

/-- R80: SET_PORT in its turn. -/
def setPortRecord (r : Request) (a : Nat × Port) (s : State) : State :=
  if within 1 64 a.1 && a.2.inRange then
    if a.2.role ≠ (s.port a.1).role ∧ s.portInUse a.1 then answer r .busy s
    else recompute ((answer r .ok s).setPort a.1 a.2)
  else answer r .badArg s

/-- SET_PORT (R80). -/
def execSetPort (tag : Byte) (payload : List Byte) (s : State) : Result :=
  .next (requestOf 0x50 tag payload portArgs setPortRecord s)

/-- R82: SET_GROUP in its turn. -/
def setGroup (r : Request) (a : Nat × List Nat) (s : State) : State :=
  if within 1 16 a.1 && decide (a.2.length ≤ 16) && a.2.all (within 1 64) && noRepeats a.2 then
    if a.2.any fun q => (s.port q).role != .normal then answer r .badState s
    else if s.tc.talks.any fun t => t.target == .group a.1 then answer r .busy s
    else
      let s1 := answer r .ok s
      { s1 with tc := { s1.tc with groups := s1.tc.groups.set [] a.1 (asPortSet a.2) } }
  else answer r .badArg s

/-- SET_GROUP (R82). -/
def execSetGroup (tag : Byte) (payload : List Byte) (s : State) : Result :=
  .next (requestOf 0x51 tag payload groupArgs setGroup s)

/-! ### System talks (R93, R94) -/

/-- R93 step 1: whether the arguments of TALK_ON are in range. -/
def TalkOnArgs.inRange (a : TalkOnArgs) : Bool :=
  within 1 8 a.slot && within 1 64 a.talker && withinInt (-80) 12 a.level && within 0 7 a.priority

/-- R93 step 4: the talk of a system slot, if any, ends. -/
def endSlot (slot : Nat) (s : State) : State := endTalks ((s.slotTalk? slot).map (·.id)).toList s

/-- The offer of a TALK_ON (R86, R93). -/
def TalkOnArgs.offered (a : TalkOnArgs) : TalkOffer := ⟨some a.talker, a.target, a.level, a.priority, .system a.slot, a.domain⟩

/-- R93: TALK_ON in its turn.  The talk of the slot ends before the new one is offered.  The reply stands before the flags that
the execution raises (log entry 7). -/
def talkOn (r : Request) (a : TalkOnArgs) (s : State) : State :=
  if a.inRange then
    if (s.port a.talker).role ≠ .normal then answer r .noPort s
    else if !s.targetValid a.target then answer r .badTarget s
    else
      match (endSlot a.slot s).offerRefusal a.offered with
      | some why => relamp (endSlot a.slot (answer r why.code s))
      | none =>
        let s1 := endSlot a.slot (answer r .ok s)
        relamp (createTalk (s1.newTalk a.offered a.talker) s1)
  else answer r .badArg s

/-- TALK_ON (R93). -/
def execTalkOn (tag : Byte) (payload : List Byte) (s : State) : Result :=
  .next (requestOf 0x52 tag payload talkOnArgs talkOn s)

/-- R94: TALK_OFF in its turn. -/
def talkOff (r : Request) (slot : Nat) (s : State) : State :=
  if within 1 8 slot then relamp (endSlot slot (answer r .ok s)) else answer r .badArg s

/-- TALK_OFF (R94). -/
def execTalkOff (tag : Byte) (payload : List Byte) (s : State) : Result :=
  .next (requestOf 0x53 tag payload byteArg talkOff s)

/-- AUTO_TIMER_EXPIRY (R91). -/
def execAutoTimerExpiry (panel key : Nat) (s : State) : Result := event (fun x => relamp (expireTimer panel key x)) s

/-! ### Reading the talk and path tables (R100, R119) -/

/-- R100, R196: a talk record of 14 bytes, or one byte 0 where no talk holds the id. -/
def talkSlotBytes (s : State) (id : Nat) : List Byte :=
  match s.talk? id with
  | some t => talkBytes t
  | none => [0]

/-- R100: the talk records with ids first..first+15 and the total of reservations. -/
def talksData (s : State) (first : Nat) : List Byte :=
  (numbers first (first + 15)).flatMap (talkSlotBytes s) ++ be16 (totalReservations s.tc.talks)

/-- R100: the id of the talk of each slot 1..8, or empty. -/
def slotsData (s : State) : List Byte := (numbers 1 8).map fun n => optByte ((s.slotTalk? n).map (·.id))

/-- R100: the key talk states of panel p. -/
def keysData (s : State) (p : Nat) : List Byte := (numbers 1 64).flatMap fun k => keyTalkBytes (s.key p k)

/-- R119, R196: the fields of a path's admission. -/
def admissionBytes : Admission → List Byte
  | .admitted n c => be32 n ++ coefficientBytes c
  | .starved => []

/-- R119, R196: a path as GET_PATHS(LISTENER) gives it.  A PROGRAM path has no path level and no oldest talk. -/
def pathBytes (s : State) (p : Path) : List Byte :=
  (match p.kind with | .talk => [0] | .program n => [1, byte n]) ++
    [byte p.talker, yesNo (!p.isAdmitted), byte p.priority] ++
    (match p.kind with | .talk => [stepsByte p.level] | .program _ => []) ++
    counted (p.talks.map fun id => [byte id]) ++
    (match p.kind with | .talk => be32 (s.oldestCreation p) | .program _ => []) ++
    admissionBytes p.admission

/-- R119: the paths into port q, from the first-th on, at most 2. -/
def listenerData (s : State) (q first : Nat) : List Byte :=
  counted ((((s.tme.paths.filter fun p => p.listener == q).drop (first - 1)).take 2).map (pathBytes s))

/-- R119: the starved paths in the order of the re-admission pass, from the first-th on, at most 16. -/
def starvedData (s : State) (first : Nat) : List Byte :=
  counted (((inOrder (candidateBefore s) (s.tme.paths.filter fun p => !p.isAdmitted)).drop (first - 1)).take 16
    |>.map fun p => [byte p.talker, byte p.listener, byte p.priority])

/-- R119: the counts of the path table. -/
def countsData (s : State) : List Byte :=
  be16 (count Path.isTalk s.tme.paths) ++ [byte (count (fun p => !p.isTalk) s.tme.paths)] ++
    be16 (admittedCount s.tme.paths) ++ be16 (count (fun p => !p.isAdmitted) s.tme.paths) ++
    (numbers 1 64).map fun q => byte (admittedInto s.tme.paths q)

/-- R100, R119: GET_PATHS in its turn. -/
def getPaths (r : Request) (q : PathsQuery) (s : State) : State :=
  match q with
  | .talks first => if within 1 96 first then answerData r .ok (talksData s first) s else answer r .badArg s
  | .slots => answerData r .ok (slotsData s) s
  | .port n => if within 1 64 n then answerData r .ok (portBytes (s.port n)) s else answer r .badArg s
  | .group g =>
    if within 1 16 g then answerData r .ok (counted ((s.group g).map fun x => [byte x])) s else answer r .badArg s
  | .keys p => if within 1 32 p then answerData r .ok (keysData s p) s else answer r .badArg s
  | .listener n first =>
    if within 1 64 n && within 1 64 first then answerData r .ok (listenerData s n first) s else answer r .badArg s
  | .starved first => if within 1 512 first then answerData r .ok (starvedData s first) s else answer r .badArg s
  | .counts => answerData r .ok (countsData s) s

/-- GET_PATHS (R100, R119). -/
def execGetPaths (tag : Byte) (payload : List Byte) (s : State) : Result :=
  .next (requestOf 0x54 tag payload pathsQuery getPaths s)

/-! ### IFBs (R104, R119) -/

/-- R104 check 1: whether the arguments of a configuring SET_IFB are in range. -/
def IfbArgs.inRange (a : IfbArgs) : Bool :=
  within 1 64 a.output && within 1 64 a.program && (match a.duck with | some d => withinInt (-60) 0 d | none => true)

/-- R104 check 2: the roles of the ports, and the output port of no other IFB. -/
def State.ifbPortsFit (s : State) (n : Nat) (a : IfbArgs) : Bool :=
  (s.port a.output).role == .ifbOutput && (s.port a.program).role == .programInput &&
    !s.tc.ifbs.entries.any fun e => e.1 != n && e.2.output == a.output

/-- R104: whether some talk of the talk set has target IFB(n). -/
def State.ifbAddressed (s : State) (n : Nat) : Bool := s.tc.talks.any fun t => t.target == .ifb n

/-- R104, R115: IFB n configured with the arguments given. -/
def State.configuredIfb (s : State) (n : Nat) (a : IfbArgs) : Ifb :=
  match s.ifb? n with
  | none => ⟨a.output, a.program, a.duck, a.noPreempt, none, 0, []⟩
  | some i =>
    let j := { i with output := a.output, program := a.program, duck := a.duck, noPreempt := a.noPreempt }
    if i.noPreempt && !a.noPreempt then s.rearbitrate j else j

/-- R104: IFB n written, with the handling that follows and the announcement of a new interrupter (R117). -/
def writeIfb (n : Nat) (v : Option Ifb) (s : State) : State :=
  let s1 := { s with tc := { s.tc with ifbs :=
    match v with
    | some i => s.tc.ifbs.put n i
    | none => s.tc.ifbs.erase n } }
  announceInterrupters s (handling s (resolveAgain Talk.toIfb s1))

/-- R104 check 3: whether a configuration changes the output port or the program port of IFB n. -/
def State.ifbPortsChange (s : State) (n : Nat) (a : IfbArgs) : Bool :=
  match s.ifb? n with
  | none => false
  | some i => i.output != a.output || i.program != a.program

/-- R104: SET_IFB in its turn. -/
def setIfb (r : Request) (a : Nat × Option IfbArgs) (s : State) : State :=
  if within 1 16 a.1 && (match a.2 with | some x => x.inRange | none => true) then
    match a.2 with
    | none =>
      if s.ifbAddressed a.1 then answer r .busy s else relamp (writeIfb a.1 none (answer r .ok s))
    | some x =>
      if !s.ifbPortsFit a.1 x then answer r .badState s
      else if s.ifbPortsChange a.1 x && s.ifbAddressed a.1 then answer r .busy s
      else if s.ifb? a.1 = some (s.configuredIfb a.1 x) then answer r .ok s
      else relamp (writeIfb a.1 (some (s.configuredIfb a.1 x)) (answer r .ok s))
  else answer r .badArg s

/-- SET_IFB (R104). -/
def execSetIfb (tag : Byte) (payload : List Byte) (s : State) : Result :=
  .next (requestOf 0x60 tag payload ifbArgs setIfb s)

/-- R119: the record of IFB n.  The ids of its priority-0 talks stand in the order of the talk set, that of creation (DESIGN
CHOICE, log entry 29). -/
def ifbData (s : State) (n : Nat) : List Byte :=
  match s.ifb? n with
  | none => [yesNo false]
  | some i =>
    [yesNo true, byte i.output, byte i.program, ceilingByte i.duck, yesNo i.noPreempt, optByte i.current, byte i.level] ++
      counted (i.pending.map fun id => [byte id]) ++
      counted ((s.tc.talks.filter fun t => t.target == .ifb n && t.priority == 0).map fun t => [byte t.id])

/-- R119: GET_IFB in its turn. -/
def getIfb (r : Request) (n : Nat) (s : State) : State :=
  if within 1 16 n then answerData r .ok (ifbData s n) s else answer r .badArg s

/-- GET_IFB (R119). -/
def execGetIfb (tag : Byte) (payload : List Byte) (s : State) : Result :=
  .next (requestOf 0x61 tag payload byteArg getIfb s)

end Sys2Proof.Machine
end

