-- ==== Sys2Proof/Machine/TallyCommands.lean ====
section
/-! DEFINITION. The meanings of the commands of Chapters 3 and 4: tally roots, mixers, maps and ties, cameras, tally
outputs, and the lamp sense lines. -/

namespace Sys2Proof.Machine

/-! ### Roots and mixers (R44, R46, R47) -/

/-- R44: whether the kind of a root is in range. -/
def RootKind.inRange : RootKind → Bool
  | .dest d _ => within 1 256 d
  | .mixerBus m b => within 1 2 m && within 1 8 b

/-- A change of the Tally Tracer's state that is a trigger of recomputation (R58), after the reply OK, with the lamps that
follow a tally change (R176). -/
def triggered (r : Request) (write : TallyTracer → TallyTracer) (s : State) : State :=
  relamp (recomputeTally { answer r .ok s with tt := write s.tt })

/-- R44: SET_ROOT in its turn. -/
def setRoot (r : Request) (a : RootArgs) (s : State) : State :=
  if within 1 16 a.root && a.config.kind.inRange then
    triggered r (fun t => { t with
      roots := t.roots.put a.root { s.root a.root with enabled := a.enabled, config := some a.config } }) s
  else answer r .badArg s

/-- SET_ROOT (R44). -/
def execSetRoot (tag : Byte) (payload : List Byte) (s : State) : Result :=
  .next (requestOf 0x30 tag payload rootArgs setRoot s)

/-- R46: whether a state source is in range. -/
def MixerSource.inRange : MixerSource → Bool
  | .system => true
  | .bridge p => within 1 32 p

/-- R46: SET_MIXER in its turn. -/
def setMixerSource (r : Request) (a : Nat × MixerSource) (s : State) : State :=
  if within 1 2 a.1 && a.2.inRange then
    if a.2 ≠ .system ∧ (s.mixer (3 - a.1)).source = a.2 then answer r .badState s
    else if (s.mixer a.1).source = a.2 then answer r .ok s
    else (answer r .ok s).setMixer a.1 { (s.mixer a.1).allStale with source := a.2 }
  else answer r .badArg s

/-- SET_MIXER (R46). -/
def execSetMixer (tag : Byte) (payload : List Byte) (s : State) : Result :=
  .next (requestOf 0x31 tag payload mixerArgs setMixerSource s)

/-- R47: bus selections applied to a mixer. -/
def Mixer.select (v : Mixer) (xs : List (Nat × Nat)) : Mixer :=
  xs.foldl (fun x e => x.setBus e.1 { selection := e.2, stale := false }) v

/-- R47: whether a list of selections is in range. -/
def selectionsInRange (xs : List (Nat × Nat)) : Bool :=
  within 1 8 xs.length && xs.all (fun e => within 1 8 e.1 && within 0 48 e.2) && noRepeats (xs.map Prod.fst)

/-- R47: MIXER_STATE in its turn. -/
def mixerState (r : Request) (a : Nat × List (Nat × Nat)) (s : State) : State :=
  if within 1 2 a.1 && selectionsInRange a.2 then
    if (s.mixer a.1).source = .system then
      triggered r (fun t => { t with mixers := t.mixers.set Mixer.start a.1 ((s.mixer a.1).select a.2) }) s
    else answer r .badState s
  else answer r .badArg s

/-- MIXER_STATE (R47). -/
def execMixerState (tag : Byte) (payload : List Byte) (s : State) : Result :=
  .next (requestOf 0x32 tag payload mixerStateArgs mixerState s)

/-! ### Maps and ties (R50, R51) -/

/-- R50: pairs written into an input map. -/
def writeMap (xs : List (Nat × Option Nat)) (t : Table Nat) : Table Nat :=
  xs.foldl (fun x e => match e.2 with | some d => x.put e.1 d | none => x.erase e.1) t

/-- R50: whether a list of map entries is in range. -/
def mapInRange (xs : List (Nat × Option Nat)) : Bool :=
  within 1 48 xs.length &&
    xs.all (fun e => within 1 48 e.1 && match e.2 with | some d => within 1 256 d | none => true) &&
    noRepeats (xs.map Prod.fst)

/-- R50: SET_MIXER_MAP in its turn. -/
def setMixerMap (r : Request) (a : Nat × List (Nat × Option Nat)) (s : State) : State :=
  if within 1 2 a.1 && mapInRange a.2 then
    triggered r (fun t =>
      if a.1 = 1 then { t with inputMap1 := writeMap a.2 t.inputMap1 }
      else { t with inputMap2 := writeMap a.2 t.inputMap2 }) s
  else answer r .badArg s

/-- SET_MIXER_MAP (R50). -/
def execSetMixerMap (tag : Byte) (payload : List Byte) (s : State) : Result :=
  .next (requestOf 0x33 tag payload mixerMapArgs setMixerMap s)

/-- R51: SET_TIE in its turn. -/
def setTie (r : Request) (a : Nat × Nat) (s : State) : State :=
  if within 1 256 a.1 && within 1 256 a.2 then
    if (s.tie? a.1).isNone && decide (Config.tiePlaces ≤ s.tt.ties.entries.length) then answer r .noSpace s
    else triggered r (fun t => { t with ties := t.ties.put a.1 a.2 }) s
  else answer r .badArg s

/-- SET_TIE (R51). -/
def execSetTie (tag : Byte) (payload : List Byte) (s : State) : Result :=
  .next (requestOf 0x34 tag payload tieArgs setTie s)

/-- R51: CLEAR_TIE in its turn. -/
def clearTie (r : Request) (x : Nat) (s : State) : State :=
  if within 1 256 x then triggered r (fun t => { t with ties := t.ties.erase x }) s else answer r .badArg s

/-- CLEAR_TIE (R51). -/
def execClearTie (tag : Byte) (payload : List Byte) (s : State) : Result :=
  .next (requestOf 0x35 tag payload wordArg clearTie s)

/-! ### Reading the Tally Tracer (R62) -/

/-- R62: the colour sets of sources first..first+63, or of first..256 when fewer remain. -/
def sourcesData (s : State) (first : Nat) : List Byte :=
  (numbers first (min (first + 63) 256)).flatMap fun x => [colourSetByte (s.colours .a x), colourSetByte (s.colours .b x)]

/-- R62: a root's record. -/
def rootData (s : State) (r : Nat) : List Byte :=
  yesNo (s.root r).enabled ::
    (rootConfigBytes (s.root r).config ++ traceResultBytes (s.root r).last ++ traceFaultBytes (s.root r).fault)

/-- R62: a mixer's state source and its buses. -/
def mixerData (s : State) (m : Nat) : List Byte :=
  mixerSourceByte (s.mixer m).source ::
    (numbers 1 8).flatMap fun b => [byte ((s.mixer m).bus b).selection, yesNo ((s.mixer m).bus b).stale]

/-- R62: the input map of a mixer. -/
def mapData (s : State) (m : Nat) : List Byte := (numbers 1 48).flatMap fun i => optWord (s.mapEntry m i)

/-- R62: the tie map. -/
def tiesData (s : State) : List Byte := counted (s.tt.ties.entries.map fun e => be16 e.1 ++ be16 e.2)

/-- R62: GET_TALLY in its turn. -/
def getTally (r : Request) (q : TallyQuery) (s : State) : State :=
  match q with
  | .sources first => if within 1 256 first then answerData r .ok (sourcesData s first) s else answer r .badArg s
  | .root n => if within 1 16 n then answerData r .ok (rootData s n) s else answer r .badArg s
  | .mixer m => if within 1 2 m then answerData r .ok (mixerData s m) s else answer r .badArg s
  | .map m => if within 1 2 m then answerData r .ok (mapData s m) s else answer r .badArg s
  | .ties => answerData r .ok (tiesData s) s

/-- GET_TALLY (R62). -/
def execGetTally (tag : Byte) (payload : List Byte) (s : State) : Result :=
  .next (requestOf 0x36 tag payload tallyQuery getTally s)

/-! ### Cameras and tally outputs (R65 to R77) -/

/-- Whether an optional number, when present, is in 1..hi. -/
def optionalWithin (hi : Nat) : Option Nat → Bool
  | none => true
  | some n => within 1 hi n

/-- R65: whether a camera record is in range. -/
def Camera.inRange (v : Camera) : Bool :=
  within 1 256 v.source && optionalWithin 64 v.port && optionalWithin 48 v.output

/-- R65: camera record c written, or unset. -/
def writeCamera (c : Nat) (v : Option Camera) (s : State) : State :=
  { s with tou := { s.tou with cameras :=
      match v with
      | some x => s.tou.cameras.put c x
      | none => s.tou.cameras.erase c } }

/-- R98: the domains of camera c before and after a write. -/
def cameraDomains (old new : Option Camera) : List Domain :=
  (old.map (·.domain)).toList ++ (new.map (·.domain)).toList

/-- R65: SET_CAMERA in its turn. -/
def setCamera (r : Request) (a : Nat × Option Camera) (s : State) : State :=
  if within 1 24 a.1 && (match a.2 with | some v => v.inRange | none => true) then
    relamp (cameraChange a.1 (cameraDomains (s.camera? a.1) a.2) (driveAll (writeCamera a.1 a.2 (answer r .ok s))))
  else answer r .badArg s

/-- SET_CAMERA (R65). -/
def execSetCamera (tag : Byte) (payload : List Byte) (s : State) : Result :=
  .next (requestOf 0x40 tag payload cameraArgs setCamera s)

/-- R67: whether an output configuration is in range. -/
def OutputConfig.inRange (v : OutputConfig) : Bool := within 0 256 v.source && !v.mask.isEmpty

/-- R67: SET_OUTPUT in its turn. -/
def setTallyOutput (r : Request) (a : Nat × Option OutputConfig) (s : State) : State :=
  if within 1 48 a.1 && (match a.2 with | some v => v.inRange | none => true) then writeOutput a.1 a.2 (answer r .ok s)
  else answer r .badArg s

/-- SET_OUTPUT (R67). -/
def execSetOutput (tag : Byte) (payload : List Byte) (s : State) : Result :=
  .next (requestOf 0x41 tag payload outputArgs setTallyOutput s)

/-- R75: LAMP_CLEAR in its turn. -/
def lampClear (r : Request) (n : Nat) (s : State) : State :=
  if within 1 48 n then setFault n .ok (answer r .ok s) else answer r .badArg s

/-- LAMP_CLEAR (R75). -/
def execLampClear (tag : Byte) (payload : List Byte) (s : State) : Result :=
  .next (requestOf 0x42 tag payload byteArg lampClear s)

/-- FLASH_CLOCK_HALF (R66): the common flash clock passes into its other half. -/
def execFlashClockHalf (s : State) : Result := .next { s with tou := { s.tou with flashLit := !s.tou.flashLit } }

/-- LOAD_SAMPLE (R73). -/
def execLoadSample (output : Nat) (current : Bool) (s : State) : Result := event (takeSample output current) s

/-- OVERCURRENT_DETECTION (R74). -/
def execOvercurrentDetection (output : Nat) (s : State) : Result := event (takeOvercurrent output) s

end Sys2Proof.Machine
end

