-- ==== Sys2Proof/Machine/Dispatch.lean ====
section
/-! DEFINITION. The meaning of every command: one arm per constructor of Instr, each one call of its meaning. -/

namespace Sys2Proof.Machine

def exec (i : Instr) (s : State) : Host.Outcome State Fault Refusal :=
  match i with
  | .powerOn => Sys2Proof.Machine.execPowerOn s
  | .hostFrameReceived bytes => Sys2Proof.Machine.execHostFrameReceived bytes s
  | .hostBadLength bytes => Sys2Proof.Machine.execHostBadLength bytes s
  | .hostFrameTimeout => Sys2Proof.Machine.execHostFrameTimeout s
  | .unknownRequest kind tag payload => Sys2Proof.Machine.execUnknownRequest kind tag payload s
  | .transmissionEnd => Sys2Proof.Machine.execTransmissionEnd s
  | .setDestDomain tag payload => Sys2Proof.Machine.execSetDestDomain tag payload s
  | .protect tag payload => Sys2Proof.Machine.execProtect tag payload s
  | .unprotect tag payload => Sys2Proof.Machine.execUnprotect tag payload s
  | .protectAll tag payload => Sys2Proof.Machine.execProtectAll tag payload s
  | .releaseAll tag payload => Sys2Proof.Machine.execReleaseAll tag payload s
  | .setFabric tag payload => Sys2Proof.Machine.execSetFabric tag payload s
  | .fabricRetry tag payload => Sys2Proof.Machine.execFabricRetry tag payload s
  | .readbackCompletion device sources => Sys2Proof.Machine.execReadbackCompletion device sources s
  | .readbackFailure device => Sys2Proof.Machine.execReadbackFailure device s
  | .getRoute tag payload => Sys2Proof.Machine.execGetRoute tag payload s
  | .take tag payload => Sys2Proof.Machine.execTake tag payload s
  | .salvoStore tag payload => Sys2Proof.Machine.execSalvoStore tag payload s
  | .salvoFire tag payload => Sys2Proof.Machine.execSalvoFire tag payload s
  | .setFrameFamily tag payload => Sys2Proof.Machine.execSetFrameFamily tag payload s
  | .referencePulse time => Sys2Proof.Machine.execReferencePulse time s
  | .lossTimerExpiry => Sys2Proof.Machine.execLossTimerExpiry s
  | .flywheelPoint => Sys2Proof.Machine.execFlywheelPoint s
  | .crosspointAnswer window dest level acknowledged => Sys2Proof.Machine.execCrosspointAnswer window dest level acknowledged s
  | .windowExpiry => Sys2Proof.Machine.execWindowExpiry s
  | .setRoot tag payload => Sys2Proof.Machine.execSetRoot tag payload s
  | .setMixer tag payload => Sys2Proof.Machine.execSetMixer tag payload s
  | .mixerState tag payload => Sys2Proof.Machine.execMixerState tag payload s
  | .setMixerMap tag payload => Sys2Proof.Machine.execSetMixerMap tag payload s
  | .setTie tag payload => Sys2Proof.Machine.execSetTie tag payload s
  | .clearTie tag payload => Sys2Proof.Machine.execClearTie tag payload s
  | .getTally tag payload => Sys2Proof.Machine.execGetTally tag payload s
  | .setCamera tag payload => Sys2Proof.Machine.execSetCamera tag payload s
  | .setOutput tag payload => Sys2Proof.Machine.execSetOutput tag payload s
  | .lampClear tag payload => Sys2Proof.Machine.execLampClear tag payload s
  | .flashClockHalf => Sys2Proof.Machine.execFlashClockHalf s
  | .loadSample output current => Sys2Proof.Machine.execLoadSample output current s
  | .overcurrentDetection output => Sys2Proof.Machine.execOvercurrentDetection output s
  | .setPort tag payload => Sys2Proof.Machine.execSetPort tag payload s
  | .setGroup tag payload => Sys2Proof.Machine.execSetGroup tag payload s
  | .talkOn tag payload => Sys2Proof.Machine.execTalkOn tag payload s
  | .talkOff tag payload => Sys2Proof.Machine.execTalkOff tag payload s
  | .autoTimerExpiry panel key => Sys2Proof.Machine.execAutoTimerExpiry panel key s
  | .getPaths tag payload => Sys2Proof.Machine.execGetPaths tag payload s
  | .setIfb tag payload => Sys2Proof.Machine.execSetIfb tag payload s
  | .getIfb tag payload => Sys2Proof.Machine.execGetIfb tag payload s
  | .setPanel tag payload => Sys2Proof.Machine.execSetPanel tag payload s
  | .setPanelUndeclared tag payload => Sys2Proof.Machine.execSetPanelUndeclared tag payload s
  | .setCountMode tag payload => Sys2Proof.Machine.execSetCountMode tag payload s
  | .countsSnapshot tag payload => Sys2Proof.Machine.execCountsSnapshot tag payload s
  | .getPanel tag payload => Sys2Proof.Machine.execGetPanel tag payload s
  | .getCounts tag payload => Sys2Proof.Machine.execGetCounts tag payload s
  | .panelFrameReceived bytes => Sys2Proof.Machine.execPanelFrameReceived bytes s
  | .transactionTimeout => Sys2Proof.Machine.execTransactionTimeout s
  | .emptyCycleEnd => Sys2Proof.Machine.execEmptyCycleEnd s
  | .countTransfer => Sys2Proof.Machine.execCountTransfer s
  | .keyPress panel key => Sys2Proof.Machine.execKeyPress panel key s
  | .keyRelease panel key => Sys2Proof.Machine.execKeyRelease panel key s
  | .knob panel delta => Sys2Proof.Machine.execKnob panel delta s
  | .busState panel bus input => Sys2Proof.Machine.execBusState panel bus input s
  | .setFunction tag payload => Sys2Proof.Machine.execSetFunction tag payload s
  | .setBinding tag payload => Sys2Proof.Machine.execSetBinding tag payload s
  | .setLamp tag payload => Sys2Proof.Machine.execSetLamp tag payload s
  | .getSystemKeys tag payload => Sys2Proof.Machine.execGetSystemKeys tag payload s
  | .setEvents tag payload => Sys2Proof.Machine.execSetEvents tag payload s
  | .restartAll tag payload => Sys2Proof.Machine.execRestartAll tag payload s
  | .restartPanels tag payload => Sys2Proof.Machine.execRestartPanels tag payload s
  | .restartTalk tag payload => Sys2Proof.Machine.execRestartTalk tag payload s
  | .ident tag payload => Sys2Proof.Machine.execIdent tag payload s
  | .getStatus tag payload => Sys2Proof.Machine.execGetStatus tag payload s
  | .discardedReadbackAnswer device sources => Sys2Proof.Machine.execDiscardedReadbackAnswer device sources s

end Sys2Proof.Machine
end

