-- ==== Sys2Proof/Safety.lean ====
section
/-! DEFINITION. What counts as a safe step, and the words in which the statements about the part are written: whose turn a
request has, what a reply and a flag do to the host link, which lamps follow an event, the values after a reset, and the
invariants that the spec's rules give the part.  They are written from the rules themselves and not from the meanings. -/

namespace Sys2Proof.Machine

/-- A step is safe when it answers a next state.  The spec gives every command an effect, so no step of this model
faults or is refused. -/
def Safe (s : State) : Prop := ∃ t, step s = .next t

/-! ### Requests and their replies -/

/-- R183 (log entry 3): request `r` has its turn in `s`, and `s1` is what it finds.  Either it is the oldest request that
waits, or no request waits, a place is free and it arrives now. -/
def InTurn (r : Request) (s s1 : State) : Prop :=
  (s.hlc.waiting = [] ∧ s.requestRoom = true ∧ s1 = s) ∨
    ∃ rest, s.hlc.waiting = r :: rest ∧ s1 = { s with hlc := { s.hlc with waiting := rest } }

/-- R186: on an idle link nothing waits, neither a message nor an executed request.  Every step keeps it. -/
def Settled (s : State) : Prop := s.hlc.sending = none → s.hlc.outbound = [] ∧ s.hlc.executed = []

/-- R185: the reply to a request. -/
def replyTo (r : Request) (code : ReplyCode) (data : List Byte) : Message :=
  { cls := .reply, tag := r.tag, payload := code.byte :: data }

/-- R183, R185, R186: the link after a request is answered.  On an idle link the reply begins at once and the request
gives up its place; otherwise the reply waits and the request keeps its place. -/
def HostLink.answered (r : Request) (code : ReplyCode) (data : List Byte) (h : HostLink) : HostLink :=
  if h.sending.isNone then { h with sending := some (replyTo r code data) }
  else { h with executed := h.executed ++ [r], outbound := h.outbound ++ [replyTo r code data] }

/-- R188: an EVENT_FLAGS message that waits. -/
def flagsMessage : Message := { cls := .eventFlags, tag := 0, payload := [] }

/-- R187, R188: the link after a flag is raised. -/
def HostLink.raised (f : Flag) (h : HostLink) : HostLink :=
  if h.enabled.getLsbD f.number && !h.set.getLsbD f.number then
    { h with
      set := h.set ||| (1#16 <<< f.number)
      outbound := if h.outbound.any fun m => m.cls == .eventFlags then h.outbound else h.outbound ++ [flagsMessage] }
  else h

/-- R187: the link after a state source goes from `before` to `now`. -/
def HostLink.handed (f : Flag) (before now : Bool) (h : HostLink) : HostLink :=
  if before = now then h
  else
    match h.edges.of? f with
    | some e => if e.accepts now then h.raised f else h
    | none => h

/-- R186: the link after the oldest waiting message has begun, if the link was idle. -/
def HostLink.begun (h : HostLink) : HostLink :=
  match h.sending, h.outbound with
  | none, m :: rest => startMessage m { h with outbound := rest }
  | _, _ => h

/-- The messages of the link: the one in transmission and then those that wait. -/
def HostLink.messages (h : HostLink) : List Message := h.sending.toList ++ h.outbound

/-- R185: the deferred replies that have not gone out, in order. -/
def HostLink.deferred (h : HostLink) : List Message := h.messages.filter fun m => m.cls == .deferred

/-- R195: the request that a command carries, for the rows that are requests of a known kind. -/
def requestCarried : Instr → Option Request
  | .powerOn => none
  | .hostFrameReceived _ => none
  | .hostBadLength _ => none
  | .hostFrameTimeout => none
  | .unknownRequest _ _ _ => none
  | .transmissionEnd => none
  | .setDestDomain tag payload => some ⟨0x10, tag, payload⟩
  | .protect tag payload => some ⟨0x11, tag, payload⟩
  | .unprotect tag payload => some ⟨0x12, tag, payload⟩
  | .protectAll tag payload => some ⟨0x13, tag, payload⟩
  | .releaseAll tag payload => some ⟨0x14, tag, payload⟩
  | .setFabric tag payload => some ⟨0x15, tag, payload⟩
  | .fabricRetry tag payload => some ⟨0x16, tag, payload⟩
  | .readbackCompletion _ _ => none
  | .readbackFailure _ => none
  | .getRoute tag payload => some ⟨0x17, tag, payload⟩
  | .take tag payload => some ⟨0x20, tag, payload⟩
  | .salvoStore tag payload => some ⟨0x21, tag, payload⟩
  | .salvoFire tag payload => some ⟨0x22, tag, payload⟩
  | .setFrameFamily tag payload => some ⟨0x23, tag, payload⟩
  | .referencePulse _ => none
  | .lossTimerExpiry => none
  | .flywheelPoint => none
  | .crosspointAnswer _ _ _ _ => none
  | .windowExpiry => none
  | .setRoot tag payload => some ⟨0x30, tag, payload⟩
  | .setMixer tag payload => some ⟨0x31, tag, payload⟩
  | .mixerState tag payload => some ⟨0x32, tag, payload⟩
  | .setMixerMap tag payload => some ⟨0x33, tag, payload⟩
  | .setTie tag payload => some ⟨0x34, tag, payload⟩
  | .clearTie tag payload => some ⟨0x35, tag, payload⟩
  | .getTally tag payload => some ⟨0x36, tag, payload⟩
  | .setCamera tag payload => some ⟨0x40, tag, payload⟩
  | .setOutput tag payload => some ⟨0x41, tag, payload⟩
  | .lampClear tag payload => some ⟨0x42, tag, payload⟩
  | .flashClockHalf => none
  | .loadSample _ _ => none
  | .overcurrentDetection _ => none
  | .setPort tag payload => some ⟨0x50, tag, payload⟩
  | .setGroup tag payload => some ⟨0x51, tag, payload⟩
  | .talkOn tag payload => some ⟨0x52, tag, payload⟩
  | .talkOff tag payload => some ⟨0x53, tag, payload⟩
  | .autoTimerExpiry _ _ => none
  | .getPaths tag payload => some ⟨0x54, tag, payload⟩
  | .setIfb tag payload => some ⟨0x60, tag, payload⟩
  | .getIfb tag payload => some ⟨0x61, tag, payload⟩
  | .setPanel tag payload => some ⟨0x80, tag, payload⟩
  | .setPanelUndeclared tag payload => some ⟨0x80, tag, payload⟩
  | .setCountMode tag payload => some ⟨0x81, tag, payload⟩
  | .countsSnapshot tag payload => some ⟨0x82, tag, payload⟩
  | .getPanel tag payload => some ⟨0x83, tag, payload⟩
  | .getCounts tag payload => some ⟨0x84, tag, payload⟩
  | .panelFrameReceived _ => none
  | .transactionTimeout => none
  | .emptyCycleEnd => none
  | .countTransfer => none
  | .keyPress _ _ => none
  | .keyRelease _ _ => none
  | .knob _ _ => none
  | .busState _ _ _ => none
  | .setFunction tag payload => some ⟨0x90, tag, payload⟩
  | .setBinding tag payload => some ⟨0x91, tag, payload⟩
  | .setLamp tag payload => some ⟨0x92, tag, payload⟩
  | .getSystemKeys tag payload => some ⟨0x93, tag, payload⟩
  | .setEvents tag payload => some ⟨0xA0, tag, payload⟩
  | .restartAll tag payload => some ⟨0xA1, tag, payload⟩
  | .restartPanels tag payload => some ⟨0xA1, tag, payload⟩
  | .restartTalk tag payload => some ⟨0xA1, tag, payload⟩
  | .ident tag payload => some ⟨0xA2, tag, payload⟩
  | .getStatus tag payload => some ⟨0xA3, tag, payload⟩
  | .discardedReadbackAnswer _ _ => none

/-- R182, R194: whether the payload of a request is one that the layout of its kind allows. -/
def layoutFits : Instr → Bool
  | .powerOn => true
  | .hostFrameReceived _ => true
  | .hostBadLength _ => true
  | .hostFrameTimeout => true
  | .unknownRequest _ _ _ => true
  | .transmissionEnd => true
  | .setDestDomain _ payload => (destDomainArgs payload).isSome
  | .protect _ payload => (wordArg payload).isSome
  | .unprotect _ payload => (wordArg payload).isSome
  | .protectAll _ payload => (noArg payload).isSome
  | .releaseAll _ payload => (noArg payload).isSome
  | .setFabric _ payload => (fabricArgs payload).isSome
  | .fabricRetry _ payload => (byteArg payload).isSome
  | .readbackCompletion _ _ => true
  | .readbackFailure _ => true
  | .getRoute _ payload => (routeQuery payload).isSome
  | .take _ payload => (takeArgs payload).isSome
  | .salvoStore _ payload => (salvoStoreArgs payload).isSome
  | .salvoFire _ payload => (salvoFireArgs payload).isSome
  | .setFrameFamily _ payload => (familyArgs payload).isSome
  | .referencePulse _ => true
  | .lossTimerExpiry => true
  | .flywheelPoint => true
  | .crosspointAnswer _ _ _ _ => true
  | .windowExpiry => true
  | .setRoot _ payload => (rootArgs payload).isSome
  | .setMixer _ payload => (mixerArgs payload).isSome
  | .mixerState _ payload => (mixerStateArgs payload).isSome
  | .setMixerMap _ payload => (mixerMapArgs payload).isSome
  | .setTie _ payload => (tieArgs payload).isSome
  | .clearTie _ payload => (wordArg payload).isSome
  | .getTally _ payload => (tallyQuery payload).isSome
  | .setCamera _ payload => (cameraArgs payload).isSome
  | .setOutput _ payload => (outputArgs payload).isSome
  | .lampClear _ payload => (byteArg payload).isSome
  | .flashClockHalf => true
  | .loadSample _ _ => true
  | .overcurrentDetection _ => true
  | .setPort _ payload => (portArgs payload).isSome
  | .setGroup _ payload => (groupArgs payload).isSome
  | .talkOn _ payload => (talkOnArgs payload).isSome
  | .talkOff _ payload => (byteArg payload).isSome
  | .autoTimerExpiry _ _ => true
  | .getPaths _ payload => (pathsQuery payload).isSome
  | .setIfb _ payload => (ifbArgs payload).isSome
  | .getIfb _ payload => (byteArg payload).isSome
  | .setPanel _ payload => (panelArgs payload).isSome
  | .setPanelUndeclared _ payload => (panelArgs payload).isSome
  | .setCountMode _ payload => (countModeArgs payload).isSome
  | .countsSnapshot _ payload => (noArg payload).isSome
  | .getPanel _ payload => (panelQuery payload).isSome
  | .getCounts _ payload => (noArg payload).isSome
  | .panelFrameReceived _ => true
  | .transactionTimeout => true
  | .emptyCycleEnd => true
  | .countTransfer => true
  | .keyPress _ _ => true
  | .keyRelease _ _ => true
  | .knob _ _ => true
  | .busState _ _ _ => true
  | .setFunction _ payload => (functionArgs payload).isSome
  | .setBinding _ payload => (bindingArgs payload).isSome
  | .setLamp _ payload => (lampArgs payload).isSome
  | .getSystemKeys _ payload => (noArg payload).isSome
  | .setEvents _ payload => (eventsArgs payload).isSome
  | .restartAll _ payload => (byteArg payload).isSome
  | .restartPanels _ payload => (byteArg payload).isSome
  | .restartTalk _ payload => (byteArg payload).isSome
  | .ident _ payload => (noArg payload).isSome
  | .getStatus _ payload => (noArg payload).isSome
  | .discardedReadbackAnswer _ _ => true

/-! ### Start values -/

/-- The values that the chapters give the blocks at power-on and at RESTART(ALL) (R2, R11, R18, R23, R26, R29, R43, R45,
R50, R51, R57, R64, R66, R70, R77, R79, R82, R84, R88, R101, R103, R112, R133, R137, R138, R145, R154, R156, R159, R161,
R166, R167, R168, R172, R177), the host link and the frame family apart. -/
structure StartValues (t : State) : Prop where
  dests : ∀ d, t.dest d = ⟨.shared, ⟨.notFitted, .notFitted, .notFitted, .notFitted⟩, .startupLock⟩
  devices : ∀ n, t.device? n = none
  queue : t.rc.queue = [] ∧ t.rc.window = none
  salvos : ∀ n, t.salvo n = []
  reference : t.stu.reference = .lost ∧ t.stu.candidate = none ∧ t.stu.flywheelCount = 0
  roots : ∀ r, t.root r = ⟨false, none, .noTerminal, none⟩
  mixers : ∀ m, (t.mixer m).source = .system ∧ ∀ b, (t.mixer m).bus b = ⟨0, false⟩
  maps : (∀ m i, t.mapEntry m i = none) ∧ ∀ x, t.tie? x = none
  colours : ∀ dom x, t.colours dom x = ⟨false, false, false⟩
  cameras : ∀ c, t.camera? c = none
  outputs : ∀ n, t.output n = ⟨none, .off, .ok⟩
  calls : t.tou.holders = []
  ports : ∀ q, t.port q = ⟨.unused, 0, -12, -12, none, none⟩
  groups : ∀ g, t.group g = []
  talks : t.tc.talks = [] ∧ t.tc.counter = 1
  keys : ∀ p k, t.key p k = ⟨.idle, none, none, false⟩
  ifbs : ∀ n, t.ifb? n = none
  paths : t.tme.paths = [] ∧ t.tme.counter = 1
  panels : ∀ p, t.panel? p = none
  events : t.pbc.events = []
  judgement : t.pbc.mode = .auto ∧ t.pbc.threshold = 8
  cycle : t.pbc.odd = false ∧ t.pbc.pointer = 1
  sources : t.rc.fabricFault = false ∧ t.tou.lampFault = false ∧ t.tme.pathStarved = false ∧ t.pbc.panelErrors = false
  functions : (∀ f, t.function? f = none) ∧ ∀ p page k, t.binding p page k = 0
  contexts : ∀ p, t.context p = ⟨none, none⟩
  held : ∀ p k, t.held? p k = none
  firings : ∀ p n, t.pendingFirings p n = 0
  systemKeys : t.fd.systemKeys = []
  hostLamps : ∀ p k, t.hostLamp p k = .off

/-- R181, R183, R185 to R187: the host link at power-on. -/
def LinkAtPowerOn (h : HostLink) : Prop :=
  h = { collected := [], executed := [], waiting := [], outbound := [], sending := none, owed := 0, enabled := 0, set := 0,
        edges := ⟨.rise, .rise, .rise, .rise, .rise⟩ }

/-! ### What an event may change besides its own effect -/

/-- R174, R176: the panel records of `t` are those of `s`, but for the desired lamp values, which R174 derives over `t`. -/
structure Relamped (s t : State) : Prop where
  bus : t.pbc = { s.pbc with panels := t.pbc.panels }
  undeclared : ∀ p, s.panel? p = none → t.panel? p = none
  declared : ∀ p v, s.panel? p = some v → ∃ lamps : Table LampCell, t.panel? p = some { v with lamps := lamps } ∧
    ∀ k, (lamps.get LampCell.start k).sent = (v.lamp k).sent ∧
      (within 1 64 k = true → (lamps.get LampCell.start k).desired = t.lampOf p k v)

/-- R176: `t` is `u` with the lamps re-derived, and nothing else is changed. -/
structure LampsFollow (u t : State) : Prop where
  rest : t = { u with pbc := t.pbc }
  lamps : Relamped u t

/-- R92: a key talk state after its talk ended by another event than the key's own press or release. -/
def KeyTalk.lost (y : KeyTalk) : KeyTalk :=
  match y.state with
  | .held => ⟨.heldCancel, y.mode, none, false⟩
  | .heldLong => ⟨.heldCancel, y.mode, none, false⟩
  | .latched => ⟨.idle, none, none, false⟩
  | _ => y

/-- R85: a talk with its ONAIR reservation counted over the cameras as they stand in `s`, if its domain is one of `doms`. -/
def State.recounted (s : State) (doms : List Domain) (t : Talk) : Talk :=
  if t.target = .onair ∧ ∃ d ∈ doms, t.domain = some d then
    { t with reservation := count (fun c => some c.domain == t.domain && c.port.isSome) s.tou.cameras.values }
  else t

/-- R99: `ended` are the talks of domains `doms` that a talk set gives up, newest first: none when its reservations total at
most 512, and else as many as bring the total there. -/
structure GivenUp (doms : List Domain) (talks ended : List Talk) : Prop where
  newest : ended <+: talks.reverse.filter fun t => t.target == .onair && t.domain.any doms.contains
  needed : ∀ us, us <+: ended → us ≠ ended → 512 < totalReservations talks - totalReservations us
  enough : totalReservations talks - totalReservations ended ≤ 512 ∨
    ended = talks.reverse.filter fun t => t.target == .onair && t.domain.any doms.contains

/-- A talk without its listeners, which follow other tables (R97, R98). -/
def Talk.bare (t : Talk) : Talk := { t with listeners := [] }

/-- The talks of two talk sets are the same, their listeners apart. -/
def SameTalks (ts us : List Talk) : Prop := ts.map Talk.bare = us.map Talk.bare

/-- R69: the outputs of `t` have the configurations and fault states that they have in `s`. -/
def SameOutputs (s t : State) : Prop :=
  ∀ n, (t.output n).config = (s.output n).config ∧ (t.output n).fault = (s.output n).fault

/-- R58, R61: what a recomputation and the tally change that may follow it leave alone: the router, the timing, the
functions, the cameras, the calls, the ports, the IFBs and the talks but for their listeners. -/
structure TallyFrame (s t : State) : Prop where
  timing : t.stu = s.stu
  functions : t.fd = s.fd
  outputs : t.tou = { s.tou with outputs := t.tou.outputs } ∧ SameOutputs s t
  talks : t.tc = { s.tc with talks := t.tc.talks } ∧ SameTalks t.tc.talks s.tc.talks

/-- R43, R55: the last result and the trace fault record of a root record are those of its trace over `t`. -/
structure RootTraced (t : State) (v : Root) : Prop where
  untraced : v.enabled = false ∨ v.config = none → v.last = .noTerminal ∧ v.fault = none
  terminal : ∀ c x, v.enabled = true → v.config = some c → t.trace c.kind = .terminal x →
    v.last = .terminal x ∧ v.fault = none
  noTerminal : ∀ c, v.enabled = true → v.config = some c → t.trace c.kind = .noTerminal →
    v.last = .noTerminal ∧ v.fault = none
  faulted : ∀ c why d, v.enabled = true → v.config = some c → t.trace c.kind = .fault why d →
    v.last = .fault ∧ v.fault = some ⟨why, d⟩

/-- R55, R57, R58: the last results and the colour tables of `t` are those of a recomputation over `t` itself. -/
structure Recomputed (t : State) : Prop where
  roots : ∀ r, RootTraced t (t.root r)
  colours : t.tt.coloursA = t.buildColours .a ∧ t.tt.coloursB = t.buildColours .b

/-- R110: what the path table follows of the Talk Controller: the talks, their reservations apart, and the IFB records. -/
def SameContributions (s t : State) : Prop :=
  t.tc.ifbs = s.tc.ifbs ∧
    t.tc.talks.map (fun x => { x with reservation := 0 }) = s.tc.talks.map (fun x => { x with reservation := 0 })

/-- R86, R87, R98, R104, R110: what the event that takes `s` to `t` did to the talks and the IFBs was handed to the Talk Mix
Engine, whose table is that of one handling; or nothing was, and the table stands. -/
def MixHandled (s t : State) : Prop :=
  t.tme = (handling s { t with tme := s.tme }).tme ∨ (SameContributions s t ∧ t.tme = s.tme)

/-- R187: `h2` is `h` with a flag raised when a condition holds, and `h` when it does not. -/
def RaisedIf (f : Flag) (condition : Prop) (h h2 : HostLink) : Prop :=
  (condition → h2 = h.raised f) ∧ (¬condition → h2 = h)

/-- R112, R117, R187: the flags of an event that takes the talks and the paths from `s` to `t`: a change of PATH_STARVED is
handed over, and IFB_CHANGE is raised when the current interrupter of at least one IFB differs. -/
def TalkReported (s t : State) (h h2 : HostLink) : Prop :=
  RaisedIf .ifbChange (∃ n, (1 ≤ n ∧ n ≤ 16) ∧ t.interrupter n ≠ s.interrupter n)
    (h.handed .pathStarved s.tme.pathStarved t.tme.pathStarved) h2

/-- R87, R116: the talks of the ids `ended` leave the arbitration of every IFB in the event that takes `s` to `t`.  The ports,
the duck depth and NO_PREEMPT of an IFB stand, and with no such talk all of it stands. -/
def IfbsLeft (ended : List Nat) (s t : State) : Prop :=
  ((∃ x ∈ s.tc.talks, x.id ∈ ended) → t.tc.ifbs = s.tc.ifbs.mapValues fun _ i => t.withoutTalks ended i) ∧
    ((∀ x ∈ s.tc.talks, x.id ∉ ended) → t.tc.ifbs = s.tc.ifbs)

/-- R86, R114: the new talk `x` enters the arbitration of the IFB that it is addressed to in the event that takes `s` to `t`;
every other IFB stands. -/
def IfbJoined (x : Talk) (s t : State) : Prop :=
  ∀ n, t.ifb? n = if x.target = .ifb n then (s.ifb? n).map fun i => t.arbitrate i x.id x.priority else s.ifb? n

/-- R84: the talks and the creation counter after the talk `x`, which took the counter's number, joins `talks`.  When the counter
would pass 4294967295, the talks are numbered anew in their order and the counter goes on from there. -/
structure TalkJoined (x : Talk) (talks : List Talk) (counter : Nat) (after : List Talk) (next : Nat) : Prop where
  counts : counter < 4294967295 → SameTalks after (talks ++ [x]) ∧ next = counter + 1
  renumbers : 4294967295 ≤ counter →
    SameTalks after (((talks ++ [x]).zipIdx 1).map fun e => { e.1 with creation := e.2 }) ∧ next = talks.length + 2

/-- R56, R61, R112: the flags of a recomputation that takes `s` to `t`, and of the handling that may follow it. -/
def Tallied (s t : State) (h h2 : HostLink) : Prop :=
  ∃ a b : HostLink,
    RaisedIf .traceFault (∃ r, (t.root r).fault ≠ none ∧ (t.root r).fault ≠ (s.root r).fault) h a ∧
    RaisedIf .tallyChange (∃ dom x, t.colours dom x ≠ s.colours dom x) a b ∧
    h2 = b.handed .pathStarved s.tme.pathStarved t.tme.pathStarved

/-- R56 to R58, R61, R69, R98, R176: `t` is `u` after one recomputation, with the tally change that follows a change of a
colour set.  The drives and the ONAIR listeners follow a tally change and nothing else does; the lamps are re-derived. -/
structure Retraced (u t : State) : Prop where
  lamps : Relamped u t
  router : t.rc = u.rc
  tables : t.tt = { u.tt with roots := t.tt.roots, coloursA := t.tt.coloursA, coloursB := t.tt.coloursB }
  kept : ∀ r, (t.root r).enabled = (u.root r).enabled ∧ (t.root r).config = (u.root r).config
  traced : Recomputed t
  frame : TallyFrame u t
  followed : (∃ dom x, t.colours dom x ≠ u.colours dom x) →
    (∀ n, (t.output n).drive = t.driveOf n) ∧ ∀ x ∈ t.tc.talks, x.target = .onair → x.listeners = t.listenersOf x
  unmoved : (∀ dom x, t.colours dom x = u.colours dom x) → t.tou = u.tou ∧ t.tc = u.tc ∧ t.tme = u.tme
  paths : t.tc.talks = u.tc.talks → t.tme = u.tme
  mixed : MixHandled u t
  flags : Tallied u t u.hlc t.hlc
  pending : t.pending = u.pending

/-! ### Admission (R105 to R110, R117) -/

/-- R117: IFB n has output port b, and its current interrupter is a talk of talker port a. -/
def State.interruptedBy (s : State) (n a b : Nat) : Prop :=
  ∃ i c x, s.ifb? n = some i ∧ i.output = b ∧ i.current = some c ∧ s.talk? c = some x ∧ x.talker = a

/-- R110 steps 1 and 2, R117: the path `q` of the table before goes on as the path `p`, of the same kind and ports, in the
handling of the event that took `before` to `s`.  A PROGRAM path goes on while its IFB stands; a TALK path while one of its
talks still contributes to it, or while one interrupter of an IFB follows another of the same talker port (log entry 12). -/
def Continues (before s : State) (q p : Path) : Prop :=
  q.kind = p.kind ∧ q.talker = p.talker ∧ q.listener = p.listener ∧
    (p.kind = .talk → (∃ id ∈ q.talks, id ∈ p.talks) ∨
      ∃ n, (1 ≤ n ∧ n ≤ 16) ∧ before.interruptedBy n p.talker p.listener ∧ s.interruptedBy n p.talker p.listener)

/-- R110 step 1: an admitted path of the table before has no path of `table` in which it goes on. -/
def GivesBack (before s : State) (table : List Path) : Prop :=
  ∃ q ∈ s.tme.paths, q.isAdmitted = true ∧ ∀ p ∈ table, ¬Continues before s q p

/-- R108, R109: the place of a path among those of its priority: the creation number of its oldest contributing talk, or the
IFB number of a PROGRAM path. -/
def State.placeOf (s : State) (p : Path) : Nat :=
  match p.kind with
  | .program n => n
  | .talk => match p.talks.head?.bind s.talk? with
    | some t => t.creation
    | none => 0

/-- R108, R109: path p is considered before path q. -/
def State.goesBefore (s : State) (p q : Path) : Prop :=
  q.priority < p.priority ∨ (p.priority = q.priority ∧
    (s.placeOf p < s.placeOf q ∨ (s.placeOf p = s.placeOf q ∧
      (p.listener < q.listener ∨ (p.listener = q.listener ∧ p.talker < q.talker)))))

/-- R101: path p stands before path q in the path table: by listener port, then by talker port, a PROGRAM path before the TALK
path of its pair. -/
def ListedBefore (p q : Path) : Prop :=
  p.listener < q.listener ∨ (p.listener = q.listener ∧
    (p.talker < q.talker ∨ (p.talker = q.talker ∧ p.kind ≠ .talk ∧ q.kind = .talk)))

/-- R101, R102, R106, R121: what the words mean in which the path table is read: its paths, their number and their order, and the
highest level and the highest priority among talks. -/
structure PathWords : Prop where
  admitted : ∀ p : Path, p.isAdmitted = true ↔ p.admission ≠ .starved
  kind : ∀ p : Path, p.isTalk = true ↔ p.kind = .talk
  number : ∀ (p : Path) n c, p.admission = .admitted n c → p.number = n
  same : ∀ p q : Path, p.same q = true ↔ p.kind = q.kind ∧ p.talker = q.talker ∧ p.listener = q.listener
  into : ∀ (paths : List Path) l,
    admittedInto paths l = (paths.filter fun p => p.admission != .starved && p.listener == l).length ∧
    talkCountInto paths l =
      (paths.filter fun p => p.admission != .starved && p.kind == .talk && p.listener == l).length
  all : ∀ paths : List Path, admittedCount paths = (paths.filter fun p => p.admission != .starved).length
  order : ∀ p q : Path, tableBefore p q = true ↔ ListedBefore p q
  talks : ∀ (s : State) (ids : List Nat), s.talksOf ids = ids.filterMap fun id => s.tc.talks.find? fun t => t.id == id
  level : ∀ ts : List Talk, ts ≠ [] → (∃ x ∈ ts, x.level = highestLevel ts) ∧ ∀ x ∈ ts, x.level ≤ highestLevel ts
  priority : ∀ ts : List Talk, ts ≠ [] →
    (∃ x ∈ ts, x.priority = highestPriority ts) ∧ ∀ x ∈ ts, x.priority ≤ highestPriority ts

/-- R108, R109: the paths that satisfy a condition, each once, in the order of consideration. -/
structure InCandidateOrder (s : State) (condition : Path → Prop) (paths : List Path) : Prop where
  listed : ∀ p, p ∈ paths ↔ condition p
  once : paths.Nodup
  order : paths.Pairwise fun p q => ¬s.goesBefore q p

/-- A path with its coefficient left out, which follows at the end of a handling (R110 step 6). -/
def Path.placed (p : Path) : Path :=
  match p.admission with
  | .starved => p
  | .admitted n _ => { p with admission := .admitted n .off }

/-- R106: a path into listener l fits: neither cap binds. -/
def Fits (a : Admissions) (l : Nat) : Prop := admittedInto a.paths l < 12 ∧ admittedCount a.paths < 256

/-- R101, R106: `b` is `a` after path `p` becomes ADMITTED with the next admission number.  When the counter would pass
4294967295, the admitted TALK paths are numbered anew in the order of their numbers and the counter goes on from there.  That
the PROGRAM paths then keep their numbers is the model's choice (log entry 33). -/
structure Entered (p : Path) (a b : Admissions) : Prop where
  counts : a.counter < 4294967295 → b.counter = a.counter + 1 ∧
    b.paths = a.paths.map fun q => if q.same p then { q with admission := .admitted a.counter .off } else q
  renumbers : 4294967295 ≤ a.counter →
    let entered := a.paths.map fun q => if q.same p then { q with admission := .admitted a.counter .off } else q
    let talks := entered.filter fun q => q.isTalk && q.isAdmitted
    b.counter = talks.length + 1 ∧ b.paths = entered.map fun q =>
      match q.admission with
      | .admitted n c =>
        if q.isTalk then { q with admission := .admitted (1 + (talks.filter fun x => x.number < n).length) c } else q
      | .starved => q

/-- R107: path `v` may be the victim of an offer into listener l: an admitted TALK path, into that listener where the listener
cap binds. -/
def MayYield (a : Admissions) (l : Nat) (v : Path) : Prop :=
  v ∈ a.paths ∧ v.kind = .talk ∧ v.isAdmitted = true ∧ (12 ≤ admittedInto a.paths l → v.listener = l)

/-- R107: path `v` is the victim of an offer into listener l: of those that may be, the lowest priority, and among equals the
highest admission number. -/
def Victim (a : Admissions) (l : Nat) (v : Path) : Prop :=
  MayYield a l v ∧
    ∀ w, MayYield a l w → v.priority < w.priority ∨ (v.priority = w.priority ∧ w.number ≤ v.number)

/-- R105, R107: `b` is `a` after the path `p` is offered. -/
structure Offered (p : Path) (a b : Admissions) : Prop where
  fit : Fits a p.listener → Entered p a b
  evicts : ¬Fits a p.listener → ∀ v, Victim a p.listener v → v.priority < p.priority →
    Entered p ⟨a.paths.map fun q => if q.same v then { q with admission := .starved } else q, a.counter⟩ b
  stays : ¬Fits a p.listener → (∀ v, Victim a p.listener v → p.priority ≤ v.priority) → b = a

/-- R106 to R110, R117: the admissions of the handling of the event that took `before` to `s`, which leave the Talk Mix Engine
as `m`.  `table` is the path table after the first three steps: a path that goes on keeps its admission state, any other is
new.  After a place was given back the starved paths that go on are re-admitted where they fit; then the new paths and those
whose priority rose are offered. -/
def Admitted (before s : State) (m : TalkMix) : Prop :=
  ∃ (table waiting offered : List Path) (passed last : Admissions),
    (∀ p ∈ table, (∃ q ∈ s.tme.paths, Continues before s q p ∧ p.admission = q.admission) ∨
      ((∀ q ∈ s.tme.paths, ¬Continues before s q p) ∧ p.admission = .starved)) ∧
    InCandidateOrder s (fun p => p ∈ table ∧ p.admission = .starved ∧
      ∃ q ∈ s.tme.paths, Continues before s q p ∧ p.priority ≤ q.priority) waiting ∧
    InCandidateOrder s (fun p => p ∈ table ∧ p.admission = .starved ∧
      ∀ q ∈ s.tme.paths, Continues before s q p → q.priority < p.priority) offered ∧
    (GivesBack before s table → passed = waiting.foldl readmit ⟨table, s.tme.counter⟩) ∧
    (¬GivesBack before s table → passed = ⟨table, s.tme.counter⟩) ∧
    last = offered.foldl offer passed ∧
    m.paths.map Path.placed = last.paths.map Path.placed ∧ m.counter = last.counter

/-! ### Drives, lamps, targets and arbitration, row by row -/

/-- R68: camera c calls output n. -/
def State.calledBy (s : State) (n c : Nat) : Prop :=
  ∃ v, s.camera? c = some v ∧ v.output = some n ∧ (∃ h ∈ s.tou.holders, h.camera = c) ∧
    (s.colours v.domain v.source).red = false

/-- R68: the drive of output n, by the first row of the table that holds. -/
structure DriveRule (s : State) (n : Nat) : Prop where
  unset : (s.output n).config = none → s.driveOf n = .off
  short : (s.output n).fault = .short → s.driveOf n = .off
  called : (s.output n).config ≠ none → (s.output n).fault ≠ .short → (∃ c, (1 ≤ c ∧ c ≤ 24) ∧ s.calledBy n c) →
    s.driveOf n = .flash
  uncalled : ∀ v, (s.output n).config = some v → (s.output n).fault ≠ .short →
    (∀ c, 1 ≤ c ∧ c ≤ 24 → ¬s.calledBy n c) →
    (v.mode = .forceOn → s.driveOf n = .on) ∧ (v.mode = .forceOff → s.driveOf n = .off) ∧
    (v.mode = .auto → (∃ c, (s.colours v.domain v.source).has c = true ∧ v.mask.has c = true) → s.driveOf n = .on) ∧
    (v.mode = .auto → (∀ c, ¬((s.colours v.domain v.source).has c = true ∧ v.mask.has c = true)) → s.driveOf n = .off)

/-- R174: at least one level of a mask is fitted at destination d, and every fitted level of it carries source x, marked or
not. -/
def State.carried (s : State) (d : Nat) (mask : LevelMask) (x : Nat) : Prop :=
  (∃ l, mask.has l = true ∧ s.levelAt d l ≠ .notFitted) ∧
    ∀ l y f, mask.has l = true → s.levelAt d l = .fitted y f → y = x

/-- A lamp shows a value while a condition holds, and is OFF otherwise. -/
def ShownWhile (condition : Prop) (x lamp : Lamp) : Prop := (condition → lamp = x) ∧ (¬condition → lamp = .off)

/-- R174: the lamp of key k of panel p, whose record is `v`, by the kind of the function of its shown binding. -/
def FunctionShows (s : State) (p k : Nat) (v : Panel) (lamp : Lamp) : FunctionAction → Prop
  | .routeTake d mask x => ShownWhile (s.carried d mask x) (.lit .white false) lamp
  | .selectDest d => ShownWhile ((s.context p).dest = some d) (.lit .white false) lamp
  | .presetSource x =>
    let c := s.colours v.domain x
    (c.red = true → lamp = .lit .red false) ∧ (c.red = false → c.amber = true → lamp = .lit .amber false) ∧
      (c.red = false → c.amber = false → c.green = true → lamp = .lit .green false) ∧
      (c.red = false → c.amber = false → c.green = false →
        ShownWhile ((s.context p).source = some x) (.lit .white false) lamp)
  | .takePreset mask =>
    ShownWhile (∃ d x, (s.context p).dest = some d ∧ (s.context p).source = some x ∧ s.carried d mask x)
      (.lit .white false) lamp
  | .salvoFire n => ShownWhile (0 < s.pendingFirings p n) (.lit .white true) lamp
  | .protectToggle d =>
    let chosen := d.or (s.context p).dest
    (chosen = none → lamp = .off) ∧ ∀ e, chosen = some e →
      ((s.dest e).protect = .none → lamp = .off) ∧ ((s.dest e).protect = .panel p → lamp = .lit .red false) ∧
      (∀ q, q ≠ p → (s.dest e).protect = .panel q → lamp = .lit .amber false) ∧
      ((s.dest e).protect = .systemLock ∨ (s.dest e).protect = .startupLock → lamp = .lit .amber false)
  | .talk _ _ _ _ _ => lamp = .off
  | .call _ => lamp = .off
  | .pageToggle => ShownWhile (v.page = true) (.lit .white false) lamp
  | .systemKey _ => lamp = s.hostLamp p k

/-- R174: the talk lamp of talk t flashes: a path to which it contributes is STARVED, or it is addressed to an IFB and is
pending there or of priority 0. -/
def State.flashes (s : State) (t : Talk) : Prop :=
  (∃ x ∈ s.tme.paths, x.admission = .starved ∧ t.id ∈ x.talks) ∨
    ∃ n, t.target = .ifb n ∧ (t.priority = 0 ∨ ∃ i, s.ifb? n = some i ∧ t.id ∈ i.pending)

/-- R165, R174, R175: function f passes the level check and the domain check against the panel record `v` as it stands. -/
def PassesChecks (f : KeyFunction) (v : Panel) : Prop :=
  v.access ≤ f.level ∧ (f.domain = .any ∨ (f.domain = .a ∧ v.domain = .a) ∨ (f.domain = .b ∧ v.domain = .b))

/-- R174, R175: the lamp of key k of panel p, whose record is `v`, by the first case that holds. -/
structure LampRule (s : State) (p k : Nat) (v : Panel) : Prop where
  captured : ∀ id t, (s.key p k).state = .held ∨ (s.key p k).state = .heldLong ∨ (s.key p k).state = .latched →
    (s.key p k).talk = some id → s.talk? id = some t →
    (s.flashes t → s.lampOf p k v = .lit .red true) ∧ (¬s.flashes t → s.lampOf p k v = .lit .red false)
  cancelled : (s.key p k).state = .heldCancel → s.lampOf p k v = .off
  called : (s.key p k).state = .idle → (∃ h ∈ s.tou.holders, h.panel = p ∧ h.key = k) → s.lampOf p k v = .lit .amber true
  dark : (s.key p k).state = .idle → (∀ h ∈ s.tou.holders, ¬(h.panel = p ∧ h.key = k)) →
    s.binding p v.page k = 0 ∨ (∀ f, s.function? (s.binding p v.page k) = some f → ¬PassesChecks f v) →
    s.lampOf p k v = .off
  shown : ∀ f, (s.key p k).state = .idle → (∀ h ∈ s.tou.holders, ¬(h.panel = p ∧ h.key = k)) →
    s.binding p v.page k ≠ 0 → s.function? (s.binding p v.page k) = some f → PassesChecks f v →
    FunctionShows s p k v (s.lampOf p k v) f.action

/-- R83: a target is valid. -/
def State.validTarget (s : State) : Target → Prop
  | .port q => (1 ≤ q ∧ q ≤ 64) ∧ (s.port q).role = .normal
  | .group g => (1 ≤ g ∧ g ≤ 16) ∧ s.group g ≠ []
  | .ifb n => (1 ≤ n ∧ n ≤ 16) ∧ s.ifb? n ≠ none
  | .camera c => (1 ≤ c ∧ c ≤ 24) ∧ ∃ v, s.camera? c = some v ∧ v.port ≠ none
  | .onair => True

/-- R97: port q is one of those that the target of talk t names. -/
def State.targets (s : State) (t : Talk) (q : Nat) : Prop :=
  match t.target with
  | .port a => q = a
  | .group g => q ∈ s.group g
  | .ifb n => ∃ i, s.ifb? n = some i ∧ i.current = some t.id ∧ i.output = q
  | .camera c => ∃ v, s.camera? c = some v ∧ v.port = some q
  | .onair => ∃ d, t.domain = some d ∧ ∃ e ∈ s.tou.cameras.entries,
      e.2.domain = d ∧ e.2.port = some q ∧ (s.colours d e.2.source).red = true

/-- R97: the listeners of talk t are the ports that its target names, none twice, the talker left out. -/
def ListenersRule (s : State) (t : Talk) : Prop :=
  (s.listenersOf t).Nodup ∧ ∀ q, q ∈ s.listenersOf t ↔ s.targets t q ∧ q ≠ t.talker

/-- R113: in a pending list the talk of id a stands before that of id b: a higher priority, then a lower talker port, then a
lower creation number. -/
def State.waitsBefore (s : State) (a b : Nat) : Prop :=
  ∃ x y, s.talk? a = some x ∧ s.talk? b = some y ∧
    (y.priority < x.priority ∨ (x.priority = y.priority ∧
      (x.talker < y.talker ∨ (x.talker = y.talker ∧ x.creation < y.creation))))

/-- R113: a talk takes its place in a pending list: behind the talks before which it does not stand, up to the first before
which it stands. -/
def PlacedPending (s : State) (id : Nat) (pending : List Nat) : Prop :=
  ∃ before after, pending = before ++ after ∧ s.enterPending id pending = before ++ id :: after ∧
    (∀ x ∈ before, ¬s.waitsBefore id x) ∧ ∀ y, after.head? = some y → s.waitsBefore id y

/-! ### Takes and switch windows -/

/-- R12: device n, whose record is `v`, covers level l of destination d. -/
def State.coveredBy (s : State) (d : Nat) (l : Level) (n : Nat) (v : Device) : Prop :=
  s.rc.devices.entries.find? (fun e => e.2.level == l && decide (e.2.first ≤ d) && decide (d ≤ e.2.last)) = some (n, v)

/-- R12, R22, R35: what is read of the device that covers level l of destination d. -/
structure DeviceRule (s : State) (d : Nat) (l : Level) : Prop where
  covers : ∀ v : Device, v.covers d l = true ↔ v.level = l ∧ v.first ≤ d ∧ d ≤ v.last
  readback : s.readbackAt d l = true ↔ ∃ n v kind begun, s.coveredBy d l n v ∧ v.phase = .readback kind begun
  online : s.onlineAt d l = true ↔ ∃ n v, s.coveredBy d l n v ∧ v.phase = .online
  number : ∀ n v, s.coveredBy d l n v → s.deviceNumber d l = n

/-- R23: the places of the take queue that are taken: by the pending entries, and by those drawn into the open window. -/
structure RoomRule (s : State) : Prop where
  pending : s.pendingEntries = (s.rc.queue.map fun g => g.entries.length).sum
  drawn : (s.rc.window = none → s.drawnEntries = 0) ∧
    ∀ w, s.rc.window = some w → s.drawnEntries = (w.groups.map fun g => g.entries.length).sum

/-- R22 checks 1 and 2: an entry is in range, and its mask trimmed to the levels that a device covers is `mask`. -/
def State.trims (s : State) (e : Entry) (mask : LevelMask) : Prop :=
  ((1 ≤ e.dest ∧ e.dest ≤ 256) ∧ e.source ≤ 256) ∧
    ∀ l, mask.has l = true ↔ e.mask.has l = true ∧ ∃ n v, s.coveredBy e.dest l n v

/-- R22: the checks 1 to 5 of an offered entry, in order. -/
structure EntryRule (s : State) (e : Entry) : Prop where
  range : ¬((1 ≤ e.dest ∧ e.dest ≤ 256) ∧ e.source ≤ 256) → s.checkEntry e = .error .badArg
  empty : ∀ mask, s.trims e mask → (∀ l, mask.has l = false) → s.checkEntry e = .error .badArg
  denied : ∀ mask, s.trims e mask → (∃ l, mask.has l = true) → s.domainPasses e.origin e.dest = false →
    s.checkEntry e = .error .denied
  locked : ∀ mask why, s.trims e mask → (∃ l, mask.has l = true) → s.domainPasses e.origin e.dest = true →
    permission (s.dest e.dest).protect e.origin e.force = some why → s.checkEntry e = .error why
  busy : ∀ mask, s.trims e mask → s.domainPasses e.origin e.dest = true →
    permission (s.dest e.dest).protect e.origin e.force = none →
    (∃ l, mask.has l = true ∧ s.readbackAt e.dest l = true) → s.checkEntry e = .error .busy
  passes : ∀ mask, s.trims e mask → (∃ l, mask.has l = true) → s.domainPasses e.origin e.dest = true →
    permission (s.dest e.dest).protect e.origin e.force = none →
    (∀ l, mask.has l = true → s.readbackAt e.dest l = false) → s.checkEntry e = .ok { e with mask := mask }

/-- R27 step 1: the passing entries of a firing of salvo n are the stored entries that pass checks 1 to 5 of R22, in stored
order, with their trimmed masks. -/
def PassingRule (s : State) (n : Nat) (o : Origin) (force : Bool) : Prop :=
  s.passing n o force = (s.salvo n).filterMap fun e =>
    match s.checkEntry ⟨e.dest, e.mask, e.source, o, force⟩ with
    | .ok x => some x
    | .error _ => none

/-- R24: an entry without the levels of a mask, if it is for destination d. -/
def Entry.without (d : Nat) (mask : LevelMask) (e : Entry) : Entry :=
  if e.dest = d then
    { e with mask := ⟨e.mask.vid && !mask.vid, e.mask.aud1 && !mask.aud1, e.mask.aud2 && !mask.aud2, e.mask.aux && !mask.aux⟩ }
  else e

/-- R24, R25, R28: supersession in a group: each entry of destination d loses the levels of the mask, those of other
destinations stand, an entry is removed exactly when its mask becomes empty, the order stands, and the superseded count of a
firing rises by the number removed. -/
structure StripRule (d : Nat) (mask : LevelMask) (g : TakeGroup) : Prop where
  entries : (g.strip d mask).entries =
    (g.entries.map (Entry.without d mask)).filter fun e => e.mask.vid || e.mask.aud1 || e.mask.aud2 || e.mask.aux
  alone : (g.strip d mask).entries = stripEntries d mask g.entries
  single : g.firing = none → (g.strip d mask).firing = none
  salvo : ∀ f, g.firing = some f → (g.strip d mask).firing = some ⟨f.origin, f.salvo,
    ⟨f.counts.applied, f.counts.refusedAcceptance, f.counts.refusedWindow,
      f.counts.superseded + (g.entries.length - (g.strip d mask).entries.length), f.counts.fabricFault⟩⟩

/-- R40: a level of a drawn entry has a write that was acknowledged. -/
def Drawn.acknowledged (writes : List Write) (x : Drawn) (l : Level) : Prop :=
  x.written.has l = true ∧ ∃ w ∈ writes, w.dest = x.entry.dest ∧ w.level = l ∧ w.state = .acknowledged

/-- R28, R40: the outcome of a drawn entry, its done mask, and the one count of its firing that rises. -/
structure OutcomeRule (writes : List Write) (x : Drawn) : Prop where
  refused : ∀ why, x.refusal = some why → outcomeOf writes x = .refused why
  done : x.refusal = none → (∀ l, x.entry.mask.has l = true ↔ x.acknowledged writes l) →
    outcomeOf writes x = .done ∧ doneMask writes x = x.entry.mask
  fault : x.refusal = none → (∃ l, x.entry.mask.has l = true ∧ ¬x.acknowledged writes l) →
    outcomeOf writes x = .fabricFault ∧ ∀ l, (doneMask writes x).has l = true ↔ x.acknowledged writes l
  counts : ∀ c : Counts,
    (∀ why, c.count (.refused why) =
      ⟨c.applied, c.refusedAcceptance, c.refusedWindow + 1, c.superseded, c.fabricFault⟩) ∧
    c.count .done = ⟨c.applied + 1, c.refusedAcceptance, c.refusedWindow, c.superseded, c.fabricFault⟩ ∧
    c.count .fabricFault = ⟨c.applied, c.refusedAcceptance, c.refusedWindow, c.superseded, c.fabricFault + 1⟩

/-- R25, R28: the replies that supersession by an entry for destination d and mask M issues for one group; the groups of the
queue come in queue order (log entry 26). -/
def supersededReplies (d : Nat) (mask : LevelMask) (g : TakeGroup) : List Message :=
  if (g.strip d mask).entries.isEmpty then
    match (g.strip d mask).firing with
    | some f =>
      match f.origin with
      | .system tag => [{ cls := .deferred, tag := tag, payload := ReplyCode.done.byte :: countsBytes f.counts }]
      | .panel _ _ => []
    | none =>
      match g.entries with
      | [] => []
      | e :: _ =>
        match e.origin with
        | .system tag => [{ cls := .deferred, tag := tag, payload := [ReplyCode.superseded.byte] }]
        | .panel _ _ => []
  else []

/-- R24, R25: the take queue after supersession by an entry for destination d and mask M. -/
def supersededQueue (d : Nat) (mask : LevelMask) (queue : List TakeGroup) : List TakeGroup :=
  (queue.map (TakeGroup.strip d mask)).filter fun g => !g.entries.isEmpty

/-- Whether a group is a firing of salvo n by panel p. -/
def TakeGroup.firedBy (p n : Nat) (g : TakeGroup) : Bool :=
  match g.firing with
  | some f => match f.origin with
    | .panel q _ => q == p && f.salvo == n
    | .system _ => false
  | none => false

/-- R25, R28: how many firings of salvo n by panel p end by the supersession of an entry for destination d and mask M. -/
def endedFirings (p n d : Nat) (mask : LevelMask) (queue : List TakeGroup) : Nat :=
  count (fun g => (g.strip d mask).entries.isEmpty && g.firedBy p n) queue

/-- R27 step 4, R28: how many firings of salvo n by panel p end while passing entries are accepted in stored order. -/
def acceptedFirings (p n : Nat) : List Entry → List TakeGroup → Nat
  | [], _ => 0
  | e :: es, queue =>
    endedFirings p n e.dest e.mask queue + acceptedFirings p n es (supersededQueue e.dest e.mask queue)

/-- R27 step 4: the entries of a firing, the take queue and the replies issued, after passing entries are accepted in stored
order, each superseding the earlier entries of its own firing and of the queue. -/
def acceptedEntries : List Entry → List Entry × List TakeGroup × List Message → List Entry × List TakeGroup × List Message
  | [], r => r
  | e :: es, r =>
    acceptedEntries es
      (stripEntries e.dest e.mask r.1 ++ [e], supersededQueue e.dest e.mask r.2.1,
        r.2.2 ++ r.2.1.flatMap (supersededReplies e.dest e.mask))

/-- R41: the replies that the close of a window issues for one drawn group. -/
def outcomeReplies (writes : List Write) (g : DrawnGroup) : List Message :=
  match g.firing with
  | some f =>
    match f.origin with
    | .system tag =>
      [{ cls := .deferred, tag := tag,
         payload := ReplyCode.done.byte :: countsBytes (g.entries.foldl (fun c x => c.count (outcomeOf writes x)) f.counts) }]
    | .panel _ _ => []
  | none =>
    g.entries.flatMap fun x =>
      match x.entry.origin with
      | .system tag =>
        [{ cls := .deferred, tag := tag,
           payload := match outcomeOf writes x with
             | .refused why => [why.code.byte]
             | .done => [ReplyCode.done.byte, maskByte (doneMask writes x)]
             | .fabricFault => [ReplyCode.fabricFault.byte, maskByte (doneMask writes x)] }]
      | .panel _ _ => []

/-- R17: what the answers to a window's writes make of what one level held. -/
def closedLevel (writes : List Write) (d : Nat) (l : Level) (v : LevelState) : LevelState :=
  (writes.filter fun w => w.dest == d && w.level == l).foldl
    (fun v w =>
      match v with
      | .notFitted => .notFitted
      | .fitted x _ => if w.state = .acknowledged then .fitted w.source false else .fitted x true)
    v

/-- R13, R17: what the close of a window makes of the state of device n.  An ONLINE device that refused a write fails; a
readback that waited for the close begins its exchange. -/
def closedPhase (s : State) (writes : List Write) (n : Nat) : DevicePhase → DevicePhase
  | .readback kind _ => .readback kind true
  | .failed => .failed
  | .online =>
    if writes.any fun w => w.device == n && w.state != .acknowledged && s.levelAt w.dest w.level != .notFitted then .failed
    else .online

/-- R18: at least one mapped device is FAILED or at least one fitted level is FAULTED. -/
def State.fabricFaulted (s : State) : Prop :=
  (∃ e ∈ s.rc.devices.entries, e.2.phase = .failed) ∨
    ∃ e ∈ s.rc.dests.entries, ∃ l x, e.2.levels.get l = .fitted x true

/-- R41: the keys of panel p whose takes a window refused, with the reasons, for one drawn group. -/
def refusedKeys (p : Nat) (g : DrawnGroup) : List (Nat × Reason) :=
  match g.firing with
  | some _ => []
  | none =>
    g.entries.filterMap fun x =>
      match x.entry.origin, x.refusal with
      | .panel q k, some why => if q = p then some (k, why) else none
      | _, _ => none

/-- Whether a drawn group is a firing of salvo n by panel p. -/
def DrawnGroup.firedBy (p n : Nat) (g : DrawnGroup) : Bool :=
  match g.firing with
  | some f => match f.origin with
    | .panel q _ => q == p && f.salvo == n
    | .system _ => false
  | none => false

/-- R41, R171: the link after the report of one drawn group, in a state `s` whose panel table tells which panels are declared:
the replies are queued, and a refused take of a declared panel raises KEY_REFUSED. -/
def reportedLink (s : State) (writes : List Write) (h : HostLink) (g : DrawnGroup) : HostLink :=
  match g.firing with
  | some _ => { h with outbound := h.outbound ++ outcomeReplies writes g }
  | none =>
    g.entries.foldl
      (fun h x =>
        match x.entry.origin, x.refusal with
        | .panel p _, some _ => if (s.panel? p).isSome then h.raised .keyRefused else h
        | _, _ => { h with outbound := h.outbound ++ outcomeReplies writes ⟨none, [x]⟩ })
      h

/-- R18, R28, R39, R41: `u` is `s` after the close of window `w` has been reported, with the router as it is in `t`: FABRIC_FAULT
is handed over, the outcomes go out in the order of the groups, refusals go to the last-refusal records and the panel firings
end. -/
structure ClosureReported (w : Window) (s t u : State) : Prop where
  panels : ∀ p, u.panel? p = (s.panel? p).map fun v =>
    { v with lastRefusal := (w.groups.flatMap (refusedKeys p)).getLast?.or v.lastRefusal }
  firings : ∀ p n, u.pendingFirings p n = s.pendingFirings p n - count (DrawnGroup.firedBy p n) w.groups
  rest : u = { s with
    hlc := w.groups.foldl (reportedLink s w.writes) (s.hlc.handed .fabricFault s.rc.fabricFault t.rc.fabricFault)
    rc := t.rc
    pbc := { s.pbc with panels := u.pbc.panels }
    fd := { s.fd with firings := u.fd.firings } }

/-- R13, R17, R18, R28, R39, R41, R58, R176: `t` is `s` after the close of window `w`.  When a level changed, the tallies are
recomputed; otherwise the lamps alone follow the report. -/
structure ClosedBy (w : Window) (s t : State) : Prop where
  window : t.rc.window = none
  router : t.rc.queue = s.rc.queue ∧ t.rc.salvos = s.rc.salvos ∧ t.rc.windows = s.rc.windows
  levels : ∀ d l, t.levelAt d l = closedLevel w.writes d l (s.levelAt d l)
  records : ∀ d, (t.dest d).domain = (s.dest d).domain ∧ (t.dest d).protect = (s.dest d).protect
  devices : ∀ n, t.device? n = (s.device? n).map fun v => { v with phase := closedPhase s w.writes n v.phase }
  fault : t.rc.fabricFault = true ↔ t.fabricFaulted
  replies : t.hlc.deferred = s.hlc.deferred ++ w.groups.flatMap (outcomeReplies w.writes)
  bus : t.pbc = { s.pbc with panels := t.pbc.panels }
  refusals : ∀ p v, s.panel? p = some v → ∃ lamps : Table LampCell,
    t.panel? p = some { v with
      lamps := lamps, lastRefusal := (w.groups.flatMap (refusedKeys p)).getLast?.or v.lastRefusal }
  firings : ∀ p n, t.pendingFirings p n = s.pendingFirings p n - count (DrawnGroup.firedBy p n) w.groups
  retraced : (∃ d l, t.levelAt d l ≠ s.levelAt d l) → Recomputed t
  followed : ∃ u, ClosureReported w s t u ∧
    ((∃ d l, t.levelAt d l ≠ s.levelAt d l) → ascending s.tt.roots.entries = true → Retraced u t) ∧
    ((∀ d l, t.levelAt d l = s.levelAt d l) → LampsFollow u t)
  tables : t.tt = { s.tt with roots := t.tt.roots, coloursA := t.tt.coloursA, coloursB := t.tt.coloursB }
  frame : t.stu = s.stu ∧ t.fd = { s.fd with firings := t.fd.firings } ∧
    t.tc = { s.tc with talks := t.tc.talks } ∧ SameTalks t.tc.talks s.tc.talks ∧
    t.tou = { s.tou with outputs := t.tou.outputs } ∧ SameOutputs s t ∧ t.pending = s.pending

/-- The total of the five counts of a firing (R28). -/
def Counts.total (c : Counts) : Nat := c.applied + c.refusedAcceptance + c.refusedWindow + c.superseded + c.fabricFault

/-- The counts of the firing of a salvo group, none for a single-take group. -/
def TakeGroup.countsTotal (g : TakeGroup) : Nat := match g.firing with | some f => f.counts.total | none => 0

/-! ### Panels -/

/-- R49, R72, R95, R151, R178: what the loss and the removal of panel p have in common.  Its calls and talks are gone, its
keys are IDLE, its context is empty, and the buses of its bridge mixer are stale. -/
structure PanelDropped (p : Nat) (s t : State) : Prop where
  calls : t.tou = { s.tou with holders := s.tou.holders.filter (fun h => h.panel != p), outputs := t.tou.outputs } ∧
    SameOutputs s t
  talks : SameTalks t.tc.talks (s.tc.talks.filter fun x => !x.ofPanel p)
  controller : t.tc = { s.tc with talks := t.tc.talks, keys := t.tc.keys, ifbs := t.tc.ifbs }
  ifbs : IfbsLeft ((s.tc.talks.filter fun x => x.ofPanel p).map fun x => x.id) s t
  keys : ∀ q k, t.key q k = if q = p then ⟨.idle, none, none, false⟩ else s.key q k
  mixers : t.tt = { s.tt with mixers := t.tt.mixers } ∧
    ∀ m, t.mixer m = if (1 ≤ m ∧ m ≤ 2) ∧ (s.mixer m).source = .bridge p then (s.mixer m).allStale else s.mixer m
  context : ∀ q, t.context q = if q = p then ⟨none, none⟩ else s.context q
  rest : t.stu = s.stu ∧ t.pending = s.pending

/-- R152, R156: after a panel's state has changed over a link `h`, PANEL_STATE is raised and PANEL_ERRORS, which was `before`,
is whether a panel of `u` is DEGRADED. -/
def PanelStateReported (before : Bool) (h : HostLink) (u : State) : Prop :=
  (u.pbc.panelErrors = true ↔ ∃ e ∈ u.pbc.panels.entries, e.2.state = .degraded) ∧
    u.hlc = (h.raised .panelState).handed .panelErrors before u.pbc.panelErrors

/-- R136, R137: command `c` ends transaction `x` with the outcome `u`: the lamps follow, the next transaction is chosen, and an
idle link begins its oldest message. -/
def TransactionEnds (c : Instr) (s : State) (x : Transaction) (u : State) : Prop :=
  ∃ t : State, exec c s = .next { t with hlc := t.hlc.begun, pbc := chooseNext x.probe t.pbc } ∧ LampsFollow u t

/-- R153: a panel record after a counted error. -/
def Panel.counted (v : Panel) (why : ErrorKind) : Panel :=
  { v with lastError := why, errors := if v.errors < 65535 then v.errors + 1 else v.errors }

/-- R153: the link after an error is counted against a panel whose record was `v`. -/
def HostLink.counted (v : Panel) (h : HostLink) : HostLink := if v.errors = 65534 then h.raised .countSaturated else h

/-- R197: the content of a REPLY with a sequence byte and event records of three bytes. -/
def replyContent (seq : Byte) (records : List (Byte × Byte × Byte)) : List Byte :=
  seq :: byte records.length :: records.flatMap fun e => [e.1, e.2.1, e.2.2]

/-- R139, R197: an event record is malformed: its kind is outside 1..4, or it is a press or a release of a key outside 1..`keys`,
the key count of the panel, if it has one. -/
def MalformedEvent (keys : Option Nat) (e : Byte × Byte × Byte) : Prop :=
  ¬(1 ≤ e.1.toNat ∧ e.1.toNat ≤ 4) ∨
    ((e.1 = 1 ∨ e.1 = 2) ∧ ¬∃ n, keys = some n ∧ 1 ≤ e.2.1.toNat ∧ e.2.1.toNat ≤ n)

/-- R139, R197: a command ends the transaction `x`, with a panel of key count `keys`, with a counted error of a kind: a
timed-out poll, or a frame whose CRC does not check; whose CRC checks but whose kind, length or contents are malformed; or that
is well formed and names another address. -/
inductive BadAnswer (x : Transaction) (keys : Option Nat) : ErrorKind → Instr → Prop
  | timedOut : x.probe = false → BadAnswer x keys .timeout .transactionTimeout
  | crc (body : List Byte) : crcChecks body = false → BadAnswer x keys .crc (.panelFrameReceived (0x5A :: body))
  | truncated (body : List Byte) : crcChecks body = true → body.length < 4 →
      BadAnswer x keys .framing (.panelFrameReceived (0x5A :: body))
  | kind (a k : Byte) (content : List Byte) : k ≠ (if x.probe then 0x82 else 0x81) →
      BadAnswer x keys .framing (.panelFrameReceived (panelFrame a k content))
  | replyShort (a : Byte) (content : List Byte) : x.probe = false → content.length < 2 →
      BadAnswer x keys .framing (.panelFrameReceived (panelFrame a 0x81 content))
  | replyLength (a seq n : Byte) (rest : List Byte) : x.probe = false → 8 < n.toNat ∨ rest.length ≠ 3 * n.toNat →
      BadAnswer x keys .framing (.panelFrameReceived (panelFrame a 0x81 (seq :: n :: rest)))
  | replyEvent (a seq : Byte) (records : List (Byte × Byte × Byte)) : x.probe = false → records.length ≤ 8 →
      (∃ e ∈ records, MalformedEvent keys e) →
      BadAnswer x keys .framing (.panelFrameReceived (panelFrame a 0x81 (replyContent seq records)))
  | replyAddress (a seq : Byte) (records : List (Byte × Byte × Byte)) : x.probe = false → records.length ≤ 8 →
      (∀ e ∈ records, ¬MalformedEvent keys e) → a.toNat ≠ x.panel →
      BadAnswer x keys .wrongAddress (.panelFrameReceived (panelFrame a 0x81 (replyContent seq records)))
  | identLength (a : Byte) (content : List Byte) : x.probe = true → content.length ≠ 3 →
      BadAnswer x keys .framing (.panelFrameReceived (panelFrame a 0x82 content))
  | identKeys (a k n seq : Byte) : x.probe = true → ¬(1 ≤ n.toNat ∧ n.toNat ≤ 64) →
      BadAnswer x keys .framing (.panelFrameReceived (panelFrame a 0x82 [k, n, seq]))
  | identAddress (a k n seq : Byte) : x.probe = true → (1 ≤ n.toNat ∧ n.toNat ≤ 64) → a.toNat ≠ x.panel →
      BadAnswer x keys .wrongAddress (.panelFrameReceived (panelFrame a 0x82 [k, n, seq]))

/-- R197: the event record of a REPLY that reports an action. -/
def PanelAction.record : PanelAction → List Byte
  | .press k => [1, byte k, 0]
  | .release k => [2, byte k, 0]
  | .knob delta => [3, BitVec.ofInt 8 delta, 0]
  | .busState b i => [4, byte b, byte i]

/-- R139: whether a panel of a key count may report an action. -/
def PanelAction.reportable (keys : Nat) : PanelAction → Prop
  | .press k => 1 ≤ k ∧ k ≤ keys
  | .release k => 1 ≤ k ∧ k ≤ keys
  | .knob delta => -64 ≤ delta ∧ delta ≤ 63
  | .busState b i => b ≤ 255 ∧ i ≤ 255

/-- R137: whether panel p is polled at a choice. -/
def PanelBus.qualifies (b : PanelBus) (p : Nat) : Prop :=
  (1 ≤ p ∧ p ≤ 32) ∧ b.lastPolled < p ∧ ∃ v, b.panels.find? p = some v ∧
    (v.state = .joining ∨ v.state = .online ∨ (v.state = .degraded ∧ b.odd = false))

/-- R138: whether address p is probed. -/
def PanelBus.probed (b : PanelBus) (p : Nat) : Prop :=
  (1 ≤ p ∧ p ≤ 32) ∧ ∃ v, b.panels.find? p = some v ∧ (v.state = .absent ∨ v.state = .lost)

/-- R144, R147: `c` is `b` after a POLL to panel p is sent.  Its entries are the first 16 keys that differ, from the scan
pointer on and around, with their desired values; it carries the accepted sequence bit; the scan pointer moves past the
last key carried. -/
structure Polled (p : Nat) (b c : PanelBus) : Prop where
  sent : ∃ v, b.panels.find? p = some v ∧
    let keys := ((numbers v.scan 64 ++ numbers 1 (v.scan - 1)).filter fun k =>
      decide ((v.lamp k).sent ≠ some (v.lamp k).desired)).take 16
    c.transaction = some ⟨false, p, v.seqBit, keys.map fun k => (k, (v.lamp k).desired), false, v.kind⟩ ∧
    c.panels.find? p = some { v with
      scan := match keys.getLast? with
        | none => v.scan
        | some k => if k = 64 then 1 else k + 1 }
  others : ∀ q, q ≠ p → c.panels.find? q = b.panels.find? q
  rest : c = { b with lastPolled := p, panels := c.panels, transaction := c.transaction }

/-- R134, R138: `c` is `b` after a PROBE to address p is sent, which the expected kind that stands governs to its end. -/
def Probed (p : Nat) (b c : PanelBus) : Prop :=
  ∃ v, b.panels.find? p = some v ∧
    c = { b with pointer := if p = 32 then 1 else p + 1, transaction := some ⟨true, p, false, [], false, v.kind⟩ }

/-- R138: the address of the probe turn is p: the lowest that is probed at or above the probe pointer, else the lowest of
all. -/
def PanelBus.probeTurn (b : PanelBus) (p : Nat) : Prop :=
  b.probed p ∧ ((b.pointer ≤ p ∧ ∀ q, b.pointer ≤ q → q < p → ¬b.probed q) ∨
    ((∀ q, b.pointer ≤ q → ¬b.probed q) ∧ ∀ q, q < p → ¬b.probed q))

/-- R137, R138: `c` is `b` after the next transaction of the cycle is sent; the cycle is over where there is none. -/
structure Chosen (done : PanelBus → Prop) (b c : PanelBus) : Prop where
  poll : ∀ p, b.qualifies p → (∀ q, q < p → ¬b.qualifies q) → Polled p b c
  probe : (∀ q, ¬b.qualifies q) → ∀ p, b.probeTurn p → Probed p b c
  none : (∀ q, ¬b.qualifies q) → (∀ q, ¬b.probed q) → done c

/-! ### The key event queue -/

/-- R171: `u` is `s` after the refusal of an action of key k of panel p, whose record is `v`. -/
structure KeyRefused (p k : Nat) (v : Panel) (why : Reason) (s u : State) : Prop where
  record : u.panel? p = some { v with lastRefusal := some (k, why) }
  others : ∀ q, q ≠ p → u.panel? q = s.panel? q
  rest : u = { s with hlc := s.hlc.raised .keyRefused, pbc := { s.pbc with panels := u.pbc.panels } }

/-- R22 to R25, R28, R167: `u` is `s` after the take of an entry was offered for key k of panel p, whose record is `v`: refused
by the first check that fails or for want of room, or accepted into the take queue, the panel firings that it ends by
supersession counted off. -/
def PanelTakeOffered (p k : Nat) (v : Panel) (e : Entry) (s u : State) : Prop :=
  (∀ why, s.checkEntry e = .error why → KeyRefused p k v why s u) ∧
  ∀ x, s.checkEntry e = .ok x →
    (64 ≤ s.pendingEntries + s.drawnEntries → KeyRefused p k v .busy s u) ∧
    (s.pendingEntries + s.drawnEntries < 64 →
      (∀ q n, u.pendingFirings q n = s.pendingFirings q n - endedFirings q n x.dest x.mask s.rc.queue) ∧
      u = { s with
        hlc := { s.hlc with outbound := s.hlc.outbound ++ s.rc.queue.flatMap (supersededReplies x.dest x.mask) }
        rc := { s.rc with queue := supersededQueue x.dest x.mask s.rc.queue ++ [⟨none, [x]⟩] }
        fd := { s.fd with firings := u.fd.firings } })

/-- R164 (log entry 14): event `e` is taken in `s`, and `s1` is what its handling finds.  Either it stands at the head of
the key event queue, or the queue is empty and it has just joined. -/
def Taken (e : KeyEvent) (s s1 : State) : Prop :=
  (s.pbc.events = [] ∧ s1 = s) ∨ ∃ rest, s.pbc.events = e :: rest ∧ s1 = { s with pbc := { s.pbc with events := rest } }

/-- Command `c` is handled as an event with the effect `u`: the lamps follow, and an idle link begins its oldest message. -/
def EventEnds (c : Instr) (s u : State) : Prop := ∃ t : State, exec c s = .next { t with hlc := t.hlc.begun } ∧ LampsFollow u t

/-- R165: a press of key k of panel p, whose record is `v`, captures function `f`: the key is IDLE, the panel is in service,
and the function of its shown binding passes the level check and the domain check. -/
structure Captures (p k : Nat) (v : Panel) (f : KeyFunction) (s : State) : Prop where
  idle : (s.key p k).state = .idle
  panel : s.panel? p = some v
  service : v.state = .online ∨ v.state = .degraded
  bound : s.binding p v.page k ≠ 0 ∧ s.function? (s.binding p v.page k) = some f
  level : v.access ≤ f.level
  domain : f.domain = .any ∨ (f.domain = .a ∧ v.domain = .a) ∨ (f.domain = .b ∧ v.domain = .b)

/-! ### The data of the queries (R196) -/

/-- R196, sections 11.1 to 11.3: how the fields of a request and of a reply are written, one clause for each kind of field.  A
value that its rule lists is its position in that list.  Where R196 leaves a reading open, the field is the model's (log entries
9 and 28). -/
structure ReplyFields : Prop where
  words : ∀ n, be16 n = [byte (n / 256), byte n] ∧ byte n = BitVec.ofNat 8 n
  lists : ∀ items : List (List Byte), counted items = byte items.length :: items.flatten
  answers : [false, true].map yesNo = [0, 1]
  masks : ∀ m : LevelMask,
    maskByte m = byte ((if m.vid then 1 else 0) + (if m.aud1 then 2 else 0) + (if m.aud2 then 4 else 0) + if m.aux then 8 else 0)
  domains : [Domain.a, .b].map domainByte = [0, 1] ∧ [DestDomain.a, .b, .shared].map destDomainByte = [0, 1, 2] ∧
    [FunctionDomain.a, .b, .any].map functionDomainByte = [0, 1, 2]
  levels : [Level.vid, .aud1, .aud2, .aux].map levelByte = [0, 1, 2, 3]
  tallies : [Colour.red, .green, .amber].map colourByte = [0, 1, 2]
  gains : ∀ k, stepsByte k = BitVec.ofInt 8 k ∧ ceilingByte (some k) = BitVec.ofInt 8 k ∧ ceilingByte none = 0x80
  optionals : optionalByte none = 0 ∧ ∀ n, optionalByte (some n) = byte n
  targets : ∀ dom, (∀ q, targetBytes (.port q) dom = [1, byte q]) ∧ (∀ g, targetBytes (.group g) dom = [2, byte g]) ∧
    (∀ n, targetBytes (.ifb n) dom = [3, byte n]) ∧ ∀ c, targetBytes (.camera c) dom = [4, byte c]
  onair : targetBytes .onair (some .a) = [5, 0] ∧ targetBytes .onair (some .b) = [6, 0]
  lamps : lampByte .off = 0 ∧ [LampColour.red, .green, .amber, .white].map (fun c => lampByte (.lit c false)) = [1, 2, 3, 4] ∧
    [LampColour.red, .green, .amber, .white].map (fun c => lampByte (.lit c true)) = [9, 10, 11, 12]
  roles : [Role.unused, .normal, .ifbOutput, .programInput].map roleByte = [0, 1, 2, 3]
  families : [FrameFamily.f25, .f29_97, .f50, .f59_94].map familyByte = [0, 1, 2, 3]
  modes : [TalkMode.momentary, .latching, .auto].map talkModeByte = [0, 1, 2] ∧
    [CountMode.auto, .manual].map countModeByte = [0, 1]
  kinds : [PanelKind.control, .mixerBridge].map panelKindByte = [0, 1]
  edges : [Edge.rise, .fall, .both].map edgeByte = [0, 1, 2] ∧ ∀ e : EdgeSelects, edgesBytes e =
    [edgeByte e.panelErrors, edgeByte e.refLost, edgeByte e.lampFault, edgeByte e.pathStarved, edgeByte e.fabricFault]
  actions : (∀ d m x, actionBytes (.routeTake d m x) = 0 :: be16 d ++ [maskByte m] ++ be16 x) ∧
    (∀ d, actionBytes (.selectDest d) = 1 :: be16 d) ∧ (∀ x, actionBytes (.presetSource x) = 2 :: be16 x) ∧
    (∀ m, actionBytes (.takePreset m) = [3, maskByte m]) ∧ (∀ n, actionBytes (.salvoFire n) = [4, byte n]) ∧
    (∀ d, actionBytes (.protectToggle (some d)) = 5 :: be16 d) ∧ actionBytes (.protectToggle none) = [5, 0, 0] ∧
    (∀ t dom m x p, actionBytes (.talk t dom m x p) = 6 :: targetBytes t dom ++ [talkModeByte m, stepsByte x, byte p]) ∧
    (∀ c, actionBytes (.call c) = [7, byte c]) ∧ actionBytes .pageToggle = [8] ∧
    ∀ c, actionBytes (.systemKey c) = [9, byte c]
  replies : [ReplyCode.ok, .done, .superseded, .prot, .locked, .denied, .busy, .badArg, .badTarget, .badState, .noSpace, .noPort,
    .noContext, .fabricFault, .unknown].map ReplyCode.byte = [0, 1, 2, 3, 4, 5, 6, 7, 8, 9, 10, 11, 12, 13, 14]
  reasonCodes : [Reason.denied, .noContext, .badArg, .prot, .locked, .busy, .noPort, .badTarget, .noSpace].map Reason.code =
    [.denied, .noContext, .badArg, .prot, .locked, .busy, .noPort, .badTarget, .noSpace]
  counts : ∀ c : Counts, countsBytes c =
    [byte c.applied, byte c.refusedAcceptance, byte c.refusedWindow, byte c.superseded, byte c.fabricFault]
  absent : optByte none = 0xFF ∧ optWord none = [0xFF, 0xFF]
  present : ∀ n, optByte (some n) = byte n ∧ optWord (some n) = be16 n
  numbers : ∀ n, be32 n = [byte (n / 16777216), byte (n / 65536), byte (n / 256), byte n]
  protects : protectBytes .none = [0] ∧ (∀ p, protectBytes (.panel p) = [1, byte p]) ∧ protectBytes .systemLock = [2] ∧
    protectBytes .startupLock = [3]
  phases : phaseByte none = 0 ∧ (∀ kind begun, phaseByte (some (.readback kind begun)) = 1) ∧
    phaseByte (some .online) = 2 ∧ phaseByte (some .failed) = 3
  colours : ∀ c, colourSetByte c = byte ((if c.red then 1 else 0) + (if c.green then 2 else 0) + if c.amber then 4 else 0)
  roots : rootConfigBytes none = [0xFF, 0xFF, 0xFF] ∧
    (∀ dom c d l, rootConfigBytes (some ⟨dom, c, .dest d l⟩) =
      [domainByte dom, colourByte c, 0] ++ be16 d ++ [levelByte l]) ∧
    ∀ dom c m b, rootConfigBytes (some ⟨dom, c, .mixerBus m b⟩) = [domainByte dom, colourByte c, 1, byte m, byte b]
  results : (∀ x, traceResultBytes (.terminal x) = 0 :: be16 x) ∧ traceResultBytes .noTerminal = [1] ∧
    traceResultBytes .fault = [2]
  faults : traceFaultBytes none = [0xFF, 0xFF, 0xFF] ∧ (∀ d, traceFaultBytes (some ⟨.loop, d⟩) = 0 :: be16 d) ∧
    ∀ d, traceFaultBytes (some ⟨.depth, d⟩) = 1 :: be16 d
  sources : mixerSourceByte .system = 0 ∧ ∀ p, mixerSourceByte (.bridge p) = byte p
  drives : [Drive.off, .on, .flash].map driveByte = [0, 1, 2]
  lampFaults : [LampFaultState.ok, .openLoad, .short].map lampFaultByte = [0, 1, 2]
  ports : ∀ v : Port, portBytes v = [roleByte v.role, stepsByte v.trim, stepsByte v.volume, stepsByte v.dim,
    ceilingByte v.ceiling, ceilingByte v.talkerCeiling]
  origins : (∀ p k, talkOriginBytes (.panel p k) = [byte p, byte k]) ∧ ∀ n, talkOriginBytes (.system n) = [0, byte n]
  talks : ∀ t : Talk, talkBytes t = [byte t.id, byte t.talker] ++ targetBytes t.target t.domain ++
    [stepsByte t.level, byte t.priority] ++ talkOriginBytes t.origin ++
    [match t.domain with | none => 0xFF | some d => domainByte d] ++ be32 t.creation ++ [byte t.reservation]
  keyStates : [KeyState.idle, .held, .heldLong, .latched, .heldCancel].map keyStateByte = [0, 1, 2, 3, 4]
  keys : ∀ y : KeyTalk, keyTalkBytes y =
    [keyStateByte y.state] ++ y.mode.toList.map talkModeByte ++ y.talk.toList.map byte
  coefficients : coefficientBytes .off = [0x80, 0x00] ∧ ∀ k, coefficientBytes (.steps k) = be16 (BitVec.ofInt 16 k).toNat
  admissions : admissionBytes .starved = [] ∧ ∀ n c, admissionBytes (.admitted n c) = be32 n ++ coefficientBytes c
  panelStates : [PanelState.absent, .joining, .online, .degraded, .lost].map panelStateByte = [0, 1, 2, 3, 4]
  errors : [ErrorKind.none, .crc, .framing, .timeout, .wrongAddress, .wrongKind].map errorKindByte = [0, 1, 2, 3, 4, 5]
  refusals : lastRefusalBytes none = [0xFF, 0xFF] ∧ ∀ k why, lastRefusalBytes (some (k, why)) = [byte k, why.byte]
  reasons : [Reason.unbound, .empty, .denied, .noContext, .badArg, .prot, .locked, .busy, .noPort, .badTarget, .noSpace].map
    Reason.byte = [0, 1, 2, 3, 4, 5, 6, 7, 8, 9, 10]
  held : heldBytes none = [0] ∧ (∀ c, heldBytes (some (.call c)) = [1, byte c]) ∧
    ∀ c, heldBytes (some (.systemKey c)) = [2, byte c]
  sent : sentByte none = 0xFF ∧ ∀ x, sentByte (some x) = lampByte x

/-- R20, R62, R78, R100, R119, R158, R179, R193, R196: the data of the query forms over a state, item by item in the order of
the rule that specifies the form.  Where the rules leave a reading open, the item is the model's (log entries 9, 28 and 29). -/
structure ReplyData (s : State) : Prop where
  level : ∀ d l, (s.levelAt d l = .notFitted → routeLevelBytes s d l = [0xFF, 0xFF]) ∧
    ∀ x f e, s.levelAt d l = .fitted x f → s.rc.devices.entries.find? (fun e => e.2.covers d l) = some e →
      routeLevelBytes s d l = be16 x ++ [yesNo f, byte e.1, phaseByte (some e.2.phase)]
  dest : ∀ d, destData s d = [destDomainByte (s.dest d).domain] ++ protectBytes (s.dest d).protect ++
    routeLevelBytes s d .vid ++ routeLevelBytes s d .aud1 ++ routeLevelBytes s d .aud2 ++ routeLevelBytes s d .aux
  device : ∀ n, (s.device? n = none → deviceData s n = [phaseByte none]) ∧ ∀ v, s.device? n = some v →
    deviceData s n = [phaseByte (some v.phase), levelByte v.level] ++ be16 v.first ++ be16 v.last ++ [byte v.address]
  colours : ∀ first, sourcesData s first = (numbers first (min (first + 63) 256)).flatMap fun x =>
    [colourSetByte (s.colours .a x), colourSetByte (s.colours .b x)]
  root : ∀ r, rootData s r = [yesNo (s.root r).enabled] ++ rootConfigBytes (s.root r).config ++
    traceResultBytes (s.root r).last ++ traceFaultBytes (s.root r).fault
  mixer : ∀ m, mixerData s m = mixerSourceByte (s.mixer m).source :: (numbers 1 8).flatMap fun b =>
    [byte ((s.mixer m).bus b).selection, yesNo ((s.mixer m).bus b).stale]
  map : ∀ m, mapData s m = (numbers 1 48).flatMap fun i => optWord (s.mapEntry m i)
  ties : tiesData s = byte s.tt.ties.entries.length :: s.tt.ties.entries.flatMap fun e => be16 e.1 ++ be16 e.2
  talks : ∀ first, talksData s first = ((numbers first (first + 15)).flatMap fun id =>
    match s.talk? id with | some t => talkBytes t | none => [0]) ++ be16 (totalReservations s.tc.talks)
  slots : slotsData s = (numbers 1 8).map fun n => optByte ((s.slotTalk? n).map fun t => t.id)
  keys : ∀ p, keysData s p = (numbers 1 64).flatMap fun k => keyTalkBytes (s.key p k)
  talkPath : ∀ p : Path, p.kind = .talk → pathBytes s p =
    [0, byte p.talker, if p.admission = .starved then 1 else 0, byte p.priority, stepsByte p.level, byte p.talks.length] ++
      p.talks.map byte ++ be32 (s.placeOf p) ++ admissionBytes p.admission
  programPath : ∀ (p : Path) n, p.kind = .program n → pathBytes s p =
    [1, byte n, byte p.talker, if p.admission = .starved then 1 else 0, byte p.priority, byte p.talks.length] ++
      p.talks.map byte ++ admissionBytes p.admission
  listener : ∀ q first, listenerData s q first =
    let shown := ((s.tme.paths.filter fun p => p.listener == q).drop (first - 1)).take 2
    byte shown.length :: shown.flatMap (pathBytes s)
  starved : s.tme.paths.Nodup → ∃ order, InCandidateOrder s (fun p => p ∈ s.tme.paths ∧ p.admission = .starved) order ∧
    ∀ first, starvedData s first =
      let shown := (order.drop (first - 1)).take 16
      byte shown.length :: shown.flatMap fun p => [byte p.talker, byte p.listener, byte p.priority]
  counts : countsData s =
    be16 (count (fun p => p.kind == .talk) s.tme.paths) ++ [byte (count (fun p => p.kind != .talk) s.tme.paths)] ++
      be16 (count (fun p => p.admission != .starved) s.tme.paths) ++
      be16 (count (fun p => p.admission == .starved) s.tme.paths) ++
      (numbers 1 64).map fun q => byte (count (fun p => p.admission != .starved && p.listener == q) s.tme.paths)
  ifb : ∀ n, (s.ifb? n = none → ifbData s n = [0]) ∧ ∀ i, s.ifb? n = some i → ifbData s n =
    let idle := (s.tc.talks.filter fun t => t.target == .ifb n && t.priority == 0).map fun t => t.id
    [1, byte i.output, byte i.program, ceilingByte i.duck, yesNo i.noPreempt, optByte i.current, byte i.level,
      byte i.pending.length] ++ i.pending.map byte ++ byte idle.length :: idle.map byte
  panel : ∀ p, (s.panel? p = none → panelData s p = [0]) ∧ ∀ v, s.panel? p = some v → panelData s p =
    [1, panelKindByte v.kind, byte v.access, domainByte v.domain, optionalByte v.ownPort, panelStateByte v.state,
      optByte v.keyCount, byte v.missed, yesNo v.page] ++ lastRefusalBytes v.lastRefusal ++
      [byte v.scan, byte (count (fun k => (v.lamp k).sent != some (v.lamp k).desired) (numbers 1 64))]
  function : ∀ f, (s.function? f = none → functionData s f = [1]) ∧ ∀ v, s.function? f = some v →
    functionData s f = [0] ++ actionBytes v.action ++ [byte v.level, functionDomainByte v.domain]
  bindings : ∀ p page1, bindingsData s p page1 = (numbers 1 64).flatMap fun k => be16 (s.binding p page1 k)
  context : ∀ p, contextData s p = optWord (s.context p).dest ++ optWord (s.context p).source ++
    ((numbers 1 64).flatMap fun k => heldBytes (s.held? p k)) ++ (numbers 1 16).map fun n => byte (s.pendingFirings p n)
  lamps : ∀ p, (s.panel? p = none → lampsData s p = [0]) ∧ ∀ v, s.panel? p = some v →
    lampsData s p = 1 :: (numbers 1 64).flatMap fun k =>
      [lampByte (v.lamp k).desired, sentByte (v.lamp k).sent, lampByte (s.hostLamp p k)]
  panelCounts : countData s = ((numbers 1 32).flatMap fun p => match s.panel? p with
      | none => [0, 0, 0, 0, 0]
      | some v => be16 v.errors ++ be16 v.lastWindow ++ [errorKindByte v.lastError]) ++
    [countModeByte s.pbc.mode, byte s.pbc.threshold, byte s.pbc.events.length]
  calls : ∀ c, s.callCount c = (s.tou.holders.filter fun h => h.camera == c).length
  status : statusData s =
    [familyByte s.stu.family, if s.stu.reference = .lost then 1 else 0,
      byte (64 - s.pendingEntries - s.drawnEntries)] ++
    ((numbers 1 48).flatMap fun n =>
      [yesNo (s.output n).config.isSome, driveByte (s.output n).drive, lampFaultByte (s.output n).fault]) ++
    ((numbers 1 24).flatMap fun c => [yesNo (s.camera? c).isSome, byte (s.callCount c)]) ++
    [yesNo s.pbc.panelErrors, if s.stu.reference = .lost then 1 else 0, yesNo s.tou.lampFault, yesNo s.tme.pathStarved,
      yesNo s.rc.fabricFault] ++
    be16 s.hlc.enabled.toNat ++ be16 s.hlc.set.toNat ++ edgesBytes s.hlc.edges ++
    [byte (s.hlc.executed.length + s.hlc.waiting.length + 1), byte s.hlc.owed, byte s.hlc.outbound.length]

/-! ### Invariants -/

/-- R185: how many deferred replies a pending group still owes to the host. -/
def TakeGroup.owes (g : TakeGroup) : Nat :=
  match g.firing with
  | some f => match f.origin with
    | .system _ => 1
    | .panel _ _ => 0
  | none => count (fun e => match e.origin with | .system _ => true | .panel _ _ => false) g.entries

/-- R185: how many deferred replies a drawn group still owes to the host. -/
def DrawnGroup.owes (g : DrawnGroup) : Nat := TakeGroup.owes ⟨g.firing, g.entries.map fun x => x.entry⟩

/-- R185: how many deferred replies the take queue and the open window still owe to the host. -/
def RouteController.owes (r : RouteController) : Nat :=
  (r.queue.map TakeGroup.owes).sum + match r.window with
    | none => 0
    | some w => (w.groups.map DrawnGroup.owes).sum

/-- R183 to R188: the link keeps its order and its bounds.  A message waits only behind one in transmission, each executed
request has its reply waiting, the queues keep their bounds, no disabled flag is set, and a set flag has a message to carry
it.  At most 64 deferred replies are owed: those that wait, and those that the pending takes and firings, single takes of one
entry each, have still to issue. -/
structure LinkOrdered (s : State) : Prop where
  idle : s.hlc.sending = none → s.hlc.outbound = []
  replies : s.hlc.executed.length = count (fun m => m.cls == .reply) s.hlc.outbound
  requests : s.hlc.executed.length + s.hlc.waiting.length ≤ Config.requestPlaces
  overflow : count (fun m => m.cls == .overflow) s.hlc.outbound ≤ Config.overflowPlaces
  owed : s.hlc.owed = count (fun m => m.cls == .deferred) s.hlc.outbound + s.rc.owes ∧ s.hlc.owed ≤ Config.owedLimit
  single : ∀ g ∈ s.rc.queue, g.firing = none → g.entries.length = 1
  restart : count (fun m => m.cls == .restartReply) s.hlc.outbound ≤ 1
  flagsOnce : count (fun m => m.cls == .eventFlags) s.hlc.outbound ≤ 1
  enabled : ∀ f : Flag, s.flagSet f = true → s.flagEnabled f = true
  carried : (∃ f : Flag, s.flagSet f = true) → s.flagsWaiting = true

/-- R23, R26, R36: the take queue holds at most 64 entries with those drawn, groups of 1..32 entries, no two of which share
a destination and a level; salvos hold at most 32 entries; no window carries more than 128 writes. -/
structure QueueBounded (s : State) : Prop where
  room : s.pendingEntries + s.drawnEntries ≤ Config.takeRoom
  groups : ∀ g ∈ s.rc.queue, 1 ≤ g.entries.length ∧ g.entries.length ≤ 32
  disjoint : (s.rc.queue.flatMap fun g => g.entries).Pairwise fun a b =>
    a.dest = b.dest → ∀ l, ¬(LevelMask.has a.mask l = true ∧ LevelMask.has b.mask l = true)
  salvos : ∀ n, (s.salvo n).length ≤ 32
  writes : ∀ w, s.rc.window = some w → w.writes.length ≤ Config.windowWrites

/-- R1, R12: a level is fitted exactly where a mapped device covers it, and no two mapped devices cover one destination
level. -/
structure LevelsFitted (s : State) : Prop where
  fitted : ∀ d l, s.levelAt d l ≠ .notFitted ↔ ∃ n v, s.device? n = some v ∧ v.covers d l = true
  single : ∀ m n v w d l, s.device? m = some v → s.device? n = some w → v.covers d l = true → w.covers d l = true → m = n

/-- R57: the colour set of every source in every domain is the union of the colours of that domain's enabled roots whose
trace ends at that source. -/
structure ColoursAgree (s : State) : Prop where
  listed : ascending s.tt.roots.entries = true
  union : ∀ dom x c, (s.colours dom x).has c = true ↔
    ∃ r cfg, (s.root r).enabled = true ∧ (s.root r).config = some cfg ∧ cfg.domain = dom ∧ cfg.colour = c ∧
      s.trace cfg.kind = .terminal x

/-- R69: the drive of every output is the one that R68 gives over the state as it stands. -/
def DrivesAgree (s : State) : Prop := ∀ n, (s.output n).drive = s.driveOf n

/-- R174, R176: every desired lamp value of every declared panel is the one that R174 derives over the state as it
stands. -/
def LampsAgree (s : State) : Prop :=
  ∀ p v k, s.panel? p = some v → within 1 64 k = true → (v.lamp k).desired = s.lampOf p k v

/-- R84, R85: at most 96 talks with distinct ids 1..96, in ascending order of their creation numbers, which the counter has
passed, and with reservations that total at most 512. -/
structure TalkSetBounded (s : State) : Prop where
  ids : (s.tc.talks.map fun t => t.id).Nodup
  range : ∀ t ∈ s.tc.talks, 1 ≤ t.id ∧ t.id ≤ Config.talkPlaces
  places : s.tc.talks.length ≤ Config.talkPlaces
  order : s.tc.talks.Pairwise fun t u => t.creation < u.creation
  created : ∀ t ∈ s.tc.talks, 1 ≤ t.creation ∧ t.creation < s.tc.counter
  counter : 1 ≤ s.tc.counter ∧ s.tc.counter ≤ Config.lastNumber
  total : totalReservations s.tc.talks ≤ Config.reservationTotal

/-- R102, R106: no path has one port as talker and listener, at most 12 paths into one listener and at most 256 in all are
admitted. -/
structure PathsBounded (s : State) : Prop where
  ends : ∀ p ∈ s.tme.paths, p.talker ≠ p.listener
  ifbEnds : ∀ e ∈ s.tc.ifbs.entries, e.2.program ≠ e.2.output
  listed : ascending s.tc.ifbs.entries = true
  listener : ∀ l, admittedInto s.tme.paths l ≤ Config.listenerCap
  total : admittedCount s.tme.paths ≤ Config.totalCap

/-- R97, R101 to R107, R112, R120: the path table agrees with the talk set, the IFB records and the ports.  The listeners of every
talk are those of its target over the groups, the cameras, the colours and the IFBs as they stand; a TALK path stands exactly
for each talker and listener that some talk joins, with the talks, level and priority that follow, and a PROGRAM path, always
admitted, exactly for each configured IFB; a path is starved only where a cap binds; every coefficient is the one that Chapter 7
gives; PATH_STARVED is whether a path is starved. -/
structure MixAgrees (s : State) : Prop where
  listeners : ∀ t ∈ s.tc.talks, t.listeners = s.listenersOf t
  ordered : s.tme.paths.Pairwise fun p q => tableBefore p q = true
  talkPaths : ∀ a b, (∃ p ∈ s.tme.paths, p.kind = .talk ∧ p.talker = a ∧ p.listener = b) ↔
    ∃ t ∈ s.tc.talks, t.talker = a ∧ b ∈ t.listeners
  derived : ∀ p ∈ s.tme.paths, p.kind = .talk →
    p.talks = (s.tc.talks.filter fun x => x.talker == p.talker && x.listeners.contains p.listener).map (fun x => x.id) ∧
    p.level = highestLevel (s.talksOf p.talks) ∧ p.priority = highestPriority (s.talksOf p.talks)
  programPaths : ∀ n a b, (∃ p ∈ s.tme.paths, p.kind = .program n ∧ p.talker = a ∧ p.listener = b) ↔
    ∃ i, s.ifb? n = some i ∧ i.program = a ∧ i.output = b
  programs : ∀ p ∈ s.tme.paths, p.kind ≠ .talk → p.isAdmitted = true ∧ p.talks = [] ∧ p.level = 0 ∧ p.priority = 8
  coefficients : ∀ p ∈ s.tme.paths, s.withCoefficient s.tme.paths p = p
  full : ∀ p ∈ s.tme.paths, p.admission = .starved →
    Config.listenerCap ≤ admittedInto s.tme.paths p.listener ∨ Config.totalCap ≤ admittedCount s.tme.paths
  numbers : (s.tme.paths.filter fun p => p.isTalk && p.isAdmitted).Pairwise (fun p q => p.number ≠ q.number) ∧
    (∀ p ∈ s.tme.paths, p.kind = .talk → p.isAdmitted = true → 1 ≤ p.number ∧ p.number < s.tme.counter) ∧
    1 ≤ s.tme.counter ∧ s.tme.counter ≤ Config.lastNumber
  starved : s.tme.pathStarved = true ↔ ∃ p ∈ s.tme.paths, p.admission = .starved
  ifbs : ascending s.tc.ifbs.entries = true ∧ (∀ e ∈ s.tc.ifbs.entries, 1 ≤ e.1 ∧ e.1 ≤ 16) ∧
    s.tc.ifbs.entries.Pairwise fun e f => e.2.output ≠ f.2.output
  priorities : (∀ t ∈ s.tc.talks, t.priority ≤ 7) ∧
    ∀ f x target dom mode level priority, s.function? f = some x → x.action = .talk target dom mode level priority →
      priority ≤ 7

/-- R113: the arbitration of every configured IFB.  Its current level is the priority of its current interrupter, its
pending list holds at most 16 other active talks addressed to it in order of priority, talker port and creation, is empty
without an interrupter, and holds no talk above the current level unless the IFB is NO_PREEMPT.  A talk of priority 1..7
addressed to an IFB is its current interrupter or pending. -/
structure IfbArbitrated (s : State) : Prop where
  idle : ∀ n i, s.ifb? n = some i → i.current = none → i.level = 0 ∧ i.pending = []
  current : ∀ n i c, s.ifb? n = some i → i.current = some c →
    ∃ t, s.talk? c = some t ∧ t.target = .ifb n ∧ i.level = t.priority ∧ 1 ≤ t.priority
  pending : ∀ n i c, s.ifb? n = some i → c ∈ i.pending →
    i.current ≠ some c ∧ ∃ t, s.talk? c = some t ∧ t.target = .ifb n ∧ 1 ≤ t.priority
  room : ∀ n i, s.ifb? n = some i → i.pending.Nodup ∧ i.pending.length ≤ Config.ifbPending
  order : ∀ n i, s.ifb? n = some i → i.pending.Pairwise s.waitsBefore
  complete : ∀ t ∈ s.tc.talks, ∀ n, t.target = .ifb n → 1 ≤ t.priority →
    ∃ i, s.ifb? n = some i ∧ (i.current = some t.id ∨ t.id ∈ i.pending)
  preempted : ∀ n i c, s.ifb? n = some i → i.noPreempt = false → c ∈ i.pending → s.priorityOf c ≤ i.level

/-- R95: every talk of panel origin belongs to a panel that is ONLINE or DEGRADED.  A probe in flight whose outcome counts
is of a panel that is ABSENT or LOST (R138), so that an IDENT never takes a panel in service out of it. -/
structure PanelTalksServed (s : State) : Prop where
  served : ∀ t ∈ s.tc.talks, ∀ p k, t.origin = .panel p k → s.inService p = true
  probed : ∀ x, s.pbc.transaction = some x → x.probe = true → x.discard = false →
    s.panelState? x.panel = some .absent ∨ s.panelState? x.panel = some .lost

/-- R51, R70, R79, R140, R145, R153, R154, R172: the bounds of the remaining tables, counters and volumes. -/
structure TablesBounded (s : State) : Prop where
  calls : s.tou.holders.length ≤ Config.callPlaces
  ties : ascending s.tt.ties.entries = true ∧ s.tt.ties.entries.length ≤ Config.tiePlaces
  volumes : ∀ q, -120 ≤ (s.port q).volume ∧ (s.port q).volume ≤ 0
  events : s.pbc.events.length ≤ Config.keyEventPlaces
  threshold : 1 ≤ s.pbc.threshold ∧ s.pbc.threshold ≤ 255
  panels : ∀ p v, s.panel? p = some v → v.missed ≤ 2 ∧ v.errors ≤ Config.errorCounterTop ∧ v.lastWindow ≤ Config.errorCounterTop
  systemKeys : s.fd.systemKeys.length ≤ Config.systemKeyPlaces

end Sys2Proof.Machine
end

