-- ==== Sys2Proof/Certificates/Slice0/Obligations.lean ====
section
/-! DEFINITION. The statements for the provers.  Each is written from the rules of spec/ in the words of Safety.lean: what a
command does when it is its turn, what it leaves alone, when it is refused and with what, and the invariants that every
step keeps.  `s` is the state before the command, `s1` what a request in its turn finds, `t` the state after. -/

open Sys2Proof Sys2Proof.Machine

/-! ### The queue of commands, reset and power-on -/

/-- A step takes the command at the front of the queue and executes it on the state with the queue's rest (log entry 2). -/
def Obligations.StepRunsTheFrontCommand : Prop :=
  ∀ (c : Instr) (rest : List Instr) (s : State),
    step { s with pending := c :: rest } = exec c { s with pending := rest }

/-- The model's choice (log entry 2): an empty queue idles and no word spells a command.  Every command answers a next
state, and none touches the queue of commands. -/
def Obligations.EveryCommandCompletes : Prop :=
  (∀ s : State, s.pending = [] → step s = .next s) ∧
    (∀ (s : State) (nbits w : Nat), decodeTableWord nbits w = none ∧ s.withFetchWord nbits w = s) ∧
    ∀ (c : Instr) (s : State), ∃ t, exec c s = .next t ∧ t.pending = s.pending

/-- R190, R29, R181 to R187: what power-on leaves, from reset and from any state.  That the queue of commands and the
model's window numbers go on is the model's choice (log entries 2 and 4). -/
def Obligations.PowerOnValues : Prop :=
  (StartValues State.reset ∧ LinkAtPowerOn State.reset.hlc ∧ State.reset.stu.family = .f59_94 ∧ State.reset.pending = []) ∧
    ∀ s : State, ∃ t, exec .powerOn s = .next t ∧ StartValues t ∧ LinkAtPowerOn t.hlc ∧ t.stu.family = .f59_94 ∧
      t.pending = s.pending ∧ t.rc.windows = s.rc.windows

/-- R190, R191, R157: RESTART with scope ALL.  Every block takes its start values and the frame family stands; the queues
are emptied, a message in transmission goes on, and the reply is the only message.  The transaction on the panel bus goes
on to its end with its outcome discarded. -/
def Obligations.RestartAllScope : Prop :=
  ∀ (tag : Byte) (s s1 : State), InTurn ⟨0xA1, tag, [0]⟩ s s1 →
    ∃ t, exec (.restartAll tag [0]) s = .next t ∧ StartValues t ∧ t.stu.family = s.stu.family ∧
      t.hlc.collected = [] ∧ t.hlc.executed = [] ∧ t.hlc.waiting = [] ∧ t.hlc.owed = 0 ∧
      t.hlc.enabled = 0 ∧ t.hlc.set = 0 ∧ t.hlc.edges = ⟨.rise, .rise, .rise, .rise, .rise⟩ ∧
      (∀ m, s.hlc.sending = some m → t.hlc.sending = some m ∧ t.hlc.outbound = [⟨.restartReply, tag, [0]⟩]) ∧
      (s.hlc.sending = none → t.hlc.sending = some ⟨.restartReply, tag, [0]⟩ ∧ t.hlc.outbound = []) ∧
      t.pbc.transaction = s.pbc.transaction.map (fun x => { x with discard := true }) ∧
      t.pbc.newCycle = s.pbc.transaction.isSome ∧ t.pending = s.pending

/-- R157, R49, R72, R96, R178, R190: RESTART with scope PANELS.  Every panel is ABSENT, at page 0 and with no missed poll, its
sent lamps UNKNOWN and its scan pointer at 1; the key event queue is empty; the calls, the talks of panel origin, the contexts
and the held-key records are gone and every key is IDLE; the talks of panel origin leave the IFBs (R116); every bus of a bridge
mixer is stale; the path table is that of the handling (R110).  The flags are those of the handling, PANEL_STATE when a panel
was not ABSENT, and a change of PANEL_ERRORS, behind the reply.  The router, the timing, the functions and the rest stand. -/
def Obligations.RestartPanelsScope : Prop :=
  ∀ (tag : Byte) (s s1 : State), Settled s → InTurn ⟨0xA1, tag, [1]⟩ s s1 → (s.tc.talks.map fun t => t.id).Nodup →
    ∃ t, exec (.restartPanels tag [1]) s = .next t ∧
      t.rc = s.rc ∧ t.stu = s.stu ∧ t.pending = s.pending ∧
      t.tt = { s.tt with mixers := t.tt.mixers } ∧
      (∀ m, t.mixer m = if within 1 2 m = true ∧ (s.mixer m).source ≠ .system then (s.mixer m).allStale else s.mixer m) ∧
      t.tou = { s.tou with holders := [], outputs := t.tou.outputs } ∧ SameOutputs s t ∧
      SameTalks t.tc.talks (s.tc.talks.filter fun x => !x.ofAnyPanel) ∧ MixHandled s t ∧
      t.tc = { s.tc with talks := t.tc.talks, ifbs := t.tc.ifbs, keys := t.tc.keys } ∧
      IfbsLeft ((s.tc.talks.filter fun x => x.ofAnyPanel).map fun x => x.id) s t ∧
      (∀ p k, t.key p k = ⟨.idle, none, none, false⟩) ∧
      t.fd = { s.fd with contexts := ⟨[]⟩, held := ⟨[]⟩ } ∧
      t.pbc.events = [] ∧ t.pbc.odd = false ∧ t.pbc.mode = s.pbc.mode ∧ t.pbc.threshold = s.pbc.threshold ∧
      (∀ x, s.pbc.transaction = some x →
        t.pbc.transaction = some { x with discard := true } ∧ t.pbc.newCycle = true ∧ t.pbc.pointer = 1) ∧
      (∀ p, s.panel? p = none → t.panel? p = none) ∧
      (∀ p v, s.panel? p = some v → ∃ lamps : Table LampCell,
        t.panel? p = some { v with state := .absent, missed := 0, page := false, scan := 1, lamps := lamps } ∧
        ∀ k, within 1 64 k = true → lamps.get LampCell.start k = ⟨t.lampOf p k { v with page := false }, none⟩) ∧
      ∃ h h2, TalkReported s t (s1.hlc.answered ⟨0xA1, tag, [1]⟩ .ok []) h ∧
        RaisedIf .panelState (∃ e ∈ s.pbc.panels.entries, e.2.state ≠ .absent) h h2 ∧
        t.hlc = h2.handed .panelErrors s.pbc.panelErrors false ∧ t.pbc.panelErrors = false

/-- R96, R118, R178, R190: RESTART with scope TALK.  Every talk ends, every key is IDLE, the creation counter is 1, the contexts
are empty, the IFBs are idle and only PROGRAM paths remain, by one handling (R110), whose flags go out behind the reply.
Everything else stands, but for the lamps. -/
def Obligations.RestartTalkScope : Prop :=
  ∀ (tag : Byte) (s s1 : State), Settled s → IfbArbitrated s → InTurn ⟨0xA1, tag, [2]⟩ s s1 →
    ∃ t, exec (.restartTalk tag [2]) s = .next t ∧
      t.rc = s.rc ∧ t.stu = s.stu ∧ t.tt = s.tt ∧ t.tou = s.tou ∧ t.pending = s.pending ∧
      t.tc.talks = [] ∧ t.tc.counter = 1 ∧ (∀ p k, t.key p k = ⟨.idle, none, none, false⟩) ∧
      t.tc = { s.tc with talks := [], counter := 1, keys := t.tc.keys, ifbs := t.tc.ifbs } ∧
      (∀ n, t.ifb? n = (s.ifb? n).map fun i => { i with current := none, level := 0, pending := [] }) ∧
      (s.tc.talks ≠ [] → ∀ p ∈ t.tme.paths, ∃ n, p.kind = .program n) ∧ MixHandled s t ∧
      t.fd = { s.fd with contexts := ⟨[]⟩ } ∧
      Relamped { s with tc := t.tc, tme := t.tme, fd := t.fd } t ∧
      TalkReported s t (s1.hlc.answered ⟨0xA1, tag, [2]⟩ .ok []) t.hlc

/-! ### The host link -/

/-- R180 to R183: a host frame, as section 11.2 lays it out with its CRC, is received: its kind, tag and payload take a
place in the request queue, at the tail.  No bit of a frame is lost.  R180, R197: the frames of both lines and their CRC: its
initial value, what a byte makes of it, bit by bit, its value of the nine bytes 0x31 to 0x39, and when it checks. -/
def Obligations.GoodFrameIsQueued : Prop :=
  (∀ (kind tag : Byte) (payload : List Byte), hostFrame kind tag payload =
    [0xC3, byte payload.length, kind, tag] ++ payload ++
      be16 (crc16 ([byte payload.length, kind, tag] ++ payload)).toNat) ∧
  (∀ (address kind : Byte) (content : List Byte), panelFrame address kind content =
    [0x5A, address, kind] ++ content ++ be16 (crc16 ([address, kind] ++ content)).toNat) ∧
  (crc16 [] = 0xFFFF#16 ∧
    (∀ (bytes : List Byte) (b : Byte), crc16 (bytes ++ [b]) =
      Nat.repeat (fun c => if c.getLsbD 15 then (c <<< 1) ^^^ 0x1021#16 else c <<< 1) 8
        (crc16 bytes ^^^ (b.zeroExtend 16 <<< 8))) ∧
    crc16 [0x31, 0x32, 0x33, 0x34, 0x35, 0x36, 0x37, 0x38, 0x39] = 0x29B1#16) ∧
  (∀ bytes : List Byte, crcChecks bytes = true ↔ ∃ body, bytes = body ++ be16 (crc16 body).toNat) ∧
  ∀ (kind tag : Byte) (payload : List Byte) (s : State), payload.length ≤ 240 → s.hlc.collected = [] →
    s.hlc.executed.length + s.hlc.waiting.length < 8 → Settled s →
    exec (.hostFrameReceived (hostFrame kind tag payload)) s =
      .next { s with hlc := { s.hlc with waiting := s.hlc.waiting ++ [⟨kind, tag, payload⟩] } }

/-- R181: a frame with a bad CRC and one with a bad length are dropped with HOST_FRAME_ERROR, and the receiver resumes with
the byte after the start byte; a partial frame is held, and dropped after 10 ms without a byte.  R184: a good frame that
arrives when the 8 places are taken is answered BUSY by an overflow reply, or dropped with HOST_FRAME_ERROR while 7 overflow
replies wait.  The model's choice (log entry 30): what the drop leaves incomplete waits for another 10 ms. -/
def Obligations.FramesTurnedAway : Prop :=
  (∀ (kind tag : Byte) (payload : List Byte) (s : State), payload.length ≤ 240 → s.hlc.collected = [] →
    8 ≤ s.hlc.executed.length + s.hlc.waiting.length → Settled s →
    (count (fun m => m.cls == .overflow) s.hlc.outbound < 7 →
      exec (.hostFrameReceived (hostFrame kind tag payload)) s =
        .next { s with hlc :=
          if s.hlc.sending.isNone then { s.hlc with sending := some ⟨.overflow, tag, [6]⟩ }
          else { s.hlc with outbound := s.hlc.outbound ++ [⟨.overflow, tag, [6]⟩] } }) ∧
    (7 ≤ count (fun m => m.cls == .overflow) s.hlc.outbound →
      exec (.hostFrameReceived (hostFrame kind tag payload)) s = .next { s with hlc := s.hlc.raised .hostFrameError })) ∧
  (∀ (len : Byte) (rest : List Byte) (s : State), s.hlc.collected = [] →
    (240 < len.toNat ∨ len.toNat + 5 ≤ rest.length + 1 ∧ crcChecks ((len :: rest).take (len.toNat + 5)) = false) →
    exec (.hostFrameReceived (0xC3 :: len :: rest)) s =
        exec (.hostFrameReceived (len :: rest)) { s with hlc := s.hlc.raised .hostFrameError } ∧
      exec (.hostBadLength (0xC3 :: len :: rest)) s =
        exec (.hostBadLength (len :: rest)) { s with hlc := s.hlc.raised .hostFrameError }) ∧
  (∀ (bytes : List Byte) (s : State), s.hlc.collected = [] → (0xC3 : Byte) ∉ bytes →
    exec (.hostFrameReceived bytes) s = .next { s with hlc := s.hlc.begun }) ∧
  (∀ (len : Byte) (s : State), s.hlc.collected = [] → 240 < len.toNat →
    exec (.hostBadLength [0xC3, len]) s = .next { s with hlc := (s.hlc.raised .hostFrameError).begun }) ∧
  (∀ (len : Byte) (rest : List Byte) (s : State), s.hlc.collected = [] → len.toNat ≤ 240 → rest.length < len.toNat + 4 →
    Settled s →
    exec (.hostFrameReceived (0xC3 :: len :: rest)) s =
      .next { s with hlc := { s.hlc with collected := 0xC3 :: len :: rest } }) ∧
  (∀ (rest : List Byte) (s : State), s.hlc.collected = 0xC3 :: rest → (0xC3 : Byte) ∉ rest →
    exec .hostFrameTimeout s = .next { s with hlc := ({ s.hlc with collected := [] }.raised .hostFrameError).begun }) ∧
  (∀ (rest : List Byte) (s : State), s.hlc.collected = 0xC3 :: rest →
    exec .hostFrameTimeout s =
      exec (.hostFrameReceived rest) { s with hlc := { s.hlc with collected := [] }.raised .hostFrameError }) ∧
  ∀ s : State, s.hlc.collected = [] → Settled s → exec .hostFrameTimeout s = .next s

/-- R186, R183, R185, R188: a transmission ends.  The oldest waiting message begins: a reply frees the place of its
request, a deferred reply lowers the owed count, an EVENT_FLAGS message takes the set flags. -/
def Obligations.TransmissionEnds : Prop :=
  (∀ s : State, s.hlc.sending = none → exec .transmissionEnd s = .next s) ∧
  (∀ (m : Message) (s : State), s.hlc.sending = some m → s.hlc.outbound = [] →
    exec .transmissionEnd s = .next { s with hlc := { s.hlc with sending := none } }) ∧
  ∀ (m x : Message) (rest : List Message) (s : State), s.hlc.sending = some m → s.hlc.outbound = x :: rest →
    exec .transmissionEnd s = .next { s with hlc := { s.hlc with
      outbound := rest
      sending := some (if x.cls = .eventFlags then { x with payload := be16 s.hlc.set.toNat } else x)
      executed := if x.cls = .reply then s.hlc.executed.drop 1 else s.hlc.executed
      owed := if x.cls = .deferred then s.hlc.owed - 1 else s.hlc.owed
      set := if x.cls = .eventFlags then 0 else s.hlc.set } }

/-- R187, R188: how a flag becomes set, and when an EVENT_FLAGS message is queued.  The numbers of the 14 flags (section 10.5),
which are their bits in the enables and in the set flags, and the edge selects of the five state flags. -/
def Obligations.FlagsAreSet : Prop :=
  ([Flag.panelState, .panelErrors, .countSaturated, .refLost, .lampFault, .tallyChange, .traceFault, .systemKey, .keyRefused,
    .pathStarved, .ifbChange, .fabricFault, .hostFrameError, .readbackDone].map Flag.number =
      [0, 1, 2, 3, 4, 5, 6, 7, 8, 9, 10, 11, 12, 13]) ∧
  (∀ (f : Flag) (s : State), s.flagSet f = s.hlc.set.getLsbD f.number ∧ s.flagEnabled f = s.hlc.enabled.getLsbD f.number ∧
    (s.flagsWaiting = true ↔ ∃ m ∈ s.hlc.outbound, m.cls = .eventFlags)) ∧
  (∀ e : EdgeSelects, (e.of? .panelErrors = some e.panelErrors ∧ e.of? .refLost = some e.refLost ∧
    e.of? .lampFault = some e.lampFault ∧ e.of? .pathStarved = some e.pathStarved ∧ e.of? .fabricFault = some e.fabricFault) ∧
    ∀ f ∈ [Flag.panelState, .countSaturated, .tallyChange, .traceFault, .systemKey, .keyRefused, .ifbChange, .hostFrameError,
      .readbackDone], e.of? f = none) ∧
  (∀ (f g : Flag) (s : State), (raise f s).flagSet g = (s.flagSet g || (f == g && s.flagEnabled f))) ∧
  (∀ (f : Flag) (s : State), (raise f s).hlc.outbound =
    if s.flagEnabled f = true ∧ s.flagSet f = false ∧ s.flagsWaiting = false then s.hlc.outbound ++ [flagsMessage]
    else s.hlc.outbound) ∧
  (∀ (f : Flag) (e : Edge) (now : Bool) (s : State), s.hlc.edges.of? f = some e →
    handOver f (!now) now s = (if e = .both ∨ e = .rise ∧ now = true ∨ e = .fall ∧ now = false then raise f s else s) ∧
    handOver f now now s = s) ∧
  ∀ (f : Flag) (s : State), raise f s = { s with hlc := { s.hlc with
    set := (raise f s).hlc.set, outbound := (raise f s).hlc.outbound } }

/-- R189: SET_EVENTS writes the enables and the edge selects together.  A flag is set afterwards when it was set and is
enabled before and after. -/
def Obligations.SetEventsWrites : Prop :=
  ∀ (tag : Byte) (enables : BitVec 16) (edges : EdgeSelects) (s s1 : State), enables.toNat < 16384 → Settled s →
    InTurn ⟨0xA0, tag, be16 enables.toNat ++ edgesBytes edges⟩ s s1 →
    ∃ t, exec (.setEvents tag (be16 enables.toNat ++ edgesBytes edges)) s = .next t ∧
      t = { s1 with hlc := { s1.hlc.answered ⟨0xA0, tag, be16 enables.toNat ++ edgesBytes edges⟩ .ok [] with
        enabled := enables, edges := edges, set := t.hlc.set } } ∧
      ∀ f : Flag, t.flagSet f = (s.flagSet f && s.flagEnabled f && t.flagEnabled f)

/-- R192: IDENT answers the vendor code, the part code and the silicon revision, one number 1..255 whatever it is (log
entry 1), and changes nothing else. -/
def Obligations.IdentAnswers : Prop :=
  ∃ revision : Nat, 1 ≤ revision ∧ revision ≤ 255 ∧
    ∀ (tag : Byte) (s s1 : State), Settled s → InTurn ⟨0xA2, tag, []⟩ s s1 →
      exec (.ident tag []) s =
        .next { s1 with hlc := s1.hlc.answered ⟨0xA2, tag, []⟩ .ok [0x0E, 0x4A, 0x0A, 0x50, byte revision] }

/-- R182, R194: a payload that the layout of its kind does not allow is answered BAD_ARG and no block is reached.  The model's
choice (log entry 3): a request that finds an older one waiting is offered to the request queue as a good frame is, and waits.
R182: a request of an unknown kind is answered UNKNOWN and raises HOST_FRAME_ERROR; that the reply stands before the EVENT_FLAGS
message of that flag is the model's choice (log entry 7), and so is that a known kind is not that command's (log entry 18).
R183: a place is free while fewer than 8 requests hold one.  R195: a kind is known when some command carries it. -/
def Obligations.RequestsAreJudgedInTurn : Prop :=
  (∀ s : State, s.requestRoom = true ↔ s.hlc.executed.length + s.hlc.waiting.length < 8) ∧
  (∀ kind : Byte, kind.toNat ∈ requestKinds ↔ ∃ c r, requestCarried c = some r ∧ r.kind = kind) ∧
  (∀ (kind tag : Byte) (payload : List Byte) (s s1 : State), kind.toNat ∉ requestKinds → Settled s →
    InTurn ⟨kind, tag, payload⟩ s s1 →
    exec (.unknownRequest kind tag payload) s =
      .next { s1 with hlc := (s1.hlc.answered ⟨kind, tag, payload⟩ .unknown []).raised .hostFrameError }) ∧
  (∀ (kind tag : Byte) (payload : List Byte) (s : State), kind.toNat ∈ requestKinds →
    exec (.unknownRequest kind tag payload) s = .next s) ∧
  (∀ (c : Instr) (r : Request) (s s1 : State), requestCarried c = some r → layoutFits c = false → Settled s → InTurn r s s1 →
    exec c s = .next { s1 with hlc := s1.hlc.answered r .badArg [] }) ∧
  ∀ (c : Instr) (r q : Request) (rest : List Request) (s : State), requestCarried c = some r → s.hlc.waiting = q :: rest →
    q ≠ r → s.hlc.executed.length + s.hlc.waiting.length < 8 → Settled s →
    exec c s = .next { s with hlc := { s.hlc with waiting := s.hlc.waiting ++ [r] } }

/-! ### Destinations and protection (Chapter 1) -/

/-- R3, R176: SET_DEST_DOMAIN writes the domain of the destination and nothing else, and the lamps follow. -/
def Obligations.SetDestDomainWrites : Prop :=
  ∀ (tag : Byte) (d : Nat) (dom : DestDomain) (s s1 : State), d < 65536 → Settled s →
    InTurn ⟨0x10, tag, be16 d ++ [destDomainByte dom]⟩ s s1 →
    (1 ≤ d ∧ d ≤ 256 → ∃ t, exec (.setDestDomain tag (be16 d ++ [destDomainByte dom])) s = .next t ∧
      t.dest d = { s.dest d with domain := dom } ∧ (∀ e, e ≠ d → t.dest e = s.dest e) ∧
      LampsFollow { s1 with
        hlc := s1.hlc.answered ⟨0x10, tag, be16 d ++ [destDomainByte dom]⟩ .ok []
        rc := { s1.rc with dests := t.rc.dests } } t) ∧
    (¬(1 ≤ d ∧ d ≤ 256) → exec (.setDestDomain tag (be16 d ++ [destDomainByte dom])) s =
      .next { s1 with hlc := s1.hlc.answered ⟨0x10, tag, be16 d ++ [destDomainByte dom]⟩ .badArg [] })

/-- R7: PROTECT sets the protect state of its destination to SYSTEM_LOCK and UNPROTECT sets it to NONE, from any state.  A
destination outside 1..256 is refused BAD_ARG and nothing changes. -/
def Obligations.ProtectAndUnprotect : Prop :=
  ∀ (tag : Byte) (d : Nat) (s s1 : State), d < 65536 → Settled s →
    (InTurn ⟨0x11, tag, be16 d⟩ s s1 →
      (1 ≤ d ∧ d ≤ 256 → ∃ t, exec (.protect tag (be16 d)) s = .next t ∧
        t.dest d = { s.dest d with protect := .systemLock } ∧ (∀ e, e ≠ d → t.dest e = s.dest e) ∧
        LampsFollow { s1 with
          hlc := s1.hlc.answered ⟨0x11, tag, be16 d⟩ .ok [], rc := { s1.rc with dests := t.rc.dests } } t) ∧
      (¬(1 ≤ d ∧ d ≤ 256) → exec (.protect tag (be16 d)) s =
        .next { s1 with hlc := s1.hlc.answered ⟨0x11, tag, be16 d⟩ .badArg [] })) ∧
    (InTurn ⟨0x12, tag, be16 d⟩ s s1 →
      (1 ≤ d ∧ d ≤ 256 → ∃ t, exec (.unprotect tag (be16 d)) s = .next t ∧
        t.dest d = { s.dest d with protect := .none } ∧ (∀ e, e ≠ d → t.dest e = s.dest e) ∧
        LampsFollow { s1 with
          hlc := s1.hlc.answered ⟨0x12, tag, be16 d⟩ .ok [], rc := { s1.rc with dests := t.rc.dests } } t) ∧
      (¬(1 ≤ d ∧ d ≤ 256) → exec (.unprotect tag (be16 d)) s =
        .next { s1 with hlc := s1.hlc.answered ⟨0x12, tag, be16 d⟩ .badArg [] }))

/-- R8: PROTECT_ALL sets every destination 1..256 to SYSTEM_LOCK; RELEASE_ALL sets those in SYSTEM_LOCK or STARTUP_LOCK to
NONE and leaves the others.  Each is one step, and each replies OK. -/
def Obligations.ProtectAllAndReleaseAll : Prop :=
  ∀ (tag : Byte) (s s1 : State), Settled s →
    (InTurn ⟨0x13, tag, []⟩ s s1 → ∃ t, exec (.protectAll tag []) s = .next t ∧
      (∀ d, t.dest d = if 1 ≤ d ∧ d ≤ 256 then { s.dest d with protect := .systemLock } else s.dest d) ∧
      LampsFollow { s1 with
        hlc := s1.hlc.answered ⟨0x13, tag, []⟩ .ok [], rc := { s1.rc with dests := t.rc.dests } } t) ∧
    (InTurn ⟨0x14, tag, []⟩ s s1 → ∃ t, exec (.releaseAll tag []) s = .next t ∧
      (∀ d, t.dest d =
        if (1 ≤ d ∧ d ≤ 256) ∧ ((s.dest d).protect = .systemLock ∨ (s.dest d).protect = .startupLock) then
          { s.dest d with protect := .none }
        else s.dest d) ∧
      LampsFollow { s1 with
        hlc := s1.hlc.answered ⟨0x14, tag, []⟩ .ok [], rc := { s1.rc with dests := t.rc.dests } } t)

/-- R4, R5, R6: the domain check, the permission table and the protect toggle, case by case. -/
def Obligations.DomainPermissionAndToggle : Prop :=
  (∀ (s : State) (tag : Byte) (d : Nat), s.domainPasses (.system tag) d = true) ∧
  (∀ (s : State) (p k d : Nat), s.domainPasses (.panel p k) d = true ↔
    ∃ v, s.panel? p = some v ∧ ((s.dest d).domain = .shared ∨ (s.dest d).domain = .a ∧ v.domain = .a ∨
      (s.dest d).domain = .b ∧ v.domain = .b)) ∧
  (∀ (p q k : Nat) (tag : Byte) (o : Origin) (force : Bool),
    permission .none o force = none ∧
    permission (.panel p) (.panel p k) force = none ∧
    (p ≠ q → permission (.panel p) (.panel q k) force = some .prot) ∧
    permission (.panel p) (.system tag) false = some .prot ∧ permission (.panel p) (.system tag) true = none ∧
    permission .systemLock (.panel q k) force = some .locked ∧ permission .systemLock (.system tag) force = none ∧
    permission .startupLock (.panel q k) force = some .locked ∧ permission .startupLock (.system tag) force = none) ∧
  ∀ (s : State) (p d : Nat),
    (s.domainPasses (.panel p 0) d = false → s.toggled p d = .error .denied) ∧
    (s.domainPasses (.panel p 0) d = true →
      ((s.dest d).protect = .none → s.toggled p d = .ok (.panel p)) ∧
      ((s.dest d).protect = .panel p → s.toggled p d = .ok .none) ∧
      (∀ q, q ≠ p → (s.dest d).protect = .panel q → s.toggled p d = .error .prot) ∧
      ((s.dest d).protect = .systemLock ∨ (s.dest d).protect = .startupLock → s.toggled p d = .error .locked))

/-! ### Fabric devices (Chapter 1) -/

/-- R11, R12, R13: SET_FABRIC maps a device: its levels become fitted at source 0 with clear marks and its start-up readback
begins.  The checks in order: ranges BAD_ARG, already mapped BAD_STATE, range or address taken BAD_ARG.  The one byte of the
bus address is the model's choice (log entry 31). -/
def Obligations.SetFabricMaps : Prop :=
  ∀ (tag n a : Byte) (l : Level) (first last : Nat) (s s1 : State) (r : Request), first < 65536 → last < 65536 →
    r = ⟨0x15, tag, [n, levelByte l] ++ be16 first ++ be16 last ++ [a]⟩ → Settled s → InTurn r s s1 →
    let fits : Prop := 1 ≤ n.toNat ∧ n.toNat ≤ 8 ∧ 1 ≤ first ∧ first ≤ last ∧ last ≤ 256 ∧ 1 ≤ a.toNat ∧ a.toNat ≤ 63
    let taken : Prop := ∃ e ∈ s.rc.devices.entries,
      (e.2.level = l ∧ e.2.first ≤ last ∧ first ≤ e.2.last) ∨ e.2.address = a.toNat
    (¬fits → exec (.setFabric tag r.payload) s = .next { s1 with hlc := s1.hlc.answered r .badArg [] }) ∧
    (fits → s.device? n.toNat ≠ none →
      exec (.setFabric tag r.payload) s = .next { s1 with hlc := s1.hlc.answered r .badState [] }) ∧
    (fits → s.device? n.toNat = none → taken →
      exec (.setFabric tag r.payload) s = .next { s1 with hlc := s1.hlc.answered r .badArg [] }) ∧
    (fits → s.device? n.toNat = none → ¬taken → ∃ t, exec (.setFabric tag r.payload) s = .next t ∧
      t.device? n.toNat = some ⟨l, first, last, a.toNat, .readback .startUp true⟩ ∧
      (∀ m, m ≠ n.toNat → t.device? m = s.device? m) ∧
      (∀ d k, t.levelAt d k = if k = l ∧ first ≤ d ∧ d ≤ last then .fitted 0 false else s.levelAt d k) ∧
      (∀ d, (t.dest d).domain = (s.dest d).domain ∧ (t.dest d).protect = (s.dest d).protect) ∧
      LampsFollow { s1 with
        hlc := s1.hlc.answered r .ok []
        rc := { s1.rc with dests := t.rc.dests, devices := t.rc.devices } } t)

/-- R13, R18: FABRIC_RETRY puts an ONLINE or FAILED device in a retry readback, which begins at once or at the close of the
open window.  The range stays as it is, and FABRIC_FAULT is evaluated again.  That the reply stands before the EVENT_FLAGS
message of FABRIC_FAULT is the model's choice (log entry 7). -/
def Obligations.FabricRetryBegins : Prop :=
  ∀ (tag n : Byte) (s s1 : State) (r : Request), r = ⟨0x16, tag, [n]⟩ → Settled s → InTurn r s s1 →
    (¬(1 ≤ n.toNat ∧ n.toNat ≤ 8) →
      exec (.fabricRetry tag [n]) s = .next { s1 with hlc := s1.hlc.answered r .badArg [] }) ∧
    (1 ≤ n.toNat ∧ n.toNat ≤ 8 → s.device? n.toNat = none →
      exec (.fabricRetry tag [n]) s = .next { s1 with hlc := s1.hlc.answered r .badState [] }) ∧
    (∀ v kind begun, 1 ≤ n.toNat ∧ n.toNat ≤ 8 → s.device? n.toNat = some v → v.phase = .readback kind begun →
      exec (.fabricRetry tag [n]) s = .next { s1 with hlc := s1.hlc.answered r .busy [] }) ∧
    (∀ v, 1 ≤ n.toNat ∧ n.toNat ≤ 8 → s.device? n.toNat = some v → v.phase = .online ∨ v.phase = .failed →
      ∃ t, exec (.fabricRetry tag [n]) s = .next t ∧
        t.device? n.toNat = some { v with phase := .readback .retry s.rc.window.isNone } ∧
        (∀ m, m ≠ n.toNat → t.device? m = s.device? m) ∧ (t.rc.fabricFault = true ↔ t.fabricFaulted) ∧
        LampsFollow { s1 with
          hlc := (s1.hlc.answered r .ok []).handed .fabricFault s.rc.fabricFault t.rc.fabricFault
          rc := { s1.rc with devices := t.rc.devices, fabricFault := t.rc.fabricFault } } t)

/-- R14 to R16, R18: a readback ends.  A completion writes the returned sources with clear marks, a source outside 0..256 as
0 and FAULTED, and the device is ONLINE; a failure marks the range FAULTED at source 0 and the device is FAILED.  Either is a
route change, and READBACK_DONE is raised when a start-up readback ends and none is in flight.  R15, R19: an answer that completes
no readback changes nothing: one for a device that is not in an exchange, one that does not cover the range, and every
discarded answer. -/
def Obligations.ReadbackEnds : Prop :=
  (∀ (n : Nat) (v : Device) (kind : ReadbackKind) (s : State), s.device? n = some v → v.phase = .readback kind true →
    ascending s.tt.roots.entries = true →
    let ends (c : Instr) (phase : DevicePhase) (value : Nat → LevelState) : Prop :=
      ∃ u t : State, exec c s = .next { t with hlc := t.hlc.begun } ∧
        (∀ m, u.device? m = if m = n then some { v with phase := phase } else s.device? m) ∧
        (∀ d l, u.levelAt d l = if l = v.level ∧ v.first ≤ d ∧ d ≤ v.last then value (d - v.first) else s.levelAt d l) ∧
        (∀ d, (u.dest d).domain = (s.dest d).domain ∧ (u.dest d).protect = (s.dest d).protect) ∧
        u = { s with hlc := u.hlc, rc := { s.rc with
          dests := u.rc.dests, devices := u.rc.devices, fabricFault := u.rc.fabricFault } } ∧
        (u.rc.fabricFault = true ↔ u.fabricFaulted) ∧
        (∃ h, RaisedIf .readbackDone
            (kind = .startUp ∧ ∀ e ∈ u.rc.devices.entries, ∀ b, e.2.phase ≠ .readback .startUp b) s.hlc h ∧
          u.hlc = h.handed .fabricFault s.rc.fabricFault u.rc.fabricFault) ∧
        Retraced u t
    (∀ sources : List Nat, sources.length = v.last + 1 - v.first → ends (.readbackCompletion n sources) .online
      fun i => if sources.getD i 0 ≤ 256 then .fitted (sources.getD i 0) false else .fitted 0 true) ∧
    ends (.readbackFailure n) .failed fun _ => .fitted 0 true) ∧
  (∀ (n : Nat) (sources : List Nat) (s : State), exec (.discardedReadbackAnswer n sources) s = .next s) ∧
  (∀ (n : Nat) (sources : List Nat) (s : State), Settled s →
    (∀ v kind, s.device? n = some v → v.phase ≠ .readback kind true) →
    exec (.readbackCompletion n sources) s = .next s ∧ exec (.readbackFailure n) s = .next s) ∧
  ∀ (n : Nat) (v : Device) (sources : List Nat) (s : State), Settled s → s.device? n = some v →
    sources.length ≠ v.last + 1 - v.first → exec (.readbackCompletion n sources) s = .next s

/-! ### Takes and salvos (Chapter 2) -/

/-- R22, R24, R25, R185: a host TAKE.  The checks in order give BUSY for 64 owed replies, BAD_ARG for an argument out of
range or a trimmed mask that is empty, PROTECTED for a panel protect without FORCE, BUSY for a level in readback and BUSY for
want of room.  An accepted take supersedes the pending entries of its destination on its levels, joins the queue as a group of
its own, owes its reply and gives up its place.  The order of the replies of the groups it empties is the model's choice (log
entry 26).  R12, R22, R23: the checks 1 to 5 of an entry of either origin, in order; what is read of the device that covers a
level; and the places of the take queue that are taken. -/
def Obligations.TakeIsOffered : Prop :=
  (∀ (s : State) (e : Entry), EntryRule s e) ∧ (∀ (s : State) (d : Nat) (l : Level), DeviceRule s d l) ∧
  (∀ s : State, RoomRule s) ∧ (∀ m : LevelMask, [Level.vid, .aud1, .aud2, .aux].map m.has = [m.vid, m.aud1, m.aud2, m.aux]) ∧
  ∀ (tag m f : Byte) (d x : Nat) (s s1 : State) (r : Request), d < 65536 → x < 65536 →
    r = ⟨0x20, tag, be16 d ++ [m] ++ be16 x ++ [f]⟩ → Settled s → InTurn r s s1 →
    let refused (code : ReplyCode) : Prop := exec (.take tag r.payload) s = .next { s1 with hlc := s1.hlc.answered r code [] }
    let fits : Prop := 1 ≤ d ∧ d ≤ 256 ∧ x ≤ 256 ∧ m.toNat < 16 ∧ f.toNat < 2
    let asked : LevelMask := ⟨m.getLsbD 0, m.getLsbD 1, m.getLsbD 2, m.getLsbD 3⟩
    let mask : LevelMask := asked.keep fun l => s.rc.devices.entries.any fun e => e.2.covers d l
    let protectedBy : Prop := f = 0 ∧ ∃ p, (s.dest d).protect = .panel p
    let reading : Prop := ∃ l, mask.has l = true ∧ s.readbackAt d l = true
    (64 ≤ s.hlc.owed → refused .busy) ∧
    (s.hlc.owed < 64 → ¬fits ∨ (fits ∧ mask = ⟨false, false, false, false⟩) → refused .badArg) ∧
    (s.hlc.owed < 64 → fits → mask ≠ ⟨false, false, false, false⟩ → protectedBy → refused .prot) ∧
    (s.hlc.owed < 64 → fits → mask ≠ ⟨false, false, false, false⟩ → ¬protectedBy →
      reading ∨ 64 ≤ s.pendingEntries + s.drawnEntries → refused .busy) ∧
    (s.hlc.owed < 64 → fits → mask ≠ ⟨false, false, false, false⟩ → ¬protectedBy → ¬reading →
      s.pendingEntries + s.drawnEntries < 64 →
      ∃ t, exec (.take tag r.payload) s = .next t ∧
        t.fd = { s.fd with firings := t.fd.firings } ∧
        (∀ p n, t.pendingFirings p n = s.pendingFirings p n - endedFirings p n d mask s.rc.queue) ∧
        LampsFollow { s1 with
          hlc := { s1.hlc with
            owed := s.hlc.owed + 1
            outbound := s.hlc.outbound ++ s.rc.queue.flatMap (supersededReplies d mask) }.begun
          rc := { s1.rc with
            queue := supersededQueue d mask s.rc.queue ++ [⟨none, [⟨d, mask, x, .system tag, f == 1⟩]⟩] }
          fd := t.fd } t)

/-- R26: SALVO_STORE replaces the whole stored list, in the order given, masks as they are; it is refused BAD_ARG for a salvo
outside 1..16, more than 32 entries, or an entry out of range. -/
def Obligations.SalvoStoreReplaces : Prop :=
  ∀ (tag n : Byte) (items : List (Nat × Byte × Nat)) (s s1 : State) (r : Request), items.length < 256 →
    (∀ e ∈ items, e.1 < 65536 ∧ e.2.2 < 65536) →
    r = ⟨0x21, tag, n :: counted (items.map fun e => be16 e.1 ++ [e.2.1] ++ be16 e.2.2)⟩ → Settled s → InTurn r s s1 →
    let fits : Prop := 1 ≤ n.toNat ∧ n.toNat ≤ 16 ∧ items.length ≤ 32 ∧
      ∀ e ∈ items, 1 ≤ e.1 ∧ e.1 ≤ 256 ∧ e.2.1.toNat < 16 ∧ e.2.2 ≤ 256
    (fits → ∃ t, exec (.salvoStore tag r.payload) s = .next t ∧
      t = { s1 with hlc := s1.hlc.answered r .ok [], rc := { s1.rc with salvos := t.rc.salvos } } ∧
      t.salvo n.toNat = items.map (fun e =>
        ⟨e.1, ⟨e.2.1.getLsbD 0, e.2.1.getLsbD 1, e.2.1.getLsbD 2, e.2.1.getLsbD 3⟩, e.2.2⟩) ∧
      ∀ k, k ≠ n.toNat → t.salvo k = s.salvo k) ∧
    (¬fits → exec (.salvoStore tag r.payload) s = .next { s1 with hlc := s1.hlc.answered r .badArg [] })

/-- R27, R28, R167, R185: a host SALVO_FIRE.  64 owed replies give BUSY, an argument out of range BAD_ARG; with no passing entry
it ends at once with DONE and its counts; with less room than passing entries it is BUSY; otherwise each passing entry
supersedes in stored order, the panel firings that this ends counted off, and the entries left form one salvo group at the tail,
whose reply is owed.  The order of the replies of groups that one entry empties is the model's choice (log entry 26).  R27 step 1:
the passing entries, of either origin. -/
def Obligations.SalvoFireIsOffered : Prop :=
  (∀ (s : State) (n : Nat) (o : Origin) (force : Bool), PassingRule s n o force) ∧
  ∀ (tag n f : Byte) (s s1 : State) (r : Request), r = ⟨0x22, tag, [n, f]⟩ → Settled s → InTurn r s s1 →
    let fits : Prop := 1 ≤ n.toNat ∧ n.toNat ≤ 16 ∧ f.toNat < 2
    let stored := s.salvo n.toNat
    let passing := s.passing n.toNat (.system tag) (f == 1)
    let used := s.pendingEntries + s.drawnEntries
    let own := (acceptedEntries passing ([], s.rc.queue, [])).1
    let left := (acceptedEntries passing ([], s.rc.queue, [])).2.1
    let replies := (acceptedEntries passing ([], s.rc.queue, [])).2.2
    (64 ≤ s.hlc.owed → exec (.salvoFire tag [n, f]) s = .next { s1 with hlc := s1.hlc.answered r .busy [] }) ∧
    (s.hlc.owed < 64 → ¬fits → exec (.salvoFire tag [n, f]) s = .next { s1 with hlc := s1.hlc.answered r .badArg [] }) ∧
    (s.hlc.owed < 64 → fits → passing = [] → exec (.salvoFire tag [n, f]) s =
      .next { s1 with hlc := s1.hlc.answered r .done [0, byte stored.length, 0, 0, 0] }) ∧
    (s.hlc.owed < 64 → fits → passing ≠ [] → 64 < used + passing.length →
      exec (.salvoFire tag [n, f]) s = .next { s1 with hlc := s1.hlc.answered r .busy [] }) ∧
    (s.hlc.owed < 64 → fits → passing ≠ [] → used + passing.length ≤ 64 →
      ∃ t, exec (.salvoFire tag [n, f]) s = .next t ∧
        t.fd = { s.fd with firings := t.fd.firings } ∧
        (∀ p k, t.pendingFirings p k = s.pendingFirings p k - acceptedFirings p k passing s.rc.queue) ∧
        LampsFollow { s1 with
          hlc := { s1.hlc with owed := s.hlc.owed + 1, outbound := s.hlc.outbound ++ replies }.begun
          rc := { s1.rc with queue := left ++
            [⟨some ⟨.system tag, n.toNat, ⟨0, stored.length - passing.length, 0, passing.length - own.length, 0⟩⟩, own⟩] }
          fd := t.fd } t)

/-- R28: the counts of a firing add up to its stored entries: at its acceptance, through every supersession, and at the close
that ends it.  R24, R25: what supersession makes of the entries of a group and of the counts of its firing. -/
def Obligations.FiringCountsAddUp : Prop :=
  (∀ (d : Nat) (mask : LevelMask) (g : TakeGroup), StripRule d mask g) ∧
  (∀ (n : Nat) (o : Origin) (force : Bool) (s t : State), fireSalvo n o force s = .accepted t →
    ∃ g f, t.rc.queue.getLast? = some g ∧ g.firing = some f ∧ f.salvo = n ∧ f.origin = o ∧
      f.counts.total + g.entries.length = (s.salvo n).length) ∧
  (∀ (n : Nat) (o : Origin) (force : Bool) (s : State) (c : Counts), fireSalvo n o force s = .ended c →
    c.total = (s.salvo n).length) ∧
  (∀ (d : Nat) (mask : LevelMask) (g : TakeGroup) (f : Firing), g.firing = some f →
    (g.strip d mask).countsTotal + (g.strip d mask).entries.length = g.countsTotal + g.entries.length) ∧
  ∀ (writes : List Write) (g : DrawnGroup) (f : Firing),
    (g.entries.foldl (fun c x => c.count (outcomeOf writes x)) f.counts).total = f.counts.total + g.entries.length

/-! ### The frame reference and the switch window (Chapter 2) -/

/-- R34 to R37: a switch point.  It is passed over while a window is open and has no effect on an empty queue.  Otherwise a
window opens: the head groups are drawn while their writes, counted after their re-check, come to at most 128 in all; the rest
stay in the queue; the writes are sent in order.  A window without writes closes at once.  The re-check of an entry (R35) gives
its refusal or the levels to write, those of its mask whose device is ONLINE, and those give its writes (R37).  A group is
re-checked entry by entry and its writes are those of its entries, in stored order; the order of the levels of one entry is the
model's choice (log entry 27). -/
def Obligations.SwitchPointDrains : Prop :=
  (∀ s : State,
    (s.rc.window ≠ none → switchPoint s = s) ∧ (s.rc.queue = [] → switchPoint s = s) ∧
    (s.rc.window = none → s.rc.queue ≠ [] → ∃ k, k ≤ s.rc.queue.length ∧
      let groups := (s.rc.queue.take k).map s.draw
      let w : Window := ⟨s.rc.windows + 1, groups, groups.flatMap s.writesOf⟩
      let opened : State := { s with rc := { s.rc with
        queue := s.rc.queue.drop k, window := some w, windows := s.rc.windows + 1 } }
      w.writes.length ≤ 128 ∧ (∀ x ∈ w.writes, x.state = .sent) ∧
      (∀ g rest, s.rc.queue.drop k = g :: rest → 128 < w.writes.length + (s.writesOf (s.draw g)).length) ∧
      (w.writes ≠ [] → switchPoint s = opened) ∧
      (w.writes = [] → ClosedBy w opened (switchPoint s)))) ∧
  ∀ (s : State) (e : Entry),
    (s.domainPasses e.origin e.dest = false → s.recheck e = ⟨e, some .denied, ⟨false, false, false, false⟩⟩) ∧
    (∀ why, s.domainPasses e.origin e.dest = true → permission (s.dest e.dest).protect e.origin e.force = some why →
      s.recheck e = ⟨e, some why, ⟨false, false, false, false⟩⟩) ∧
    (s.domainPasses e.origin e.dest = true → permission (s.dest e.dest).protect e.origin e.force = none →
      s.recheck e = ⟨e, none, e.mask.keep (s.onlineAt e.dest)⟩) ∧
    (s.domainPasses e.origin e.dest = true → permission (s.dest e.dest).protect e.origin e.force = none →
      ∀ l, (s.recheck e).written.has l = true ↔
        e.mask.has l = true ∧ ∃ n v, s.coveredBy e.dest l n v ∧ v.phase = .online) ∧
    (∀ l n v, s.coveredBy e.dest l n v → s.deviceNumber e.dest l = n) ∧
    (∀ g : TakeGroup, (s.draw g).firing = g.firing ∧ (s.draw g).entries = g.entries.map s.recheck) ∧
    ∀ (g : DrawnGroup), s.writesOf g = g.entries.flatMap fun x =>
      ([Level.vid, .aud1, .aud2, .aux].filter fun l => x.written.has l).map fun l =>
        ⟨s.deviceNumber x.entry.dest l, x.entry.dest, l, x.entry.source, .sent⟩

/-- R30 to R34: a reference pulse, the expiry of the loss timer and a flywheel point.  In LOCKED every pulse is a switch
point; in LOST a pulse relocks when it lies 0.99 to 1.01 periods behind the candidate, and else becomes the candidate.  The
timer and the flywheel act in LOCKED and LOST alone.  That times are microseconds is the model's choice (log entry 5), and so is
that the change of REF_LOST is handed over before the switch point, whose window may close at once with replies (log entry
32). -/
def Obligations.FrameReferenceMoves : Prop :=
  ∀ (time : Nat) (s : State),
    let period := match s.stu.family with
      | .f25 => 40000
      | .f29_97 => 33367
      | .f50 => 20000
      | .f59_94 => 16683
    let locked (h : HostLink) : State := { s with
      hlc := h
      stu := { s.stu with
        reference := .locked, lastPulse := some time, candidate := none, flywheelBase := time, flywheelCount := 0
        now := max s.stu.now time } }
    let held : State := { s with
      hlc := s.hlc.begun
      stu := { s.stu with candidate := some time, now := max s.stu.now time } }
    (s.stu.reference = .locked →
      exec (.referencePulse time) s = .next (transmit (switchPoint (locked s.hlc))) ∧
      (∀ last, s.stu.lastPulse = some last → exec .lossTimerExpiry s = .next (transmit (switchPoint { s with
        hlc := s.hlc.handed .refLost false true
        stu := { s.stu with
          reference := .lost, candidate := none, flywheelBase := last, flywheelCount := 3
          now := max s.stu.now (last + 3 * period) } }))) ∧
      exec .flywheelPoint s = .next (transmit s)) ∧
    (s.stu.reference = .lost →
      (s.stu.candidate = none → exec (.referencePulse time) s = .next held) ∧
      (∀ c, s.stu.candidate = some c →
        (99 * period ≤ 100 * (time - c) ∧ 100 * (time - c) ≤ 101 * period →
          exec (.referencePulse time) s = .next (transmit (switchPoint (locked (s.hlc.handed .refLost true false))))) ∧
        (¬(99 * period ≤ 100 * (time - c) ∧ 100 * (time - c) ≤ 101 * period) →
          exec (.referencePulse time) s = .next held)) ∧
      exec .lossTimerExpiry s = .next (transmit s) ∧
      exec .flywheelPoint s = .next (transmit (switchPoint { s with stu := { s.stu with
        flywheelCount := s.stu.flywheelCount + 1
        now := max s.stu.now (s.stu.flywheelBase + (s.stu.flywheelCount + 1) * period) } })))

/-- R29, R33: SET_FRAME_FAMILY.  The family in force is answered OK and nothing changes; another family takes the reference to
LOST, forgets the candidate and restarts the flywheel from the request.  A byte that is no family is BAD_ARG.  That the reply
stands before the EVENT_FLAGS message of the same execution is the model's choice (log entry 7). -/
def Obligations.SetFrameFamilyRestarts : Prop :=
  ∀ (tag b : Byte) (s s1 : State) (r : Request), r = ⟨0x23, tag, [b]⟩ → Settled s → InTurn r s s1 →
    (3 < b.toNat → exec (.setFrameFamily tag [b]) s = .next { s1 with hlc := s1.hlc.answered r .badArg [] }) ∧
    ∀ fam : FrameFamily, b = familyByte fam →
      (fam = s.stu.family → exec (.setFrameFamily tag [b]) s = .next { s1 with hlc := s1.hlc.answered r .ok [] }) ∧
      (fam ≠ s.stu.family → exec (.setFrameFamily tag [b]) s = .next { s1 with
        hlc := (s1.hlc.answered r .ok []).handed .refLost (s.stu.reference == .lost) true
        stu := { s.stu with
          family := fam, reference := .lost, candidate := none, flywheelBase := s.stu.now, flywheelCount := 0 } })

/-- R38, R39 to R41, R17, R18, R171: the close of the open window, by the answer to its last outstanding write or by expiry,
when every unanswered write counts as refused: the levels, the devices, the replies and flags in the order of the groups, the
refusals and the panel firings, and the recomputation of the tallies when a level changed.  R28, R40: the outcome of each drawn
entry, its done mask, and the count of its firing that it adds one to. -/
def Obligations.WindowCloses : Prop :=
  (∀ (writes : List Write) (x : Drawn), OutcomeRule writes x) ∧
  ∀ (w : Window) (s : State), s.rc.window = some w →
    (∃ t, exec .windowExpiry s = .next { t with hlc := t.hlc.begun } ∧ ClosedBy w s t) ∧
    ∀ (d : Nat) (l : Level) (ack : Bool), (∃ x ∈ w.writes, x.dest = d ∧ x.level = l ∧ x.state = .sent) →
      (∀ x ∈ w.writes, x.state = .sent → x.dest = d ∧ x.level = l) →
      ∃ t, exec (.crosspointAnswer w.number d l ack) s = .next { t with hlc := t.hlc.begun } ∧
        ClosedBy { w with writes := w.writes.map fun x =>
          if x.dest = d ∧ x.level = l ∧ x.state = .sent then
            { x with state := if ack then .acknowledged else .refused }
          else x } s t

/-- R38, R42: an answer to one of several outstanding writes leaves the window open with that write answered.  An answer to
another window, to a write that is not outstanding, or without a window is discarded, as is an expiry without a window (log
entry 4 gives windows their numbers). -/
def Obligations.AnswersKeepOrMissTheWindow : Prop :=
  (∀ (w : Window) (d : Nat) (l : Level) (ack : Bool) (s : State), s.rc.window = some w → Settled s →
    (∃ x ∈ w.writes, x.dest = d ∧ x.level = l ∧ x.state = .sent) →
    (∃ x ∈ w.writes, x.state = .sent ∧ ¬(x.dest = d ∧ x.level = l)) →
    exec (.crosspointAnswer w.number d l ack) s = .next { s with rc := { s.rc with window := some { w with
      writes := w.writes.map fun x =>
        if x.dest = d ∧ x.level = l ∧ x.state = .sent then { x with state := if ack then .acknowledged else .refused }
        else x } } }) ∧
  (∀ (number d : Nat) (l : Level) (ack : Bool) (s : State), Settled s →
    (∀ w, s.rc.window = some w →
      w.number ≠ number ∨ ∀ x ∈ w.writes, ¬(x.dest = d ∧ x.level = l ∧ x.state = .sent)) →
    exec (.crosspointAnswer number d l ack) s = .next s) ∧
  ∀ s : State, Settled s → s.rc.window = none → exec .windowExpiry s = .next s

/-! ### Roots, ties and mixers (Chapter 3) -/

/-- R44, R58: SET_ROOT replaces the configuration of a root, its last result and fault record left as they are, and one
recomputation follows.  A DEST kind without a level is VID.  A number out of range, and a byte that names no kind, level, domain
or colour or is no yes or no, is BAD_ARG.  That the reply stands before the EVENT_FLAGS message of the recomputation is the
model's choice (log entry 7). -/
def Obligations.SetRootRetraces : Prop :=
  (∀ (tag b : Byte) (enabled : Bool) (dom : Domain) (c : Colour) (kind : RootKind) (tail : List Byte) (s s1 : State)
    (r : Request),
    ((∃ d l, d < 65536 ∧ kind = .dest d l ∧ (tail = [0] ++ be16 d ++ [levelByte l] ∨ l = .vid ∧ tail = [0] ++ be16 d)) ∨
      ∃ m k : Byte, kind = .mixerBus m.toNat k.toNat ∧ tail = [1, m, k]) →
    r = ⟨0x30, tag, [b, yesNo enabled, domainByte dom, colourByte c] ++ tail⟩ → Settled s → InTurn r s s1 →
    ascending s.tt.roots.entries = true →
    let fits : Prop := 1 ≤ b.toNat ∧ b.toNat ≤ 16 ∧ match kind with
      | .dest d _ => 1 ≤ d ∧ d ≤ 256
      | .mixerBus m k => 1 ≤ m ∧ m ≤ 2 ∧ 1 ≤ k ∧ k ≤ 8
    (fits → ∃ u t, exec (.setRoot tag r.payload) s = .next t ∧
      u.root b.toNat = { s.root b.toNat with enabled := enabled, config := some ⟨dom, c, kind⟩ } ∧
      (∀ k, k ≠ b.toNat → u.root k = s.root k) ∧
      u = { s1 with hlc := s1.hlc.answered r .ok [], tt := { s1.tt with roots := u.tt.roots } } ∧ Retraced u t) ∧
    (¬fits → exec (.setRoot tag r.payload) s = .next { s1 with hlc := s1.hlc.answered r .badArg [] })) ∧
  ∀ (tag b e dom c kind : Byte) (tail : List Byte) (s s1 : State) (r : Request),
    r = ⟨0x30, tag, [b, e, dom, c, kind] ++ tail⟩ → Settled s → InTurn r s s1 →
    1 < kind.toNat ∨ 1 < e.toNat ∨ 1 < dom.toNat ∨ 2 < c.toNat ∨
      (kind = 0 ∧ ∃ h l v : Byte, tail = [h, l, v] ∧ 3 < v.toNat) →
    exec (.setRoot tag r.payload) s = .next { s1 with hlc := s1.hlc.answered r .badArg [] }

/-- R50, R51, R58: SET_MIXER_MAP writes the entries named, NONE as the word of all ones (log entry 9); SET_TIE replaces or
adds an entry, NO_SPACE on a full map; CLEAR_TIE removes one.  One recomputation follows each, and a number out of range is
BAD_ARG.  The one byte of the mixer and of an input is the model's choice (log entry 31), and so is that the reply stands before
the EVENT_FLAGS message of the recomputation (log entry 7). -/
def Obligations.MapsAndTiesRetrace : Prop :=
  ∀ (tag m : Byte) (pairs : List (Nat × Option Nat)) (x d : Nat) (s s1 : State) (r : Request), Settled s → InTurn r s s1 →
    ascending s.tt.roots.entries = true → pairs.length < 256 →
    (∀ e ∈ pairs, e.1 < 256 ∧ ∀ y, e.2 = some y → y < 0xFFFF) → x < 65536 → d < 65536 →
    let changed (c : Instr) (u t : State) : Prop := exec c s = .next t ∧ u.hlc = s1.hlc.answered r .ok [] ∧ Retraced u t
    let refused (c : Instr) (code : ReplyCode) : Prop := exec c s = .next { s1 with hlc := s1.hlc.answered r code [] }
    (r = ⟨0x33, tag, m :: counted (pairs.map fun e => byte e.1 :: be16 (e.2.getD 0xFFFF))⟩ →
      let fits : Prop := 1 ≤ m.toNat ∧ m.toNat ≤ 2 ∧ 1 ≤ pairs.length ∧ pairs.length ≤ 48 ∧ (pairs.map Prod.fst).Nodup ∧
        ∀ e ∈ pairs, 1 ≤ e.1 ∧ e.1 ≤ 48 ∧ ∀ y, e.2 = some y → 1 ≤ y ∧ y ≤ 256
      (fits → ∃ u t, changed (.setMixerMap tag r.payload) u t ∧
        (∀ e ∈ pairs, u.mapEntry m.toNat e.1 = e.2) ∧
        (∀ k i, (k = 1 ∨ k = 2) → ¬(k = m.toNat ∧ i ∈ pairs.map Prod.fst) → u.mapEntry k i = s.mapEntry k i) ∧
        u = { s1 with hlc := u.hlc, tt := { s1.tt with inputMap1 := u.tt.inputMap1, inputMap2 := u.tt.inputMap2 } }) ∧
      (¬fits → refused (.setMixerMap tag r.payload) .badArg)) ∧
    (r = ⟨0x34, tag, be16 x ++ be16 d⟩ →
      let fits : Prop := 1 ≤ x ∧ x ≤ 256 ∧ 1 ≤ d ∧ d ≤ 256
      (fits → ¬(s.tie? x = none ∧ 32 ≤ s.tt.ties.entries.length) → ∃ u t, changed (.setTie tag r.payload) u t ∧
        u.tie? x = some d ∧ (∀ y, y ≠ x → u.tie? y = s.tie? y) ∧
        u = { s1 with hlc := u.hlc, tt := { s1.tt with ties := u.tt.ties } }) ∧
      (fits → s.tie? x = none → 32 ≤ s.tt.ties.entries.length → refused (.setTie tag r.payload) .noSpace) ∧
      (¬fits → refused (.setTie tag r.payload) .badArg)) ∧
    (r = ⟨0x35, tag, be16 x⟩ →
      (1 ≤ x ∧ x ≤ 256 → ∃ u t, changed (.clearTie tag r.payload) u t ∧
        u.tie? x = none ∧ (∀ y, y ≠ x → u.tie? y = s.tie? y) ∧
        u = { s1 with hlc := u.hlc, tt := { s1.tt with ties := u.tt.ties } }) ∧
      (¬(1 ≤ x ∧ x ≤ 256) → refused (.clearTie tag r.payload) .badArg))

/-- R46: SET_MIXER declares the state source of a mixer.  A new source marks every bus of the mixer stale and keeps the
selections; the source already declared changes nothing; a bridge that is the other mixer's is BAD_STATE.  R46, R49: a mixer
with every bus marked stale. -/
def Obligations.SetMixerMarksStale : Prop :=
  (∀ v : Mixer, v.allStale.source = v.source ∧
    ∀ k, v.allStale.bus k = if 1 ≤ k ∧ k ≤ 8 then ⟨(v.bus k).selection, true⟩ else v.bus k) ∧
  ∀ (tag m b : Byte) (s s1 : State) (r : Request), r = ⟨0x31, tag, [m, b]⟩ → Settled s → InTurn r s s1 →
    let fits : Prop := 1 ≤ m.toNat ∧ m.toNat ≤ 2 ∧ b.toNat ≤ 32
    let source : MixerSource := if b = 0 then .system else .bridge b.toNat
    let clash : Prop := b ≠ 0 ∧ (s.mixer (3 - m.toNat)).source = source
    (fits → ¬clash → (s.mixer m.toNat).source ≠ source → ∃ t, exec (.setMixer tag [m, b]) s = .next t ∧
      (t.mixer m.toNat).source = source ∧
      (∀ k, ((t.mixer m.toNat).bus k).selection = ((s.mixer m.toNat).bus k).selection ∧
        (1 ≤ k ∧ k ≤ 8 → ((t.mixer m.toNat).bus k).stale = true)) ∧
      (∀ k, k ≠ m.toNat → t.mixer k = s.mixer k) ∧
      t = { s1 with hlc := s1.hlc.answered r .ok [], tt := { s1.tt with mixers := t.tt.mixers } }) ∧
    (fits → ¬clash → (s.mixer m.toNat).source = source →
      exec (.setMixer tag [m, b]) s = .next { s1 with hlc := s1.hlc.answered r .ok [] }) ∧
    (fits → clash → exec (.setMixer tag [m, b]) s = .next { s1 with hlc := s1.hlc.answered r .badState [] }) ∧
    (¬fits → exec (.setMixer tag [m, b]) s = .next { s1 with hlc := s1.hlc.answered r .badArg [] })

/-- R47, R48, R58: MIXER_STATE sets the buses named of a SYSTEM mixer, all together, and a bus-state event sets one bus of the
mixer whose source is the panel's bridge, while the panel is in service.  Each clears the stale flag and is followed by one
recomputation.  A bus-state event that no case applies to is discarded.  The one byte of the mixer, a bus and an input in the
request is the model's choice (log entry 31), and so is that the reply of MIXER_STATE stands before the EVENT_FLAGS message of the
recomputation (log entry 7). -/
def Obligations.BusesAreSelected : Prop :=
  (∀ (tag m : Byte) (pairs : List (Nat × Nat)) (s s1 : State) (r : Request), Settled s → InTurn r s s1 →
    ascending s.tt.roots.entries = true → pairs.length < 256 → (∀ e ∈ pairs, e.1 < 256 ∧ e.2 < 256) →
    r = ⟨0x32, tag, m :: counted (pairs.map fun e => [byte e.1, byte e.2])⟩ →
    let fits : Prop := 1 ≤ m.toNat ∧ m.toNat ≤ 2 ∧ 1 ≤ pairs.length ∧ pairs.length ≤ 8 ∧ (pairs.map Prod.fst).Nodup ∧
      ∀ e ∈ pairs, 1 ≤ e.1 ∧ e.1 ≤ 8 ∧ e.2 ≤ 48
    (fits → (s.mixer m.toNat).source = .system → ∃ u t, exec (.mixerState tag r.payload) s = .next t ∧
      (∀ e ∈ pairs, (u.mixer m.toNat).bus e.1 = ⟨e.2, false⟩) ∧
      (∀ k, k ∉ pairs.map Prod.fst → (u.mixer m.toNat).bus k = (s.mixer m.toNat).bus k) ∧
      (u.mixer m.toNat).source = .system ∧ (∀ k, k ≠ m.toNat → u.mixer k = s.mixer k) ∧
      u = { s1 with hlc := s1.hlc.answered r .ok [], tt := { s1.tt with mixers := u.tt.mixers } } ∧ Retraced u t) ∧
    (fits → (s.mixer m.toNat).source ≠ .system →
      exec (.mixerState tag r.payload) s = .next { s1 with hlc := s1.hlc.answered r .badState [] }) ∧
    (¬fits → exec (.mixerState tag r.payload) s = .next { s1 with hlc := s1.hlc.answered r .badArg [] })) ∧
  (∀ (p b i : Nat) (s s1 : State), Taken ⟨p, .busState b i⟩ s s1 →
    (∀ k, 1 ≤ k ∧ k ≤ 2 → (s.mixer k).source ≠ .bridge p) →
    ∃ t, exec (.busState p b i) s = .next t ∧ LampsFollow { s1 with hlc := s1.hlc.begun } t) ∧
  ∀ (p b i m : Nat) (s s1 : State), Taken ⟨p, .busState b i⟩ s s1 → ascending s.tt.roots.entries = true →
    (1 ≤ m ∧ m ≤ 2) → (s.mixer m).source = .bridge p → (∀ k, 1 ≤ k ∧ k < m → (s.mixer k).source ≠ .bridge p) →
    (s.inService p = true → 1 ≤ b ∧ b ≤ 8 → i ≤ 48 → ∃ u t, exec (.busState p b i) s = .next { t with hlc := t.hlc.begun } ∧
      (u.mixer m).bus b = ⟨i, false⟩ ∧ (∀ k, k ≠ b → (u.mixer m).bus k = (s.mixer m).bus k) ∧
      (u.mixer m).source = .bridge p ∧ (∀ k, k ≠ m → u.mixer k = s.mixer k) ∧
      u = { s1 with tt := { s1.tt with mixers := u.tt.mixers } } ∧ Retraced u t) ∧
    (¬(s.inService p = true ∧ (1 ≤ b ∧ b ≤ 8) ∧ i ≤ 48) → ∃ t, exec (.busState p b i) s = .next t ∧
      LampsFollow { s1 with hlc := s1.hlc.begun } t)

/-- R52 to R54: how a trace ends.  NOT_FITTED and PARK end it without a terminal; a source that no tie feeds is its terminal; a
tie back to a visited destination is a LOOP, a fifth tie hop a DEPTH fault; else the trace goes on at the tie's destination.
R43, R55: after a recomputation an enabled root holds the result of its trace, TERMINAL(x), NO_TERMINAL or FAULT with its reason
and destination in the fault record, which is else clear; a root that is disabled or has no configuration holds NO_TERMINAL and
a clear record. -/
def Obligations.TracesEnd : Prop :=
  (∀ (s : State) (r : Nat), RootTraced (recomputeTally s) ((recomputeTally s).root r) ∧
    ((recomputeTally s).root r).enabled = (s.root r).enabled ∧ ((recomputeTally s).root r).config = (s.root r).config) ∧
  (∀ (s : State) (d : Nat) (l : Level), s.trace (.dest d l) = s.traceFrom l 4 [] d) ∧
  (∀ (s : State) (m b : Nat),
    (((s.mixer m).bus b).selection = 0 ∨ s.mapEntry m ((s.mixer m).bus b).selection = none →
      s.trace (.mixerBus m b) = .noTerminal) ∧
    ∀ d, ((s.mixer m).bus b).selection ≠ 0 → s.mapEntry m ((s.mixer m).bus b).selection = some d →
      s.trace (.mixerBus m b) = s.trace (.dest d .vid)) ∧
  (∀ (s : State) (l : Level) (hops : Nat) (visited : List Nat) (d : Nat),
    (s.levelAt d l = .notFitted → s.traceFrom l hops visited d = .noTerminal) ∧
    ∀ (x : Nat) (f : Bool), s.levelAt d l = .fitted x f →
      (x = 0 → s.traceFrom l hops visited d = .noTerminal) ∧
      (x ≠ 0 → s.tie? x = none → s.traceFrom l hops visited d = .terminal x) ∧
      ∀ d2, x ≠ 0 → s.tie? x = some d2 →
        (d2 = d ∨ d2 ∈ visited → s.traceFrom l hops visited d = .fault .loop d) ∧
        (¬(d2 = d ∨ d2 ∈ visited) → hops = 0 → s.traceFrom l hops visited d = .fault .depth d) ∧
        ∀ n, ¬(d2 = d ∨ d2 ∈ visited) → hops = n + 1 → s.traceFrom l hops visited d = s.traceFrom l n (d :: visited) d2) ∧
  ∀ (s : State) (k : RootKind) (x : Nat), s.trace k = .terminal x → x ≠ 0 ∧ s.tie? x = none

/-! ### Cameras, tally outputs and the lamp fault monitor (Chapter 4) -/

/-- R65, R67, R69, R77, R85, R92, R98, R99: SET_CAMERA and SET_OUTPUT.  A camera keeps its call count.  The ONAIR reservations
of the domains of its old and its new record are counted again; while they exceed 512 in all, the newest of those talks end,
their keys move and record NO_SPACE; the talks to the camera and the ONAIR talks of those domains take their new listeners, all
in one handling.  An output that stays set with its monitor enabled keeps its fault state, any other becomes OK.
Every drive is re-evaluated.  A byte that names no domain, mode or colour set or is no yes or no is BAD_ARG.
That the reply stands before the EVENT_FLAGS message of the same execution is the model's choice (log entry 7). -/
def Obligations.CamerasAndOutputsAreSet : Prop :=
  (∀ (tag b : Byte) (v : Option Camera) (s s1 : State) (r : Request),
    (∀ x, v = some x → x.source < 65536 ∧ (∀ q, x.port = some q → 1 ≤ q ∧ q < 256) ∧ ∀ n, x.output = some n → 1 ≤ n ∧ n < 256) →
    r = ⟨0x40, tag, b :: match v with
      | none => []
      | some x => [domainByte x.domain] ++ be16 x.source ++ [optionalByte x.port, optionalByte x.output]⟩ →
    Settled s → InTurn r s s1 →
    let fits : Prop := 1 ≤ b.toNat ∧ b.toNat ≤ 24 ∧ ∀ x, v = some x → 1 ≤ x.source ∧ x.source ≤ 256 ∧
      (∀ q, x.port = some q → q ≤ 64) ∧ ∀ n, x.output = some n → n ≤ 48
    (fits → ∃ t, exec (.setCamera tag r.payload) s = .next t ∧
      t.camera? b.toNat = v ∧ (∀ k, k ≠ b.toNat → t.camera? k = s.camera? k) ∧ (∀ k, t.callCount k = s.callCount k) ∧
      SameOutputs s t ∧ (∀ n, (t.output n).drive = t.driveOf n) ∧
      (let doms : List Domain := ((s.camera? b.toNat).toList ++ v.toList).map fun c => c.domain
       let counted := s.tc.talks.map (t.recounted doms)
       ∃ ended, GivenUp doms counted ended ∧
        SameTalks t.tc.talks (counted.filter fun x => !(ended.map fun y => y.id).contains x.id) ∧
        (∀ x ∈ t.tc.talks,
          let named : Prop := x.target = .camera b.toNat ∨ (x.target = .onair ∧ ∃ d ∈ doms, x.domain = some d)
          (named → x.listeners = t.listenersOf x) ∧
          (¬named → x ∈ counted ∨ (ended ≠ [] ∧ (∃ n, x.target = .ifb n) ∧ x.listeners = t.listenersOf x))) ∧
        t.tc.ifbs = s.tc.ifbs.mapValues (fun _ i => t.withoutTalks (ended.map fun x => x.id) i) ∧
        (∀ p k, ((∃ x ∈ ended, x.origin = .panel p k) → t.key p k = (s.key p k).lost) ∧
          ((∀ x ∈ ended, x.origin ≠ .panel p k) → t.key p k = s.key p k)) ∧
        (∃ u, LampsFollow u t ∧ u = { t with pbc := { s.pbc with panels := u.pbc.panels } } ∧
          ∀ p, u.panel? p = (s.panel? p).map fun w =>
            { w with lastRefusal := (ended.filterMap fun x => match x.origin with
                | .panel q k => if q = p then some (k, Reason.noSpace) else none
                | .system _ => none).getLast?.or w.lastRefusal }) ∧
        ∃ h, RaisedIf .ifbChange (∃ n, 1 ≤ n ∧ n ≤ 16 ∧ t.interrupter n ≠ s.interrupter n)
            ((s1.hlc.answered r .ok []).handed .pathStarved s.tme.pathStarved t.tme.pathStarved) h ∧
          RaisedIf .keyRefused (∃ x ∈ ended, ∃ p k, x.origin = .panel p k ∧ s.panel? p ≠ none) h t.hlc) ∧
      MixHandled s t ∧ t.rc = s.rc ∧ t.stu = s.stu ∧ t.tt = s.tt ∧ t.fd = s.fd ∧ t.pending = s.pending ∧
      t.pbc = { s.pbc with panels := t.pbc.panels } ∧
      t.tou = { s.tou with cameras := t.tou.cameras, outputs := t.tou.outputs } ∧
      t.tc = { s.tc with talks := t.tc.talks, keys := t.tc.keys, ifbs := t.tc.ifbs }) ∧
    (¬fits → exec (.setCamera tag r.payload) s = .next { s1 with hlc := s1.hlc.answered r .badArg [] })) ∧
  (∀ (tag b dom h l q n : Byte) (s s1 : State) (r : Request), r = ⟨0x40, tag, [b, dom, h, l, q, n]⟩ → Settled s →
    InTurn r s s1 → 1 < dom.toNat →
    exec (.setCamera tag r.payload) s = .next { s1 with hlc := s1.hlc.answered r .badArg [] }) ∧
  (∀ (tag b mode h l dom mask monitor : Byte) (s s1 : State) (r : Request),
    r = ⟨0x41, tag, [b, mode, h, l, dom, mask, monitor]⟩ → Settled s → InTurn r s s1 →
    2 < mode.toNat ∨ 1 < dom.toNat ∨ 7 < mask.toNat ∨ 1 < monitor.toNat →
    exec (.setOutput tag r.payload) s = .next { s1 with hlc := s1.hlc.answered r .badArg [] }) ∧
  ∀ (tag b mask : Byte) (v : Option OutputConfig) (mode : Byte) (s s1 : State) (r : Request),
    (∀ x, v = some x → x.source < 65536 ∧ mask.toNat < 8 ∧
      x.mask = ⟨mask.getLsbD 0, mask.getLsbD 1, mask.getLsbD 2⟩ ∧
      mode = match x.mode with
        | .auto => 0
        | .forceOn => 1
        | .forceOff => 2) →
    r = ⟨0x41, tag, b :: match v with
      | none => []
      | some x => [mode] ++ be16 x.source ++ [domainByte x.domain, mask, yesNo x.monitor]⟩ →
    Settled s → InTurn r s s1 →
    let fits : Prop := 1 ≤ b.toNat ∧ b.toNat ≤ 48 ∧ ∀ x, v = some x → x.source ≤ 256 ∧ mask ≠ 0
    (fits → ∃ t, exec (.setOutput tag r.payload) s = .next t ∧
      (t.output b.toNat).config = v ∧
      ((∃ x y, (s.output b.toNat).config = some x ∧ x.monitor = true ∧ v = some y ∧ y.monitor = true) →
        (t.output b.toNat).fault = (s.output b.toNat).fault) ∧
      (¬(∃ x y, (s.output b.toNat).config = some x ∧ x.monitor = true ∧ v = some y ∧ y.monitor = true) →
        (t.output b.toNat).fault = .ok) ∧
      (∀ k, k ≠ b.toNat → (t.output k).config = (s.output k).config ∧ (t.output k).fault = (s.output k).fault) ∧
      (∀ n, (t.output n).drive = t.driveOf n) ∧
      (t.tou.lampFault = true ↔ ∃ e ∈ t.tou.outputs.entries, e.2.fault ≠ .ok) ∧
      t = { s1 with
        hlc := (s1.hlc.answered r .ok []).handed .lampFault s.tou.lampFault t.tou.lampFault
        tou := { s1.tou with outputs := t.tou.outputs, lampFault := t.tou.lampFault } }) ∧
    (¬fits → exec (.setOutput tag r.payload) s = .next { s1 with hlc := s1.hlc.answered r .badArg [] })

/-- R66, R73 to R75, R77: the lamp fault monitor.  LAMP_CLEAR makes the fault state OK; on a lit output whose monitor is
enabled a load sample moves it between OK and OPEN and an overcurrent makes it SHORT; a line that is not sensed has no effect.
The flash clock passes into its other half.  R68: the drive that is evaluated, row by row.  That the reply of LAMP_CLEAR stands
before the EVENT_FLAGS message of LAMP_FAULT is the model's choice (log entry 7). -/
def Obligations.LampFaultsAreMonitored : Prop :=
  let fault (c : Instr) (s s1 : State) (link : Bool → HostLink) (n : Nat) (f : LampFaultState) : Prop :=
    ∃ t : State, exec c s = .next t ∧
      (t.output n).config = (s.output n).config ∧ (t.output n).fault = f ∧
      (∀ k, k ≠ n → (t.output k).config = (s.output k).config ∧ (t.output k).fault = (s.output k).fault) ∧
      (∀ k, (t.output k).drive = t.driveOf k) ∧
      (t.tou.lampFault = true ↔ ∃ e ∈ t.tou.outputs.entries, e.2.fault ≠ .ok) ∧
      t = { s1 with
        hlc := link t.tou.lampFault
        tou := { s1.tou with outputs := t.tou.outputs, lampFault := t.tou.lampFault } }
  let handed (s : State) (now : Bool) : HostLink := (s.hlc.handed .lampFault s.tou.lampFault now).begun
  (∀ (tag b : Byte) (s s1 : State) (r : Request), r = ⟨0x42, tag, [b]⟩ → Settled s → InTurn r s s1 →
    (1 ≤ b.toNat ∧ b.toNat ≤ 48 → fault (.lampClear tag [b]) s s1
      (fun now => (s1.hlc.answered r .ok []).handed .lampFault s.tou.lampFault now) b.toNat .ok) ∧
    (¬(1 ≤ b.toNat ∧ b.toNat ≤ 48) →
      exec (.lampClear tag [b]) s = .next { s1 with hlc := s1.hlc.answered r .badArg [] })) ∧
  (∀ (n : Nat) (s : State), Settled s →
    (∀ v, (s.output n).config = some v → v.monitor = true →
        (s.output n).drive = .on ∨ (s.output n).drive = .flash ∧ s.tou.flashLit = true →
      ((s.output n).fault = .ok → fault (.loadSample n false) s s (handed s) n .openLoad ∧
        exec (.loadSample n true) s = .next s) ∧
      ((s.output n).fault = .openLoad → fault (.loadSample n true) s s (handed s) n .ok ∧
        exec (.loadSample n false) s = .next s) ∧
      fault (.overcurrentDetection n) s s (handed s) n .short) ∧
    ((s.output n).config = none ∨ (∃ v, (s.output n).config = some v ∧ v.monitor = false) ∨ (s.output n).drive = .off ∨
        (s.output n).drive = .flash ∧ s.tou.flashLit = false →
      (∀ current, exec (.loadSample n current) s = .next s) ∧ exec (.overcurrentDetection n) s = .next s)) ∧
  (∀ s : State, exec .flashClockHalf s = .next { s with tou := { s.tou with flashLit := !s.tou.flashLit } }) ∧
  ∀ (s : State) (n : Nat), DriveRule s n

/-! ### Ports, groups, paths and talks (Chapters 5 to 7) -/

/-- R79, R80, R82, R129: SET_PORT writes a whole port record and the coefficients are computed again; a change of role of a
port in use is BUSY.  SET_GROUP replaces a membership, kept as an ascending set; a member that is not NORMAL is BAD_STATE and a
group that a talk addresses is BUSY.  A value out of range is BAD_ARG. -/
def Obligations.PortsAndGroupsAreSet : Prop :=
  (∀ (tag b : Byte) (v : Port) (s s1 : State) (r : Request),
    (∀ x ∈ [v.trim, v.volume, v.dim] ++ v.ceiling.toList ++ v.talkerCeiling.toList, -127 ≤ x ∧ x ≤ 127) →
    r = ⟨0x50, tag, [b, roleByte v.role, stepsByte v.trim, stepsByte v.volume, stepsByte v.dim, ceilingByte v.ceiling,
      ceilingByte v.talkerCeiling]⟩ → Settled s → InTurn r s s1 →
    let fits : Prop := 1 ≤ b.toNat ∧ b.toNat ≤ 64 ∧ (-24 ≤ v.trim ∧ v.trim ≤ 24) ∧ (-120 ≤ v.volume ∧ v.volume ≤ 0) ∧
      (-60 ≤ v.dim ∧ v.dim ≤ 0) ∧ ∀ c ∈ v.ceiling.toList ++ v.talkerCeiling.toList, -40 ≤ c ∧ c ≤ 24
    let used : Prop := (∃ t ∈ s.tc.talks, t.talker = b.toNat ∨ t.target = .port b.toNat) ∨
      (∃ e ∈ s.tc.groups.entries, b.toNat ∈ e.2) ∨
      ∃ e ∈ s.tc.ifbs.entries, e.2.output = b.toNat ∨ e.2.program = b.toNat
    (fits → v.role ≠ (s.port b.toNat).role → used →
      exec (.setPort tag r.payload) s = .next { s1 with hlc := s1.hlc.answered r .busy [] }) ∧
    (fits → ¬(v.role ≠ (s.port b.toNat).role ∧ used) → ∃ t, exec (.setPort tag r.payload) s = .next t ∧
      t.port b.toNat = v ∧ (∀ q, q ≠ b.toNat → t.port q = s.port q) ∧
      t.tme.paths = s.tme.paths.map (t.withCoefficient s.tme.paths) ∧
      t = { s1 with
        hlc := s1.hlc.answered r .ok []
        tc := { s1.tc with ports := t.tc.ports }
        tme := { s1.tme with paths := t.tme.paths } }) ∧
    (¬fits → exec (.setPort tag r.payload) s = .next { s1 with hlc := s1.hlc.answered r .badArg [] })) ∧
  ∀ (tag b : Byte) (ports : List Byte) (s s1 : State) (r : Request), ports.length < 256 →
    r = ⟨0x51, tag, b :: byte ports.length :: ports⟩ → Settled s → InTurn r s s1 →
    let fits : Prop := 1 ≤ b.toNat ∧ b.toNat ≤ 16 ∧ ports.length ≤ 16 ∧ ports.Nodup ∧ ∀ q ∈ ports, 1 ≤ q.toNat ∧ q.toNat ≤ 64
    let normal : Prop := ∀ q ∈ ports, (s.port q.toNat).role = .normal
    let addressed : Prop := ∃ t ∈ s.tc.talks, t.target = .group b.toNat
    (fits → normal → ¬addressed → ∃ t, exec (.setGroup tag r.payload) s = .next t ∧
      (∀ q, q ∈ t.group b.toNat ↔ ∃ x ∈ ports, x.toNat = q) ∧ (t.group b.toNat).Pairwise (· < ·) ∧
      (∀ g, g ≠ b.toNat → t.group g = s.group g) ∧
      t = { s1 with hlc := s1.hlc.answered r .ok [], tc := { s1.tc with groups := t.tc.groups } }) ∧
    (fits → ¬normal → exec (.setGroup tag r.payload) s = .next { s1 with hlc := s1.hlc.answered r .badState [] }) ∧
    (fits → normal → addressed →
      exec (.setGroup tag r.payload) s = .next { s1 with hlc := s1.hlc.answered r .busy [] }) ∧
    (¬fits → exec (.setGroup tag r.payload) s = .next { s1 with hlc := s1.hlc.answered r .badArg [] })

/-- R102, R105 to R110, R112, R117, R120, R121: one handling of the Talk Mix Engine.  Afterwards the table holds a TALK path for
each pair of a talker and another listener port that some talk joins, with the contributing talks in order, the highest level
and the highest priority among them, and a PROGRAM path for each configured IFB; every admitted path holds its coefficient over
the new table; PATH_STARVED is whether a path is starved.  Nothing outside the path table and the link changes.  A path that
goes on keeps its admission; after a place is given back the starved ones are re-admitted where they fit, and the new ones and
those whose priority rose are offered, each in order.  What fits is admitted with the next number; an offer that does not fit
takes the place of the victim of lowest priority and then highest number, if its own is higher, and else is starved.  That
PROGRAM paths keep their numbers when the TALK paths are renumbered is the model's choice (log entry 33), as is what R110 leaves
open beside a succession (log entry 12).  The table stands by listener, then talker, a PROGRAM path before the TALK path of its
pair; and what the words mean in which it is read. -/
def Obligations.PathsFollowTalks : Prop :=
  PathWords ∧
  (∀ before s : State,
    let t := handling before s
    (∀ a b, (∃ p ∈ t.tme.paths, p.kind = .talk ∧ p.talker = a ∧ p.listener = b) ↔
      a ≠ b ∧ ∃ x ∈ s.tc.talks, x.talker = a ∧ b ∈ x.listeners) ∧
    (∀ p ∈ t.tme.paths, p.kind = .talk →
      p.talks = (s.tc.talks.filter fun x => x.talker == p.talker && x.listeners.contains p.listener).map (fun x => x.id) ∧
      p.level = highestLevel (s.talksOf p.talks) ∧ p.priority = highestPriority (s.talksOf p.talks)) ∧
    ((s.tc.talks.map fun x => x.id).Nodup → ∀ p ∈ t.tme.paths, p.kind = .talk →
      let joins (x : Talk) : Prop := x ∈ s.tc.talks ∧ x.talker = p.talker ∧ p.listener ∈ x.listeners
      (∃ x, joins x ∧ x.level = p.level) ∧ (∃ x, joins x ∧ x.priority = p.priority) ∧
        ∀ x, joins x → x.level ≤ p.level ∧ x.priority ≤ p.priority) ∧
    t.tme.paths.Pairwise (fun p q => ¬ListedBefore q p) ∧
    (∀ n a b, (∃ p ∈ t.tme.paths, p.kind = .program n ∧ p.talker = a ∧ p.listener = b) ↔
      ∃ i, (n, i) ∈ s.tc.ifbs.entries ∧ i.program = a ∧ i.output = b) ∧
    (∀ p ∈ t.tme.paths, ∀ number c, p.admission = .admitted number c →
      (p.kind = .talk → c = talkCoefficient s (talkCountInto t.tme.paths p.listener) p.talker p.listener p.level) ∧
      ∀ n i, p.kind = .program n → s.ifb? n = some i → c = programCoefficient s i) ∧
    (t.tme.pathStarved = true ↔ ∃ p ∈ t.tme.paths, p.admission = .starved) ∧
    (s.tme.paths.Pairwise (fun p q => p.same q = false) → ascending s.tc.ifbs.entries = true → Admitted before s t.tme) ∧
    t = { s with
      hlc := s.hlc.handed .pathStarved s.tme.pathStarved t.tme.pathStarved
      tme := t.tme }) ∧
  ∀ (a : Admissions) (p : Path),
    (Fits a p.listener → Entered p a (readmit a p)) ∧ (¬Fits a p.listener → readmit a p = a) ∧
    ((∀ v ∈ a.paths, ∀ w ∈ a.paths, v.kind = .talk → w.kind = .talk → v.isAdmitted = true → w.isAdmitted = true →
      v.number = w.number → v = w) → Offered p a (offer a p))

/-- R123 to R127: the five stages of a coefficient, and the bounds that its limits give: steps from −144 to +24, or OFF.  R120: a
path of a table with its coefficient computed: a TALK path over the admitted TALK paths into its listener, a PROGRAM path over
its IFB. -/
def Obligations.CoefficientArithmetic : Prop :=
  (∀ (s : State) (paths : List Path) (p : Path),
    (p.admission = .starved → s.withCoefficient paths p = p) ∧
    ∀ number c, p.admission = .admitted number c →
      (p.kind = .talk → s.withCoefficient paths p = { p with
        admission := .admitted number
          (talkCoefficient s (talkCountInto paths p.listener) p.talker p.listener p.level) }) ∧
      ∀ n i, p.kind = .program n → s.ifb? n = some i →
        s.withCoefficient paths p = { p with admission := .admitted number (programCoefficient s i) }) ∧
  (∀ (s : State) (n t l : Nat) (x : Int),
    let dim : Int := if ∃ k ∈ s.tc.talks, k.talker = l then (s.port l).dim else 0
    let pre : Int := (s.port t).trim + x + dim
    let held : Int := match (s.port l).ceiling, (s.port t).talkerCeiling with
      | none, _ => pre
      | some c, none => min pre c
      | some c, some k => min pre (min c k)
    let shared : Int := if n ≤ 1 then 0 else if n = 2 then -6 else if n = 3 then -10 else if n = 4 then -12
      else if n ≤ 8 then -16 else -20
    let sum : Int := held + shared + (s.port l).volume
    talkCoefficient s n t l x = if 24 < sum then .steps 24 else if sum < -144 then .off else .steps sum) ∧
  (∀ (s : State) (i : Ifb),
    let sum (duck : Int) : Int := (s.port i.program).trim + duck + (s.port i.output).volume
    let limit (k : Int) : Coefficient := if 24 < k then .steps 24 else if k < -144 then .off else .steps k
    (i.current = none → programCoefficient s i = limit (sum 0)) ∧
    (∀ c duck, i.current = some c → i.duck = some duck → programCoefficient s i = limit (sum duck)) ∧
    ∀ c, i.current = some c → i.duck = none → programCoefficient s i = .off) ∧
  ∀ (s : State) (paths : List Path) (p q : Path) (number : Nat) (k : Int), q = s.withCoefficient paths p →
    q.admission = .admitted number (.steps k) → -144 ≤ k ∧ k ≤ 24

/-- R84 to R87, R93, R94, R114, R116: TALK_ON and TALK_OFF.  TALK_OFF ends the talk of its slot.  TALK_ON, after its checks,
ends the talk of its slot and then offers a new one: where, counted after that ending, there are fewer than 96 talks, the
reservations stay within 512 and the IFB it addresses accepts it, a record with the lowest free id and the next creation number
joins the talk set; else the request is answered NO_SPACE.  When the creation counter would pass 4294967295, the talks are
renumbered.  The ended talk leaves the IFBs, the new one enters the arbitration of the IFB that it addresses, and nothing else
of an IFB changes.  The ending and the creation are each one handling (R110).  Nothing else but the path table and the lamps
changes, and the flags of each handling are raised.  R83: which targets are valid.  That the reply stands before the EVENT_FLAGS
message of the same execution is the model's choice (log entry 7). -/
def Obligations.SystemTalksBeginAndEnd : Prop :=
  let kept (slot : Nat) (s : State) : List Talk := s.tc.talks.filter fun x => (s.slotTalk? slot).map (fun y => y.id) != some x.id
  let framed (s1 t : State) : Prop :=
    t.rc = s1.rc ∧ t.stu = s1.stu ∧ t.tt = s1.tt ∧ t.tou = s1.tou ∧ t.fd = s1.fd ∧ t.pending = s1.pending ∧
    Relamped { s1 with tc := t.tc, tme := t.tme } t
  let slotEnded (slot : Nat) (s m : State) : Prop :=
    SameTalks m.tc.talks (kept slot s) ∧ m.tc = { s.tc with talks := m.tc.talks, ifbs := m.tc.ifbs } ∧
    IfbsLeft ((s.slotTalk? slot).map fun y => y.id).toList s m ∧ MixHandled s m
  (∀ (s : State) (slot : Nat), s.slotTalk? slot = s.tc.talks.find? fun x => x.origin == .system slot) ∧
  (∀ talks : List Talk, totalReservations talks = (talks.map fun x => x.reservation).sum) ∧
  (∀ (tag b : Byte) (s s1 : State) (r : Request), r = ⟨0x53, tag, [b]⟩ → Settled s → InTurn r s s1 →
    (1 ≤ b.toNat ∧ b.toNat ≤ 8 → ∃ t, exec (.talkOff tag [b]) s = .next t ∧
      slotEnded b.toNat s t ∧ framed s1 t ∧ TalkReported s t (s1.hlc.answered r .ok []) t.hlc) ∧
    (¬(1 ≤ b.toNat ∧ b.toNat ≤ 8) →
      exec (.talkOff tag [b]) s = .next { s1 with hlc := s1.hlc.answered r .badArg [] })) ∧
  (∀ (s : State) (target : Target), s.targetValid target = true ↔ s.validTarget target) ∧
  ∀ (tag b q prio : Byte) (target : Target) (dom : Option Domain) (x : Int) (s s1 : State) (r : Request),
    (match target with
      | .port k => k < 256 ∧ dom = none
      | .group k => k < 256 ∧ dom = none
      | .ifb k => k < 256 ∧ dom = none
      | .camera k => k < 256 ∧ dom = none
      | .onair => dom ≠ none) →
    -128 ≤ x ∧ x ≤ 127 → r = ⟨0x52, tag, [b, q] ++ targetBytes target dom ++ [stepsByte x, prio]⟩ →
    Settled s → InTurn r s s1 →
    let fits : Prop := (1 ≤ b.toNat ∧ b.toNat ≤ 8) ∧ (1 ≤ q.toNat ∧ q.toNat ≤ 64) ∧ (-80 ≤ x ∧ x ≤ 12) ∧ prio.toNat ≤ 7
    let places (k : Nat) : Nat := match target, dom with
      | .group g, _ => count (fun m => m != k) (s.group g)
      | .onair, some d => count (fun c => c.domain == d && c.port.isSome) s.tou.cameras.values
      | .onair, none => 0
      | _, _ => 1
    let born (m : State) (new : Talk) : Prop :=
      (1 ≤ new.id ∧ new.id ≤ 96 ∧ (∀ y ∈ m.tc.talks, y.id ≠ new.id) ∧
        ∀ j, 1 ≤ j ∧ j < new.id → ∃ y ∈ m.tc.talks, y.id = j) ∧
      new.bare = ⟨new.id, q.toNat, target, x, prio.toNat, .system b.toNat, dom, s.tc.counter, places q.toNat, []⟩
    let room (m : State) : Prop := m.tc.talks.length < 96 ∧ totalReservations m.tc.talks + places q.toNat ≤ 512 ∧
      ∀ n i, target = .ifb n → m.ifb? n = some i → prio = 0 ∨ i.current = none ∨ i.pending.length < 16
    let joined (m t : State) : Prop := ∃ new h, born m new ∧
      TalkJoined new m.tc.talks s.tc.counter t.tc.talks t.tc.counter ∧ IfbJoined new m t ∧
      t.tc = { m.tc with talks := t.tc.talks, ifbs := t.tc.ifbs, counter := t.tc.counter } ∧ MixHandled m t ∧
      TalkReported s m (s1.hlc.answered r .ok []) h ∧ TalkReported m t h t.hlc
    let turnedAway (m t : State) : Prop := t.tc = m.tc ∧ t.tme = m.tme ∧
      TalkReported s m (s1.hlc.answered r .noSpace []) t.hlc
    (¬fits → exec (.talkOn tag r.payload) s = .next { s1 with hlc := s1.hlc.answered r .badArg [] }) ∧
    (fits → (s.port q.toNat).role ≠ .normal →
      exec (.talkOn tag r.payload) s = .next { s1 with hlc := s1.hlc.answered r .noPort [] }) ∧
    (fits → (s.port q.toNat).role = .normal → s.targetValid target = false →
      exec (.talkOn tag r.payload) s = .next { s1 with hlc := s1.hlc.answered r .badTarget [] }) ∧
    (fits → (s.port q.toNat).role = .normal → s.targetValid target = true →
      ∃ m t, exec (.talkOn tag r.payload) s = .next t ∧ slotEnded b.toNat s m ∧ framed s1 t ∧
        (room m → joined m t) ∧ (¬room m → turnedAway m t))

/-- R104, R110, R113 to R117: SET_IFB configures or unconfigures an IFB, in one handling; a configuration that repeats the
record changes nothing, and else the lamps follow. The arbitration as talks arrive and end: an arrival takes an idle IFB,
preempts a lower level unless NO_PREEMPT, or waits in its place by priority, talker port and creation; an ending interrupter
gives way to the head of the pending list.  That the reply stands before the EVENT_FLAGS message of the same execution is the
model's choice (log entry 7). -/
def Obligations.IfbsAreConfigured : Prop :=
  (∀ (tag b : Byte) (s s1 : State) (r : Request), r = ⟨0x60, tag, [b]⟩ → Settled s → InTurn r s s1 →
    let addressed : Prop := ∃ t ∈ s.tc.talks, t.target = .ifb b.toNat
    (1 ≤ b.toNat ∧ b.toNat ≤ 16 → ¬addressed → ∃ t, exec (.setIfb tag [b]) s = .next t ∧
      t.ifb? b.toNat = none ∧ (∀ n, n ≠ b.toNat → t.ifb? n = s.ifb? n) ∧ SameTalks t.tc.talks s.tc.talks ∧
      t.tc = { s.tc with talks := t.tc.talks, ifbs := t.tc.ifbs } ∧ MixHandled s t ∧
      Relamped { s1 with tc := t.tc, tme := t.tme } t ∧
      t = { s1 with hlc := t.hlc, tc := t.tc, tme := t.tme, pbc := t.pbc } ∧
      TalkReported s t (s1.hlc.answered r .ok []) t.hlc) ∧
    (1 ≤ b.toNat ∧ b.toNat ≤ 16 → addressed →
      exec (.setIfb tag [b]) s = .next { s1 with hlc := s1.hlc.answered r .busy [] }) ∧
    (¬(1 ≤ b.toNat ∧ b.toNat ≤ 16) →
      exec (.setIfb tag [b]) s = .next { s1 with hlc := s1.hlc.answered r .badArg [] })) ∧
  (∀ (tag b o p : Byte) (duck : Option Int) (hold : Bool) (s s1 : State) (r : Request),
    (∀ d, duck = some d → -127 ≤ d ∧ d ≤ 127) → r = ⟨0x60, tag, [b, o, p, ceilingByte duck, yesNo hold]⟩ →
    Settled s → InTurn r s s1 →
    let fits : Prop := (1 ≤ b.toNat ∧ b.toNat ≤ 16) ∧ (1 ≤ o.toNat ∧ o.toNat ≤ 64) ∧ (1 ≤ p.toNat ∧ p.toNat ≤ 64) ∧
      ∀ d, duck = some d → -60 ≤ d ∧ d ≤ 0
    let ports : Prop := (s.port o.toNat).role = .ifbOutput ∧ (s.port p.toNat).role = .programInput ∧
      ∀ e ∈ s.tc.ifbs.entries, e.1 ≠ b.toNat → e.2.output ≠ o.toNat
    let moved : Prop := ∃ i, s.ifb? b.toNat = some i ∧ (i.output ≠ o.toNat ∨ i.program ≠ p.toNat)
    let addressed : Prop := ∃ t ∈ s.tc.talks, t.target = .ifb b.toNat
    (fits → ports → ¬(moved ∧ addressed) → ∃ t i, exec (.setIfb tag r.payload) s = .next t ∧
      t.ifb? b.toNat = some i ∧ i.output = o.toNat ∧ i.program = p.toNat ∧ i.duck = duck ∧ i.noPreempt = hold ∧
      (s.ifb? b.toNat = none → i.current = none ∧ i.level = 0 ∧ i.pending = []) ∧
      (∀ j, s.ifb? b.toNat = some j → ¬(j.noPreempt = true ∧ hold = false ∧ j.pending ≠ [] ∧ j.current ≠ none) →
        i.current = j.current ∧ i.level = j.level ∧ i.pending = j.pending) ∧
      (∀ j head rest c, s.ifb? b.toNat = some j → j.noPreempt = true → hold = false → j.pending = head :: rest →
        j.current = some c →
        (j.level < s.priorityOf head →
          i.current = some head ∧ i.level = s.priorityOf head ∧ i.pending = s.enterPending c rest) ∧
        (s.priorityOf head ≤ j.level → i.current = j.current ∧ i.level = j.level ∧ i.pending = j.pending)) ∧
      (∀ n, n ≠ b.toNat → t.ifb? n = s.ifb? n) ∧ SameTalks t.tc.talks s.tc.talks ∧
      t.tc = { s.tc with talks := t.tc.talks, ifbs := t.tc.ifbs } ∧ MixHandled s t ∧
      (s.ifb? b.toNat ≠ some i → Relamped { s1 with tc := t.tc, tme := t.tme } t) ∧
      (s.ifb? b.toNat = some i → t = { s1 with hlc := s1.hlc.answered r .ok [] }) ∧
      t = { s1 with hlc := t.hlc, tc := t.tc, tme := t.tme, pbc := { s1.pbc with panels := t.pbc.panels } } ∧
      TalkReported s t (s1.hlc.answered r .ok []) t.hlc) ∧
    (fits → ports → moved → addressed →
      exec (.setIfb tag r.payload) s = .next { s1 with hlc := s1.hlc.answered r .busy [] }) ∧
    (fits → ¬ports → exec (.setIfb tag r.payload) s = .next { s1 with hlc := s1.hlc.answered r .badState [] }) ∧
    (¬fits → exec (.setIfb tag r.payload) s = .next { s1 with hlc := s1.hlc.answered r .badArg [] })) ∧
  (∀ (s : State) (i : Ifb) (id priority : Nat),
    (priority = 0 → s.arbitrate i id priority = i) ∧
    (priority ≠ 0 → i.current = none → s.arbitrate i id priority = { i with current := some id, level := priority }) ∧
    ∀ c, priority ≠ 0 → i.current = some c →
      (i.noPreempt = false ∧ i.level < priority → s.arbitrate i id priority =
        { i with current := some id, level := priority, pending := s.enterPending c i.pending }) ∧
      (¬(i.noPreempt = false ∧ i.level < priority) → s.arbitrate i id priority =
        { i with pending := s.enterPending id i.pending })) ∧
  (∀ (s : State) (id : Nat) (pending : List Nat), PlacedPending s id pending) ∧
  (∀ (s : State) (n id : Nat), s.interrupter n = (s.ifb? n).bind (fun i => i.current) ∧
    ∀ t, s.talk? id = some t → s.priorityOf id = t.priority) ∧
  (∀ (s : State) (i : Ifb) (ended : List Nat), i.current = none →
    s.withoutTalks ended i = { i with pending := i.pending.filter fun id => !ended.contains id }) ∧
  ∀ (s : State) (i : Ifb) (ended : List Nat) (c : Nat), i.current = some c →
    let left := i.pending.filter fun id => !ended.contains id
    (c ∉ ended → s.withoutTalks ended i = { i with pending := left }) ∧
    (c ∈ ended → left = [] → s.withoutTalks ended i = { i with current := none, level := 0, pending := [] }) ∧
    ∀ head rest, c ∈ ended → left = head :: rest → s.withoutTalks ended i =
      { i with current := some head, level := s.priorityOf head, pending := rest }

/-- R81, R91: the AUTO timer of a key in HELD expires into HELD_LONG and has no effect otherwise; a knob delta moves the
listen volume of the own port of a panel in service, held to −120..0, and is discarded otherwise.  A panel is in service while it
is ONLINE or DEGRADED. -/
def Obligations.TimersAndKnobsMove : Prop :=
  (∀ (s : State) (p : Nat), s.inService p = true ↔
    ∃ v, s.panel? p = some v ∧ (v.state = .online ∨ v.state = .degraded)) ∧
  (∀ (p k : Nat) (s : State),
    ((s.key p k).state = .held → (s.key p k).timer = true → ∃ t, exec (.autoTimerExpiry p k) s = .next t ∧
      t.key p k = { s.key p k with state := .heldLong, timer := false } ∧
      (∀ q j, ¬(q = p ∧ j = k) → t.key q j = s.key q j) ∧
      LampsFollow { s with hlc := s.hlc.begun, tc := { s.tc with keys := t.tc.keys } } t) ∧
    (¬((s.key p k).state = .held ∧ (s.key p k).timer = true) → ∃ t, exec (.autoTimerExpiry p k) s = .next t ∧
      LampsFollow { s with hlc := s.hlc.begun } t)) ∧
  ∀ (p : Nat) (delta : Int) (s s1 : State), Taken ⟨p, .knob delta⟩ s s1 →
    (∀ v q, s.panel? p = some v → v.ownPort = some q → s.inService p = true → (s.port q).role = .normal →
      ∃ t, exec (.knob p delta) s = .next t ∧
        t.port q = { s.port q with volume := max (-120) (min 0 ((s.port q).volume + delta)) } ∧
        (∀ k, k ≠ q → t.port k = s.port k) ∧
        ((t.port q).volume ≠ (s.port q).volume →
          t.tme.paths = s.tme.paths.map (t.withCoefficient s.tme.paths)) ∧
        ((t.port q).volume = (s.port q).volume → t.tme = s.tme) ∧
        t = { s1 with
          hlc := s1.hlc.begun
          tc := { s1.tc with ports := t.tc.ports }
          tme := { s1.tme with paths := t.tme.paths } }) ∧
    (s.inService p = false ∨ (∀ v q, s.panel? p = some v → v.ownPort = some q → (s.port q).role ≠ .normal) →
      exec (.knob p delta) s = .next { s1 with hlc := s1.hlc.begun })

/-! ### Panels (Chapter 8) -/

/-- R134: SET_PANEL declares a panel with its starting values, or writes the four fields of a declared one; a change of kind in
service is BUSY and a value out of range BAD_ARG.  R135, R9, R49, R72, R95, R116, R152: UNDECLARED removes a panel with its
protects, talks, calls, keys, context and held-key records, its talks in one handling (R110), and a transaction with it is
discarded; an undeclared panel changes nothing.  A byte that names no kind or domain is BAD_ARG.  That the reply of UNDECLARED
stands before the EVENT_FLAGS message of the removal is the model's choice (log entry 7). -/
def Obligations.PanelsAreDeclaredAndRemoved : Prop :=
  (∀ (tag b l q : Byte) (kind : PanelKind) (dom : Domain) (s s1 : State) (r : Request),
    r = ⟨0x80, tag, [b, panelKindByte kind, l, domainByte dom, q]⟩ → Settled s → InTurn r s s1 →
    let fits : Prop := (1 ≤ b.toNat ∧ b.toNat ≤ 32) ∧ l.toNat ≤ 3 ∧ q.toNat ≤ 64
    let port : Option Nat := if q = 0 then none else some q.toNat
    (¬fits → exec (.setPanel tag r.payload) s = .next { s1 with hlc := s1.hlc.answered r .badArg [] }) ∧
    (fits → s.panel? b.toNat = none → ∃ u t, exec (.setPanel tag r.payload) s = .next t ∧
      u.panel? b.toNat =
        some ⟨kind, l.toNat, dom, port, .absent, none, 0, false, false, none, 0, 0, .none, ⟨[]⟩, 1⟩ ∧
      (∀ p, p ≠ b.toNat → u.panel? p = s.panel? p) ∧
      (∀ p, u.context p = if p = b.toNat then ⟨none, none⟩ else s.context p) ∧
      u = { s1 with
        hlc := s1.hlc.answered r .ok []
        pbc := { s1.pbc with panels := u.pbc.panels }
        fd := { s1.fd with contexts := u.fd.contexts } } ∧ LampsFollow u t) ∧
    ∀ v, fits → s.panel? b.toNat = some v →
      let busy : Prop := kind ≠ v.kind ∧ v.state ≠ .absent ∧ v.state ≠ .lost
      (busy → exec (.setPanel tag r.payload) s = .next { s1 with hlc := s1.hlc.answered r .busy [] }) ∧
      (¬busy → ∃ u t, exec (.setPanel tag r.payload) s = .next t ∧
        u.panel? b.toNat = some { v with kind := kind, access := l.toNat, domain := dom, ownPort := port } ∧
        (∀ p, p ≠ b.toNat → u.panel? p = s.panel? p) ∧
        u = { s1 with hlc := s1.hlc.answered r .ok [], pbc := { s1.pbc with panels := u.pbc.panels } } ∧
        LampsFollow u t)) ∧
  (∀ (tag b kind l dom q : Byte) (s s1 : State) (r : Request), r = ⟨0x80, tag, [b, kind, l, dom, q]⟩ → Settled s →
    InTurn r s s1 → 1 < kind.toNat ∨ 1 < dom.toNat →
    exec (.setPanel tag r.payload) s = .next { s1 with hlc := s1.hlc.answered r .badArg [] }) ∧
  ∀ (tag b : Byte) (s s1 : State) (r : Request), r = ⟨0x80, tag, [b]⟩ → Settled s → InTurn r s s1 →
    (s.tc.talks.map fun x => x.id).Nodup →
    (¬(1 ≤ b.toNat ∧ b.toNat ≤ 32) →
      exec (.setPanelUndeclared tag [b]) s = .next { s1 with hlc := s1.hlc.answered r .badArg [] }) ∧
    (1 ≤ b.toNat ∧ b.toNat ≤ 32 → s.panel? b.toNat = none →
      exec (.setPanelUndeclared tag [b]) s = .next { s1 with hlc := s1.hlc.answered r .ok [] }) ∧
    ∀ v, 1 ≤ b.toNat ∧ b.toNat ≤ 32 → s.panel? b.toNat = some v → ∃ u t, exec (.setPanelUndeclared tag [b]) s = .next t ∧
      PanelDropped b.toNat s u ∧ u.panel? b.toNat = none ∧ (∀ p, p ≠ b.toNat → u.panel? p = s.panel? p) ∧
      (∀ d, 1 ≤ d ∧ d ≤ 256 → u.dest d =
        if (s.dest d).protect = .panel b.toNat then { s.dest d with protect := .none } else s.dest d) ∧
      u.rc = { s.rc with dests := u.rc.dests } ∧ MixHandled s u ∧
      (∀ p k, u.held? p k = if p = b.toNat then none else s.held? p k) ∧
      u.fd = { s.fd with contexts := u.fd.contexts, held := u.fd.held } ∧
      u.pbc = { s.pbc with
        panels := u.pbc.panels, panelErrors := u.pbc.panelErrors
        transaction := s.pbc.transaction.map fun x => if x.panel = b.toNat then { x with discard := true } else x } ∧
      (∃ h, TalkReported s u (s1.hlc.answered r .ok []) h ∧
        (v.state = .absent → u.hlc = h ∧ u.pbc.panelErrors = s.pbc.panelErrors) ∧
        (v.state ≠ .absent → PanelStateReported s.pbc.panelErrors h u)) ∧
      LampsFollow u t

/-- R153 to R156: SET_COUNT_MODE writes the report mode and the threshold; a transfer, each second in AUTO and at
COUNTS_SNAPSHOT in MANUAL, moves every counter to the last window and judges the ONLINE and DEGRADED panels.  A byte that
names no mode is BAD_ARG.  The one byte of the threshold is the model's choice (log entry 31), and so is that the reply of
COUNTS_SNAPSHOT stands before the EVENT_FLAGS message of the transfer (log entry 7). -/
def Obligations.ErrorCountsAreTransferred : Prop :=
  let judged (s : State) (v : Panel) : PanelState :=
    if v.state = .online ∧ s.pbc.threshold ≤ v.errors then .degraded
    else if v.state = .degraded ∧ v.errors < s.pbc.threshold then .online else v.state
  let transferred (s s1 : State) (h : HostLink) (t : State) : Prop := ∃ u : State,
    (∀ p, u.panel? p = (s.panel? p).map fun v => { v with lastWindow := v.errors, errors := 0, state := judged s v }) ∧
    u = { s1 with
      hlc := u.hlc
      pbc := { s1.pbc with panels := u.pbc.panels, panelErrors := u.pbc.panelErrors } } ∧
    ((∃ e ∈ s.pbc.panels.entries, judged s e.2 ≠ e.2.state) →
      (u.pbc.panelErrors = true ↔ ∃ e ∈ u.pbc.panels.entries, e.2.state = .degraded) ∧
      u.hlc = (h.raised .panelState).handed .panelErrors s.pbc.panelErrors u.pbc.panelErrors) ∧
    ((∀ e ∈ s.pbc.panels.entries, judged s e.2 = e.2.state) →
      u.pbc.panelErrors = s.pbc.panelErrors ∧ u.hlc = h) ∧
    LampsFollow u t
  (∀ (tag b : Byte) (mode : CountMode) (s s1 : State) (r : Request), r = ⟨0x81, tag, [countModeByte mode, b]⟩ →
    Settled s → InTurn r s s1 →
    (b ≠ 0 → exec (.setCountMode tag r.payload) s = .next { s1 with
      hlc := s1.hlc.answered r .ok [], pbc := { s1.pbc with mode := mode, threshold := b.toNat } }) ∧
    (b = 0 → exec (.setCountMode tag r.payload) s = .next { s1 with hlc := s1.hlc.answered r .badArg [] })) ∧
  (∀ (tag m b : Byte) (s s1 : State) (r : Request), r = ⟨0x81, tag, [m, b]⟩ → Settled s → InTurn r s s1 → 1 < m.toNat →
    exec (.setCountMode tag r.payload) s = .next { s1 with hlc := s1.hlc.answered r .badArg [] }) ∧
  (∀ (tag : Byte) (s s1 : State) (r : Request), r = ⟨0x82, tag, []⟩ → Settled s → InTurn r s s1 →
    (s.pbc.mode = .auto → exec (.countsSnapshot tag []) s = .next { s1 with hlc := s1.hlc.answered r .badState [] }) ∧
    (s.pbc.mode = .manual → ∃ t, exec (.countsSnapshot tag []) s = .next t ∧
      transferred s s1 (s1.hlc.answered r .ok []) t)) ∧
  ∀ s : State,
    (s.pbc.mode = .auto → ∃ t, exec .countTransfer s = .next { t with hlc := t.hlc.begun } ∧ transferred s s s.hlc t) ∧
    (s.pbc.mode = .manual → exec .countTransfer s = .next { s with hlc := s.hlc.begun })

/-- R134, R140, R142, R143, R148 to R150: a REPLY that answers a poll acknowledges the lamp entries of the POLL and clears the
missed polls; it brings its events, in order, when its sequence bit is new and all of them have room, and none from a JOINING
panel; the acknowledgement that leaves no lamp of a JOINING panel unknown puts it ONLINE.  An IDENT of the kind that was
expected when its probe was sent makes the panel JOINING, with its lamps unknown and its held-key records empty. -/
def Obligations.PanelsAnswer : Prop :=
  (∀ (s : State) (x : Transaction) (v : Panel) (keys : Nat) (bit : Bool) (es : List PanelAction),
    s.pbc.transaction = some x → x.probe = false → x.discard = false → x.panel ≤ 32 → s.panel? x.panel = some v →
    v.keyCount = some keys → keys ≤ 64 → v.state ≠ .absent → v.state ≠ .lost → (x.entries.map Prod.fst).Nodup →
    es.length ≤ 8 → (∀ a ∈ es, a.reportable keys) →
    let fresh : Bool := v.state != .joining && bit != v.seqBit && decide (s.pbc.events.length + es.length ≤ 64)
    ∃ (u : State) (w : Panel), TransactionEnds
        (.panelFrameReceived (panelFrame (byte x.panel) 0x81 (yesNo bit :: byte es.length :: es.flatMap PanelAction.record)))
        s x u ∧
      u.panel? x.panel = some w ∧ (∀ q, q ≠ x.panel → u.panel? q = s.panel? q) ∧
      w = { v with
        missed := 0, lamps := w.lamps, state := w.state
        seqBit := if fresh || v.state == .joining then bit else v.seqBit } ∧
      (∀ k, (w.lamp k).desired = (v.lamp k).desired) ∧ (∀ e ∈ x.entries, (w.lamp e.1).sent = some e.2) ∧
      (∀ k, (∀ e ∈ x.entries, e.1 ≠ k) → (w.lamp k).sent = (v.lamp k).sent) ∧
      u = { s with
        hlc := u.hlc
        pbc := { s.pbc with
          panels := u.pbc.panels, panelErrors := u.pbc.panelErrors, transaction := none
          events := if fresh then s.pbc.events ++ es.map (KeyEvent.mk x.panel) else s.pbc.events } } ∧
      let shown : Prop := v.state = .joining ∧ ∀ k, 1 ≤ k → k ≤ 64 → (w.lamp k).sent ≠ none
      (shown → w.state = .online ∧ PanelStateReported s.pbc.panelErrors s.hlc u) ∧
      (¬shown → w.state = v.state ∧ u.hlc = s.hlc ∧ u.pbc.panelErrors = s.pbc.panelErrors)) ∧
  ∀ (s : State) (x : Transaction) (v : Panel) (k n seq : Byte), s.pbc.transaction = some x → x.probe = true →
    x.discard = false → x.panel ≤ 32 → s.panel? x.panel = some v → 1 ≤ n.toNat ∧ n.toNat ≤ 64 →
    (k.getLsbD 0 = true ↔ x.kind = .mixerBridge) → ∃ (u : State) (w : Panel),
      TransactionEnds (.panelFrameReceived (panelFrame (byte x.panel) 0x82 [k, n, seq])) s x u ∧
      u.panel? x.panel = some w ∧ (∀ q, q ≠ x.panel → u.panel? q = s.panel? q) ∧
      w = { v with
        state := .joining, keyCount := some n.toNat, seqBit := seq.getLsbD 0, missed := 0, scan := 1, lamps := w.lamps } ∧
      (∀ j, 1 ≤ j → j ≤ 64 → w.lamp j = ⟨(v.lamp j).desired, none⟩) ∧
      (∀ q j, u.held? q j = if q = x.panel then none else s.held? q j) ∧
      u = { s with
        hlc := u.hlc
        pbc := { s.pbc with panels := u.pbc.panels, panelErrors := u.pbc.panelErrors, transaction := none }
        fd := { s.fd with held := u.fd.held } } ∧
      PanelStateReported s.pbc.panelErrors s.hlc u

/-- R134, R138 to R140, R149, R151, R153, R197: a bad frame (of a bad CRC, malformed in its kind, length, events or key count,
or of another address) and a timed-out poll are counted against the panel; for a poll they are missed too, and the third miss in
succession loses the panel with its talks, which leave the IFBs too (R116), its calls, keys and context.  An IDENT of a kind
that was not expected when its probe was sent is counted.  A timed-out probe is nothing.  With a discarded outcome, nothing but
the end of the transaction happens, and with no transaction nothing at all.  That a frame too short to hold a CRC is a CRC error
is the model's choice (log entry 8). -/
def Obligations.PanelErrorsAreCounted : Prop :=
  (∀ (c : Instr) (s : State) (x : Transaction) (v : Panel) (why : ErrorKind), s.pbc.transaction = some x →
    x.discard = false → x.panel ≤ 32 → s.panel? x.panel = some v → BadAnswer x v.keyCount why c →
    (x.probe = true → ∃ u, TransactionEnds c s x u ∧ u.panel? x.panel = some (v.counted why) ∧
      (∀ q, q ≠ x.panel → u.panel? q = s.panel? q) ∧
      u = { s with hlc := s.hlc.counted v, pbc := { s.pbc with panels := u.pbc.panels, transaction := none } }) ∧
    (x.probe = false → v.missed + 1 < 3 → ∃ u, TransactionEnds c s x u ∧
      u.panel? x.panel = some { v.counted why with missed := v.missed + 1 } ∧
      (∀ q, q ≠ x.panel → u.panel? q = s.panel? q) ∧
      u = { s with hlc := s.hlc.counted v, pbc := { s.pbc with panels := u.pbc.panels, transaction := none } }) ∧
    (x.probe = false → 3 ≤ v.missed + 1 → (s.tc.talks.map fun y => y.id).Nodup → ∃ u, TransactionEnds c s x u ∧
      u.panel? x.panel = some { v.counted why with missed := 0, state := .lost, page := false } ∧
      (∀ q, q ≠ x.panel → u.panel? q = s.panel? q) ∧ PanelDropped x.panel s u ∧ u.rc = s.rc ∧ MixHandled s u ∧
      u.fd = { s.fd with contexts := u.fd.contexts } ∧
      u.pbc = { s.pbc with panels := u.pbc.panels, panelErrors := u.pbc.panelErrors, transaction := none } ∧
      ∃ h, TalkReported s u (s.hlc.counted v) h ∧ PanelStateReported s.pbc.panelErrors h u)) ∧
  (∀ (s : State) (x : Transaction) (v : Panel) (k n seq : Byte), s.pbc.transaction = some x → x.probe = true →
    x.discard = false → x.panel ≤ 32 → s.panel? x.panel = some v → 1 ≤ n.toNat ∧ n.toNat ≤ 64 →
    ¬(k.getLsbD 0 = true ↔ x.kind = .mixerBridge) → ∃ u,
      TransactionEnds (.panelFrameReceived (panelFrame (byte x.panel) 0x82 [k, n, seq])) s x u ∧
      u.panel? x.panel = some (v.counted .wrongKind) ∧ (∀ q, q ≠ x.panel → u.panel? q = s.panel? q) ∧
      u = { s with hlc := s.hlc.counted v, pbc := { s.pbc with panels := u.pbc.panels, transaction := none } }) ∧
  (∀ (s : State) (x : Transaction), s.pbc.transaction = some x → x.probe = true → x.discard = false →
    TransactionEnds .transactionTimeout s x { s with pbc := { s.pbc with transaction := none } }) ∧
  (∀ (c : Instr) (s : State) (x : Transaction), (c = .transactionTimeout ∨ ∃ bytes, c = .panelFrameReceived (0x5A :: bytes)) →
    s.pbc.transaction = some x → x.discard = true → exec c s = .next { s with
      hlc := s.hlc.begun, pbc := chooseNext x.probe { s.pbc with transaction := none } }) ∧
  ∀ (c : Instr) (s : State), (c = .transactionTimeout ∨ ∃ bytes, c = .panelFrameReceived bytes) → s.pbc.transaction = none →
    exec c s = .next { s with hlc := s.hlc.begun }

/-- R137, R138, R144, R147, R157: the choice of the next transaction.  A cycle polls the panels that qualify in ascending order,
DEGRADED ones in EVEN cycles only, then sends one probe from the probe pointer on; then, and after a cycle that made no
transaction, the next cycle starts under the other parity; after a restart it starts under the parity that stands. -/
def Obligations.PollCyclesTurn : Prop :=
  (∀ s : State, s.pbc.transaction = none →
    exec .emptyCycleEnd s = .next { s with hlc := s.hlc.begun, pbc := startCycle { s.pbc with odd := !s.pbc.odd } }) ∧
  (∀ (s : State) x, s.pbc.transaction = some x → exec .emptyCycleEnd s = .next { s with hlc := s.hlc.begun }) ∧
  (∀ b : PanelBus, 1 ≤ b.pointer → b.newCycle = false →
    Chosen (fun c => c = startCycle { b with odd := !b.odd }) b (chooseNext false b)) ∧
  (∀ b : PanelBus, b.newCycle = false → chooseNext true b = startCycle { b with odd := !b.odd }) ∧
  (∀ (probe : Bool) (b : PanelBus), b.newCycle = true → chooseNext probe b = startCycle { b with newCycle := false }) ∧
  ∀ b : PanelBus, 1 ≤ b.pointer →
    Chosen (fun c => c = { b with lastPolled := 0, transaction := none }) { b with lastPolled := 0 } (startCycle b)

/-! ### Key events and functions (Chapter 9) -/

/-- R164, R165, R171: a press of an IDLE key.  A panel that is not declared, or not in service, makes it nothing; in service a
NULL binding is UNBOUND, an empty slot EMPTY, and a function above the access level or of the other domain DENIED, each written
into the last-refusal record with KEY_REFUSED.  An event that another one stands before does nothing (log entry 14). -/
def Obligations.PressesAreChecked : Prop :=
  (∀ (p k : Nat) (s s1 : State), Taken ⟨p, .press k⟩ s s1 → (s.key p k).state = .idle →
    (s.panel? p = none → EventEnds (.keyPress p k) s s1) ∧
    ∀ v, s.panel? p = some v →
      let served : Prop := v.state = .online ∨ v.state = .degraded
      let slot := s.binding p v.page k
      (¬served → EventEnds (.keyPress p k) s s1) ∧
      (served → slot = 0 → ∃ u, EventEnds (.keyPress p k) s u ∧ KeyRefused p k v .unbound s1 u) ∧
      (served → slot ≠ 0 → s.function? slot = none → ∃ u, EventEnds (.keyPress p k) s u ∧ KeyRefused p k v .empty s1 u) ∧
      ∀ f, served → slot ≠ 0 → s.function? slot = some f →
        (f.level < v.access ∨ (f.domain = .a ∧ v.domain = .b) ∨ (f.domain = .b ∧ v.domain = .a)) →
        ∃ u, EventEnds (.keyPress p k) s u ∧ KeyRefused p k v .denied s1 u) ∧
  ∀ (c : Instr) (e x : KeyEvent) (rest : List KeyEvent) (s : State),
    (match c with
      | .keyPress p k => e = ⟨p, .press k⟩
      | .keyRelease p k => e = ⟨p, .release k⟩
      | .knob p delta => e = ⟨p, .knob delta⟩
      | .busState p b i => e = ⟨p, .busState b i⟩
      | _ => False) →
    s.pbc.events = x :: rest → x ≠ e → exec c s = .next { s with hlc := s.hlc.begun }

/-- R163, R165 to R169, R172: what a captured function does, the TALK kind apart: takes, presets and selections, salvo firings,
protect toggles (R6), calls (R70), the page, and system keys.  An accepted firing adds one to its count of pending firings, and
each firing that a take or a firing ends by supersession takes one away.  The order of the replies of groups that one entry
empties is the model's choice (log entry 26). -/
def Obligations.CapturedFunctionsAct : Prop :=
  ∀ (p k : Nat) (v : Panel) (f : KeyFunction) (s s1 : State), Taken ⟨p, .press k⟩ s s1 → Captures p k v f s →
    let ends (u : State) : Prop := EventEnds (.keyPress p k) s u
    let refused (why : Reason) : Prop := ∃ u, ends u ∧ KeyRefused p k v why s1 u
    let take (d : Nat) (mask : LevelMask) (x : Nat) : Prop :=
      ∃ u, ends u ∧ PanelTakeOffered p k v ⟨d, mask, x, .panel p k, false⟩ s1 u
    let toggle (d : Nat) : Prop :=
      let allowed : Prop := (s.dest d).domain = .shared ∨ ((s.dest d).domain = .a ∧ v.domain = .a) ∨
        ((s.dest d).domain = .b ∧ v.domain = .b)
      let becomes (x : Protect) : Prop := ∃ u, ends u ∧ u.dest d = { s.dest d with protect := x } ∧
        (∀ e, e ≠ d → u.dest e = s.dest e) ∧ u = { s1 with rc := { s1.rc with dests := u.rc.dests } }
      (¬allowed → refused .denied) ∧ (allowed → (s.dest d).protect = .none → becomes (.panel p)) ∧
      (allowed → (s.dest d).protect = .panel p → becomes .none) ∧
      (∀ q, allowed → (s.dest d).protect = .panel q → q ≠ p → refused .prot) ∧
      (allowed → (s.dest d).protect = .systemLock ∨ (s.dest d).protect = .startupLock → refused .locked)
    let selects (x : Context) : Prop := ∃ u, ends u ∧ u.context p = x ∧ (∀ q, q ≠ p → u.context q = s.context q) ∧
      u = { s1 with fd := { s1.fd with contexts := u.fd.contexts } }
    let holds (u : State) (h : Held) : Prop := u.held? p k = some h ∧
      ∀ q j, ¬(q = p ∧ j = k) → u.held? q j = s.held? q j
    match f.action with
    | .routeTake d mask x => take d mask x
    | .selectDest d => selects { s.context p with dest := some d }
    | .presetSource x => selects { s.context p with source := some x }
    | .takePreset mask =>
      (∀ d x, s.context p = ⟨some d, some x⟩ → take d mask x) ∧
      ((s.context p).dest = none ∨ (s.context p).source = none → refused .noContext)
    | .salvoFire n =>
      let passing := s.passing n (.panel p k) false
      let used := s.pendingEntries + s.drawnEntries
      let own := (acceptedEntries passing ([], s.rc.queue, [])).1
      let left := (acceptedEntries passing ([], s.rc.queue, [])).2.1
      let replies := (acceptedEntries passing ([], s.rc.queue, [])).2.2
      let counts : Counts := ⟨0, (s.salvo n).length - passing.length, 0, passing.length - own.length, 0⟩
      (passing = [] → ends s1) ∧ (passing ≠ [] → 64 < used + passing.length → refused .busy) ∧
      (passing ≠ [] → used + passing.length ≤ 64 → ∃ u, ends u ∧
        (∀ q m, u.pendingFirings q m = s.pendingFirings q m - acceptedFirings q m passing s.rc.queue +
          if q = p ∧ m = n then 1 else 0) ∧
        u = { s1 with
          hlc := { s1.hlc with outbound := s.hlc.outbound ++ replies }
          rc := { s1.rc with queue := left ++ [⟨some ⟨.panel p k, n, counts⟩, own⟩] }
          fd := { s1.fd with firings := u.fd.firings } })
    | .protectToggle (some d) => toggle d
    | .protectToggle none =>
      (∀ d, (s.context p).dest = some d → toggle d) ∧ ((s.context p).dest = none → refused .noContext)
    | .talk _ _ _ _ _ => True
    | .call c =>
      let called : Prop := ∃ h ∈ s.tou.holders, h.panel = p ∧ h.key = k
      (called → ∃ u, ends u ∧ holds u (.call c) ∧ u = { s1 with fd := { s1.fd with held := u.fd.held } }) ∧
      (¬called → 64 ≤ s.tou.holders.length → ∃ u w, ends u ∧ holds w (.call c) ∧
        w = { s1 with fd := { s1.fd with held := w.fd.held } } ∧ KeyRefused p k v .noSpace w u) ∧
      (¬called → s.tou.holders.length < 64 → ∃ u, ends u ∧ holds u (.call c) ∧ SameOutputs s u ∧
        (∀ n, 1 ≤ n → n ≤ 48 → (u.output n).drive = u.driveOf n) ∧
        u = { s1 with
          tou := { s1.tou with holders := s.tou.holders ++ [⟨p, k, c⟩], outputs := u.tou.outputs }
          fd := { s1.fd with held := u.fd.held } })
    | .pageToggle => ∃ u, ends u ∧ u.panel? p = some { v with page := !v.page } ∧
      (∀ q, q ≠ p → u.panel? q = s.panel? q) ∧ u = { s1 with pbc := { s1.pbc with panels := u.pbc.panels } }
    | .systemKey code => ∃ u, ends u ∧ holds u (.systemKey code) ∧
      u = { s1 with
        hlc := s1.hlc.raised .systemKey
        fd := { s1.fd with
          held := u.fd.held
          systemKeys := if s.fd.systemKeys.length < 16 then s.fd.systemKeys ++ [⟨p, k, code, false⟩] else s.fd.systemKeys } }

/-- R84, R86, R88 to R91, R114, R116: the talk keys.  A press of an IDLE key with a TALK function offers a talk: created, the
key captures it with the function's mode, it takes the next creation number and it enters the arbitration of the IFB that it
addresses, every other IFB standing; when the creation counter would pass 4294967295, the talks are renumbered.  Refused, the
key waits in HELD_CANCEL and the reason is recorded.  A press of a LATCHED key of a LATCHING or AUTO function ends its talk,
which leaves the IFBs.  Either is one handling (R110).  Every other press of a key that is not IDLE does nothing. -/
def Obligations.TalkKeysArePressed : Prop :=
  (∀ (p k : Nat) (v : Panel) (f : KeyFunction) (target : Target) (x : Option Domain) (mode : TalkMode) (level : Int)
    (priority : Nat) (s s1 : State), Taken ⟨p, .press k⟩ s s1 → Captures p k v f s →
    f.action = .talk target x mode level priority →
    let moved (u : State) (y : KeyTalk) : Prop := u.key p k = y ∧ ∀ q j, ¬(q = p ∧ j = k) → u.key q j = s.key q j
    let refused (why : Reason) : Prop := ∃ u w, EventEnds (.keyPress p k) s u ∧
      moved w ⟨.heldCancel, some mode, none, false⟩ ∧ w = { s1 with tc := { s1.tc with keys := w.tc.keys } } ∧
      KeyRefused p k v why w u
    (v.ownPort = none → refused .noPort) ∧
    ∀ q, v.ownPort = some q →
      let places : Nat := match target with
        | .group g => count (fun m => m != q) (s.group g)
        | .onair => count (fun c => c.domain == v.domain && c.port.isSome) s.tou.cameras.values
        | _ => 1
      let room : Prop := s.tc.talks.length < 96 ∧ totalReservations s.tc.talks + places ≤ 512 ∧
        ∀ n i, target = .ifb n → s.ifb? n = some i → priority = 0 ∨ i.current = none ∨ i.pending.length < 16
      ((s.port q).role ≠ .normal → refused .noPort) ∧
      ((s.port q).role = .normal → s.targetValid target = false → refused .badTarget) ∧
      ((s.port q).role = .normal → s.targetValid target = true → ¬room → refused .noSpace) ∧
      ((s.port q).role = .normal → s.targetValid target = true → room → ∃ u new, EventEnds (.keyPress p k) s u ∧
        (1 ≤ new.id ∧ new.id ≤ 96 ∧ (∀ y ∈ s.tc.talks, y.id ≠ new.id) ∧
          ∀ j, 1 ≤ j ∧ j < new.id → ∃ y ∈ s.tc.talks, y.id = j) ∧
        new.bare = ⟨new.id, q, target, level, priority, .panel p k, some v.domain, s.tc.counter, places, []⟩ ∧
        TalkJoined new s.tc.talks s.tc.counter u.tc.talks u.tc.counter ∧ IfbJoined new s u ∧
        moved u ⟨if mode = .latching then .latched else .held, some mode, some new.id, mode == .auto⟩ ∧
        u = { s1 with
          hlc := u.hlc
          tc := { s1.tc with talks := u.tc.talks, ifbs := u.tc.ifbs, keys := u.tc.keys, counter := u.tc.counter }
          tme := u.tme } ∧ MixHandled s u ∧
        TalkReported s u s1.hlc u.hlc)) ∧
  ∀ (p k : Nat) (s s1 : State), Taken ⟨p, .press k⟩ s s1 → (s.key p k).state ≠ .idle →
    let cancels : Prop := (s.key p k).state = .latched ∧
      ((s.key p k).mode = some .latching ∨ (s.key p k).mode = some .auto)
    (¬cancels → EventEnds (.keyPress p k) s s1) ∧
    (cancels → ∃ u, EventEnds (.keyPress p k) s u ∧
      SameTalks u.tc.talks (s.tc.talks.filter fun y => (s.key p k).talk != some y.id) ∧
      IfbsLeft (s.key p k).talk.toList s u ∧ u.key p k = ⟨.heldCancel, (s.key p k).mode, none, false⟩ ∧
      (∀ q j, ¬(q = p ∧ j = k) → u.key q j = s.key q j) ∧
      u = { s1 with
        hlc := u.hlc
        tc := { s1.tc with talks := u.tc.talks, ifbs := u.tc.ifbs, keys := u.tc.keys }
        tme := u.tme } ∧ MixHandled s u ∧
      TalkReported s u s1.hlc u.hlc)

/-- R71, R90, R91, R116, R170, R172: a release acts on what the press captured.  A talk key ends its talk, which leaves the IFBs,
in one handling, latches, or
becomes IDLE by the tables of R90 and R91; of an IDLE key, a held call is released and a held system key offers its RELEASE
entry, each emptying the record; any other release does nothing. -/
def Obligations.ReleasesFollowCaptures : Prop :=
  ∀ (p k : Nat) (s s1 : State), Taken ⟨p, .release k⟩ s s1 →
    let ends (u : State) : Prop := EventEnds (.keyRelease p k) s u
    let is (mode : TalkMode) (state : KeyState) : Prop := (s.key p k).mode = some mode ∧ (s.key p k).state = state
    let moved (u : State) (y : KeyTalk) : Prop := u.key p k = y ∧ ∀ q j, ¬(q = p ∧ j = k) → u.key q j = s.key q j
    let drops : Prop := is .momentary .held ∨ is .auto .heldLong
    let clears : Prop := is .momentary .heldCancel ∨ is .latching .heldCancel ∨ is .auto .heldCancel
    (drops → ∃ u, ends u ∧ SameTalks u.tc.talks (s.tc.talks.filter fun y => (s.key p k).talk != some y.id) ∧
      IfbsLeft (s.key p k).talk.toList s u ∧
      moved u ⟨.idle, none, none, false⟩ ∧
      u = { s1 with
        hlc := u.hlc
        tc := { s1.tc with talks := u.tc.talks, ifbs := u.tc.ifbs, keys := u.tc.keys }
        tme := u.tme } ∧ MixHandled s u ∧
      TalkReported s u s1.hlc u.hlc) ∧
    (clears → ∃ u, ends u ∧ moved u ⟨.idle, none, none, false⟩ ∧ u = { s1 with tc := { s1.tc with keys := u.tc.keys } }) ∧
    (is .auto .held → ∃ u, ends u ∧ moved u ⟨.latched, some .auto, (s.key p k).talk, false⟩ ∧
      u = { s1 with tc := { s1.tc with keys := u.tc.keys } }) ∧
    ((s.key p k).state ≠ .idle → ¬drops → ¬clears → ¬is .auto .held → ends s1) ∧
    ((s.key p k).state = .idle →
      let emptied (u : State) : Prop := u.held? p k = none ∧ ∀ q j, ¬(q = p ∧ j = k) → u.held? q j = s.held? q j
      (s.held? p k = none → ends s1) ∧
      (∀ c, s.held? p k = some (.call c) → ∃ u, ends u ∧ emptied u ∧ SameOutputs s u ∧
        (∀ h, h ∈ u.tou.holders ↔ h ∈ s.tou.holders ∧ ¬(h.panel = p ∧ h.key = k)) ∧
        (u.tou.holders ≠ s.tou.holders → ∀ n, 1 ≤ n → n ≤ 48 → (u.output n).drive = u.driveOf n) ∧
        u = { s1 with
          tou := { s1.tou with holders := u.tou.holders, outputs := u.tou.outputs }
          fd := { s1.fd with held := u.fd.held } }) ∧
      ∀ code, s.held? p k = some (.systemKey code) → ∃ u, ends u ∧ emptied u ∧
        u = { s1 with
          hlc := s1.hlc.raised .systemKey
          fd := { s1.fd with
            held := u.fd.held
            systemKeys :=
              if s.fd.systemKeys.length < 16 then s.fd.systemKeys ++ [⟨p, k, code, true⟩] else s.fd.systemKeys } })

/-- R160 to R162, R177: SET_FUNCTION writes or empties a whole slot whose arguments, level and domain are in range, the target of
a TALK unchecked (log entry 17); SET_BINDING writes one binding after its six checks in order, its page one byte (the model's
choice, log entry 31); SET_LAMP writes one host lamp value. -/
def Obligations.FunctionsAndBindingsAreSet : Prop :=
  (∀ (tag l : Byte) (f : Nat) (a : FunctionAction) (dom : FunctionDomain) (s s1 : State) (r : Request), f < 65536 →
    (match a with
      | .routeTake d _ x => d < 65536 ∧ x < 65536
      | .selectDest d => d < 65536
      | .presetSource x => x < 65536
      | .salvoFire n => n < 256
      | .protectToggle (some d) => 1 ≤ d ∧ d < 65536
      | .talk t x _ k p => -128 ≤ k ∧ k ≤ 127 ∧ p < 256 ∧ (x ≠ none ↔ t = .onair) ∧
        (match t with | .port q => q < 256 | .group g => g < 256 | .ifb n => n < 256 | .camera c => c < 256 | .onair => True)
      | .call c => c < 256
      | .systemKey c => c < 256
      | _ => True) →
    r = ⟨0x90, tag, be16 f ++ actionBytes a ++ [l, functionDomainByte dom]⟩ → Settled s → InTurn r s s1 →
    let fits : Prop := (1 ≤ f ∧ f ≤ 511) ∧ l.toNat ≤ 3 ∧ match a with
      | .routeTake d _ x => (1 ≤ d ∧ d ≤ 256) ∧ x ≤ 256
      | .selectDest d => 1 ≤ d ∧ d ≤ 256
      | .presetSource x => x ≤ 256
      | .salvoFire n => 1 ≤ n ∧ n ≤ 16
      | .protectToggle (some d) => d ≤ 256
      | .talk _ _ _ k p => (-80 ≤ k ∧ k ≤ 12) ∧ p ≤ 7
      | .call c => 1 ≤ c ∧ c ≤ 24
      | _ => True
    (fits → ∃ u t, exec (.setFunction tag r.payload) s = .next t ∧ u.function? f = some ⟨a, l.toNat, dom⟩ ∧
      (∀ g, g ≠ f → u.function? g = s.function? g) ∧
      u = { s1 with hlc := s1.hlc.answered r .ok [], fd := { s1.fd with functions := u.fd.functions } } ∧
      LampsFollow u t) ∧
    (¬fits → exec (.setFunction tag r.payload) s = .next { s1 with hlc := s1.hlc.answered r .badArg [] })) ∧
  (∀ (tag : Byte) (f : Nat) (s s1 : State) (r : Request), f < 65536 → r = ⟨0x90, tag, be16 f⟩ → Settled s →
    InTurn r s s1 →
    (1 ≤ f ∧ f ≤ 511 → ∃ u t, exec (.setFunction tag r.payload) s = .next t ∧ u.function? f = none ∧
      (∀ g, g ≠ f → u.function? g = s.function? g) ∧
      u = { s1 with hlc := s1.hlc.answered r .ok [], fd := { s1.fd with functions := u.fd.functions } } ∧
      LampsFollow u t) ∧
    (¬(1 ≤ f ∧ f ≤ 511) → exec (.setFunction tag r.payload) s = .next { s1 with hlc := s1.hlc.answered r .badArg [] })) ∧
  (∀ (tag p g k : Byte) (f : Nat) (s s1 : State) (r : Request), f < 65536 → r = ⟨0x91, tag, [p, g, k] ++ be16 f⟩ →
    Settled s → InTurn r s s1 →
    let fits : Prop := (1 ≤ p.toNat ∧ p.toNat ≤ 32) ∧ g.toNat ≤ 1 ∧ (1 ≤ k.toNat ∧ k.toNat ≤ 64) ∧ f ≤ 511
    let refused (code : ReplyCode) : Prop :=
      exec (.setBinding tag r.payload) s = .next { s1 with hlc := s1.hlc.answered r code [] }
    let written : Prop := ∃ u t, exec (.setBinding tag r.payload) s = .next t ∧ u.binding p.toNat (g == 1) k.toNat = f ∧
      (∀ q b j, ¬(q = p.toNat ∧ b = (g == 1) ∧ j = k.toNat) → u.binding q b j = s.binding q b j) ∧
      u = { s1 with hlc := s1.hlc.answered r .ok [], fd := { s1.fd with bindings := u.fd.bindings } } ∧
      LampsFollow u t
    (¬fits → refused .badArg) ∧ (fits → f = 0 → written) ∧ (fits → f ≠ 0 → s.function? f = none → refused .badArg) ∧
    ∀ x, fits → f ≠ 0 → s.function? f = some x →
      (s.panel? p.toNat = none → refused .badState) ∧
      ∀ v, s.panel? p.toNat = some v →
        let allowed : Prop := v.access ≤ x.level ∧
          (x.domain = .any ∨ (x.domain = .a ∧ v.domain = .a) ∨ (x.domain = .b ∧ v.domain = .b))
        let valid : Prop := ∀ t y m l n, x.action = .talk t y m l n → s.targetValid t = true
        (¬allowed → refused .denied) ∧ (allowed → ¬valid → refused .badTarget) ∧ (allowed → valid → written)) ∧
  ∀ (tag p k : Byte) (x : Lamp) (s s1 : State) (r : Request), r = ⟨0x92, tag, [p, k, lampByte x]⟩ → Settled s →
    InTurn r s s1 →
    let fits : Prop := (1 ≤ p.toNat ∧ p.toNat ≤ 32) ∧ 1 ≤ k.toNat ∧ k.toNat ≤ 64
    (fits → ∃ u t, exec (.setLamp tag r.payload) s = .next t ∧ u.hostLamp p.toNat k.toNat = x ∧
      (∀ q j, ¬(q = p.toNat ∧ j = k.toNat) → u.hostLamp q j = s.hostLamp q j) ∧
      u = { s1 with hlc := s1.hlc.answered r .ok [], fd := { s1.fd with hostLamps := u.fd.hostLamps } } ∧
      LampsFollow u t) ∧
    (¬fits → exec (.setLamp tag r.payload) s = .next { s1 with hlc := s1.hlc.answered r .badArg [] })

/-- R20, R62, R100, R119, R158, R173, R179, R193: the requests that read.  Each is answered at once with OK and the data of its
form over the state that it finds, or with BAD_ARG for a number out of range, and changes nothing but the link; GET_SYSTEM_KEYS
alone empties what it reads.  The encoding of each field (R196, sections 11.1 to 11.3) and the bytes of the data, form by form
(R78): what they read into R119 and R196 where these leave a point open is the model's choice (log entries 9, 28 and 29). -/
def Obligations.QueriesAnswer : Prop :=
  let gives (c : Byte → List Byte → Instr) (kind : Byte) (payload : List Byte) (data : State → List Byte) : Prop :=
    ∀ (tag : Byte) (s s1 : State), Settled s → InTurn ⟨kind, tag, payload⟩ s s1 →
      exec (c tag payload) s = .next { s1 with hlc := s1.hlc.answered ⟨kind, tag, payload⟩ .ok (data s1) }
  let refuses (c : Byte → List Byte → Instr) (kind : Byte) (payload : List Byte) : Prop :=
    ∀ (tag : Byte) (s s1 : State), Settled s → InTurn ⟨kind, tag, payload⟩ s s1 →
      exec (c tag payload) s = .next { s1 with hlc := s1.hlc.answered ⟨kind, tag, payload⟩ .badArg [] }
  let reads (c : Byte → List Byte → Instr) (kind : Byte) (payload : List Byte) (fits : Prop) (data : State → List Byte) : Prop :=
    (fits → gives c kind payload data) ∧ (¬fits → refuses c kind payload)
  (∀ d, d < 65536 → reads .getRoute 0x17 (0 :: be16 d) (1 ≤ d ∧ d ≤ 256) fun s => destData s d) ∧
  (∀ n : Byte, reads .getRoute 0x17 [1, n] (1 ≤ n.toNat ∧ n.toNat ≤ 8) fun s => deviceData s n.toNat) ∧
  (∀ x, x < 65536 → reads .getTally 0x36 (0 :: be16 x) (1 ≤ x ∧ x ≤ 256) fun s => sourcesData s x) ∧
  (∀ n : Byte, reads .getTally 0x36 [1, n] (1 ≤ n.toNat ∧ n.toNat ≤ 16) fun s => rootData s n.toNat) ∧
  (∀ n : Byte, reads .getTally 0x36 [2, n] (1 ≤ n.toNat ∧ n.toNat ≤ 2) fun s => mixerData s n.toNat) ∧
  (∀ n : Byte, reads .getTally 0x36 [3, n] (1 ≤ n.toNat ∧ n.toNat ≤ 2) fun s => mapData s n.toNat) ∧
  gives .getTally 0x36 [4] tiesData ∧
  (∀ n : Byte, reads .getPaths 0x54 [0, n] (1 ≤ n.toNat ∧ n.toNat ≤ 96) fun s => talksData s n.toNat) ∧
  gives .getPaths 0x54 [1] slotsData ∧
  (∀ n : Byte, reads .getPaths 0x54 [2, n] (1 ≤ n.toNat ∧ n.toNat ≤ 64) fun s => portBytes (s.port n.toNat)) ∧
  (∀ n : Byte, reads .getPaths 0x54 [3, n] (1 ≤ n.toNat ∧ n.toNat ≤ 16) fun s =>
    counted ((s.group n.toNat).map fun q => [byte q])) ∧
  (∀ n : Byte, reads .getPaths 0x54 [4, n] (1 ≤ n.toNat ∧ n.toNat ≤ 32) fun s => keysData s n.toNat) ∧
  (∀ n k : Byte, reads .getPaths 0x54 [5, n, k] ((1 ≤ n.toNat ∧ n.toNat ≤ 64) ∧ 1 ≤ k.toNat ∧ k.toNat ≤ 64) fun s =>
    listenerData s n.toNat k.toNat) ∧
  (∀ k, k < 65536 → reads .getPaths 0x54 (6 :: be16 k) (1 ≤ k ∧ k ≤ 512) fun s => starvedData s k) ∧
  gives .getPaths 0x54 [7] countsData ∧
  (∀ n : Byte, reads .getIfb 0x61 [n] (1 ≤ n.toNat ∧ n.toNat ≤ 16) fun s => ifbData s n.toNat) ∧
  (∀ n : Byte, reads .getPanel 0x83 [0, n] (1 ≤ n.toNat ∧ n.toNat ≤ 32) fun s => panelData s n.toNat) ∧
  (∀ f, f < 65536 → reads .getPanel 0x83 (1 :: be16 f) (1 ≤ f ∧ f ≤ 511) fun s => functionData s f) ∧
  (∀ n g : Byte, reads .getPanel 0x83 [2, n, g] ((1 ≤ n.toNat ∧ n.toNat ≤ 32) ∧ g.toNat ≤ 1) fun s =>
    bindingsData s n.toNat (g == 1)) ∧
  (∀ n : Byte, reads .getPanel 0x83 [3, n] (1 ≤ n.toNat ∧ n.toNat ≤ 32) fun s => contextData s n.toNat) ∧
  (∀ n : Byte, reads .getPanel 0x83 [4, n] (1 ≤ n.toNat ∧ n.toNat ≤ 32) fun s => lampsData s n.toNat) ∧
  gives .getCounts 0x84 [] countData ∧ gives .getStatus 0xA3 [] statusData ∧
  ReplyFields ∧ (∀ s : State, ReplyData s) ∧
  ∀ (tag : Byte) (s s1 : State), Settled s → InTurn ⟨0x93, tag, []⟩ s s1 →
    exec (.getSystemKeys tag []) s = .next { s1 with
      hlc := s1.hlc.answered ⟨0x93, tag, []⟩ .ok (byte s.fd.systemKeys.length ::
        s.fd.systemKeys.flatMap fun e => [byte e.panel, byte e.key, byte e.code, yesNo e.release])
      fd := { s1.fd with systemKeys := [] } }

/-! ### What every step keeps -/

/-- R183 to R188: every step keeps the order and the bounds of the host link: nothing waits on an idle link, each executed
request has its reply waiting, at most 8 requests and 7 overflow replies wait, at most 64 deferred replies are owed, those that
wait among them, a set flag is enabled and has a message to carry it.  So every state that a run reaches is settled, and at most
80 messages wait, the reply to a RESTART(ALL) apart (R191). -/
def Obligations.LinkStaysOrdered : Prop :=
  (∀ s : State, LinkOrdered s → Settled s ∧ count (fun m => m.cls == .deferred) s.hlc.outbound ≤ 64 ∧
    count (fun m => m.cls != .restartReply) s.hlc.outbound ≤ 80) ∧
  ∀ s t : State, LinkOrdered s → step s = .next t → LinkOrdered t

/-- R23, R24, R26, R36, R51, R70, R79, R140, R145, R153, R154, R172: every step keeps the bounds of the take queue, the salvos
and the window, with no two pending entries sharing a destination and a level, and those of the other tables and counters. -/
def Obligations.TablesStayBounded : Prop :=
  (∀ s t : State, QueueBounded s → step s = .next t → QueueBounded t) ∧
  ∀ s t : State, TablesBounded s → step s = .next t → TablesBounded t

/-- R1, R11 to R17, R57, R58: every step keeps a level fitted exactly where one mapped device covers it, and keeps the colour
set of every source the union of the colours of the enabled roots whose trace ends there. -/
def Obligations.ColoursStayTraced : Prop :=
  (∀ s t : State, LevelsFitted s → step s = .next t → LevelsFitted t) ∧
  ∀ s t : State, LevelsFitted s → ColoursAgree s → step s = .next t → ColoursAgree t

/-- R68, R69, R174 to R176: every step keeps the drive of every tally output, and the desired value of every lamp of every
declared panel, what R68 and R174 give over the state as it stands; and what they give, row by row and case by case. -/
def Obligations.DrivesAndLampsStayDerived : Prop :=
  (∀ s t : State, DrivesAgree s → step s = .next t → DrivesAgree t) ∧
  (∀ s t : State, LampsAgree s → step s = .next t → LampsAgree t) ∧
  (∀ (s : State) (n : Nat), DriveRule s n) ∧ ∀ (s : State) (p k : Nat) (v : Panel), LampRule s p k v

/-- R84, R85, R97, R98, R101 to R107, R112: every step keeps at most 96 talks with distinct ids, in order of creation, and at
most 512 reservations, and at most 12 admitted paths into one listener and 256 in all, none from a port to itself.  It keeps the
listeners of every talk those that R97 gives, a TALK path exactly where some talk joins its ports, an admitted PROGRAM path
exactly for each configured IFB, a path starved only where a cap binds, and PATH_STARVED true exactly while one is.  R97: what the
listeners of a talk are, target by target. -/
def Obligations.TalksAndPathsStayBounded : Prop :=
  (∀ s t : State, TalkSetBounded s → step s = .next t → TalkSetBounded t) ∧
  (∀ s t : State, PathsBounded s → step s = .next t → PathsBounded t) ∧
  (∀ s t : State, TalkSetBounded s → PathsBounded s → MixAgrees s → step s = .next t → MixAgrees t) ∧
  ∀ (s : State) (t : Talk), ListenersRule s t

/-- R95, R113 to R116, R138: every step keeps the arbitration of the IFBs in order over a talk set of distinct ids, each pending
list by priority, talker port and creation and each talk of priority 1..7 to an IFB its interrupter or pending, and keeps every
talk of panel origin the talk of a panel that is ONLINE or DEGRADED. -/
def Obligations.ArbitrationStaysInOrder : Prop :=
  (∀ s t : State, TalkSetBounded s → IfbArbitrated s → step s = .next t → IfbArbitrated t) ∧
  ∀ s t : State, TalkSetBounded s → PanelTalksServed s → step s = .next t → PanelTalksServed t

/-- The state after reset has every one of these invariants. -/
def Obligations.ResetIsInOrder : Prop :=
  LinkOrdered State.reset ∧ QueueBounded State.reset ∧ TablesBounded State.reset ∧ LevelsFitted State.reset ∧
  ColoursAgree State.reset ∧ DrivesAgree State.reset ∧ LampsAgree State.reset ∧ TalkSetBounded State.reset ∧
  PathsBounded State.reset ∧ MixAgrees State.reset ∧ IfbArbitrated State.reset ∧ PanelTalksServed State.reset
end

