-- ==== Sys2Proof/Laws/State.lean ====
section
/-! SUPPORT. One lemma for each field that a named write of Machine/Ops.lean leaves alone: what stands in a block after the
write of another, and in the other fields of the same block. -/

namespace Sys2Proof.Machine

/-! `State.setDest` writes `rc.dests`. -/

@[simp] theorem State.setDest_hlc (s : State) (d : Nat) (v : Destination) : (s.setDest d v).hlc = s.hlc := rfl
@[simp] theorem State.setDest_stu (s : State) (d : Nat) (v : Destination) : (s.setDest d v).stu = s.stu := rfl
@[simp] theorem State.setDest_tt (s : State) (d : Nat) (v : Destination) : (s.setDest d v).tt = s.tt := rfl
@[simp] theorem State.setDest_tou (s : State) (d : Nat) (v : Destination) : (s.setDest d v).tou = s.tou := rfl
@[simp] theorem State.setDest_tc (s : State) (d : Nat) (v : Destination) : (s.setDest d v).tc = s.tc := rfl
@[simp] theorem State.setDest_tme (s : State) (d : Nat) (v : Destination) : (s.setDest d v).tme = s.tme := rfl
@[simp] theorem State.setDest_pbc (s : State) (d : Nat) (v : Destination) : (s.setDest d v).pbc = s.pbc := rfl
@[simp] theorem State.setDest_fd (s : State) (d : Nat) (v : Destination) : (s.setDest d v).fd = s.fd := rfl
@[simp] theorem State.setDest_pending (s : State) (d : Nat) (v : Destination) : (s.setDest d v).pending = s.pending := rfl
@[simp] theorem State.setDest_devices (s : State) (d : Nat) (v : Destination) : (s.setDest d v).rc.devices = s.rc.devices := rfl
@[simp] theorem State.setDest_queue (s : State) (d : Nat) (v : Destination) : (s.setDest d v).rc.queue = s.rc.queue := rfl
@[simp] theorem State.setDest_window (s : State) (d : Nat) (v : Destination) : (s.setDest d v).rc.window = s.rc.window := rfl
@[simp] theorem State.setDest_salvos (s : State) (d : Nat) (v : Destination) : (s.setDest d v).rc.salvos = s.rc.salvos := rfl
@[simp] theorem State.setDest_fabricFault (s : State) (d : Nat) (v : Destination) : (s.setDest d v).rc.fabricFault = s.rc.fabricFault := rfl
@[simp] theorem State.setDest_windows (s : State) (d : Nat) (v : Destination) : (s.setDest d v).rc.windows = s.rc.windows := rfl

/-! `State.setLevel` writes `rc.dests`. -/

@[simp] theorem State.setLevel_hlc (s : State) (d : Nat) (l : Level) (v : LevelState) : (s.setLevel d l v).hlc = s.hlc := rfl
@[simp] theorem State.setLevel_stu (s : State) (d : Nat) (l : Level) (v : LevelState) : (s.setLevel d l v).stu = s.stu := rfl
@[simp] theorem State.setLevel_tt (s : State) (d : Nat) (l : Level) (v : LevelState) : (s.setLevel d l v).tt = s.tt := rfl
@[simp] theorem State.setLevel_tou (s : State) (d : Nat) (l : Level) (v : LevelState) : (s.setLevel d l v).tou = s.tou := rfl
@[simp] theorem State.setLevel_tc (s : State) (d : Nat) (l : Level) (v : LevelState) : (s.setLevel d l v).tc = s.tc := rfl
@[simp] theorem State.setLevel_tme (s : State) (d : Nat) (l : Level) (v : LevelState) : (s.setLevel d l v).tme = s.tme := rfl
@[simp] theorem State.setLevel_pbc (s : State) (d : Nat) (l : Level) (v : LevelState) : (s.setLevel d l v).pbc = s.pbc := rfl
@[simp] theorem State.setLevel_fd (s : State) (d : Nat) (l : Level) (v : LevelState) : (s.setLevel d l v).fd = s.fd := rfl
@[simp] theorem State.setLevel_pending (s : State) (d : Nat) (l : Level) (v : LevelState) : (s.setLevel d l v).pending = s.pending := rfl
@[simp] theorem State.setLevel_devices (s : State) (d : Nat) (l : Level) (v : LevelState) : (s.setLevel d l v).rc.devices = s.rc.devices := rfl
@[simp] theorem State.setLevel_queue (s : State) (d : Nat) (l : Level) (v : LevelState) : (s.setLevel d l v).rc.queue = s.rc.queue := rfl
@[simp] theorem State.setLevel_window (s : State) (d : Nat) (l : Level) (v : LevelState) : (s.setLevel d l v).rc.window = s.rc.window := rfl
@[simp] theorem State.setLevel_salvos (s : State) (d : Nat) (l : Level) (v : LevelState) : (s.setLevel d l v).rc.salvos = s.rc.salvos := rfl
@[simp] theorem State.setLevel_fabricFault (s : State) (d : Nat) (l : Level) (v : LevelState) : (s.setLevel d l v).rc.fabricFault = s.rc.fabricFault := rfl
@[simp] theorem State.setLevel_windows (s : State) (d : Nat) (l : Level) (v : LevelState) : (s.setLevel d l v).rc.windows = s.rc.windows := rfl

/-! `State.setProtect` writes `rc.dests`. -/

@[simp] theorem State.setProtect_hlc (s : State) (d : Nat) (v : Protect) : (s.setProtect d v).hlc = s.hlc := rfl
@[simp] theorem State.setProtect_stu (s : State) (d : Nat) (v : Protect) : (s.setProtect d v).stu = s.stu := rfl
@[simp] theorem State.setProtect_tt (s : State) (d : Nat) (v : Protect) : (s.setProtect d v).tt = s.tt := rfl
@[simp] theorem State.setProtect_tou (s : State) (d : Nat) (v : Protect) : (s.setProtect d v).tou = s.tou := rfl
@[simp] theorem State.setProtect_tc (s : State) (d : Nat) (v : Protect) : (s.setProtect d v).tc = s.tc := rfl
@[simp] theorem State.setProtect_tme (s : State) (d : Nat) (v : Protect) : (s.setProtect d v).tme = s.tme := rfl
@[simp] theorem State.setProtect_pbc (s : State) (d : Nat) (v : Protect) : (s.setProtect d v).pbc = s.pbc := rfl
@[simp] theorem State.setProtect_fd (s : State) (d : Nat) (v : Protect) : (s.setProtect d v).fd = s.fd := rfl
@[simp] theorem State.setProtect_pending (s : State) (d : Nat) (v : Protect) : (s.setProtect d v).pending = s.pending := rfl
@[simp] theorem State.setProtect_devices (s : State) (d : Nat) (v : Protect) : (s.setProtect d v).rc.devices = s.rc.devices := rfl
@[simp] theorem State.setProtect_queue (s : State) (d : Nat) (v : Protect) : (s.setProtect d v).rc.queue = s.rc.queue := rfl
@[simp] theorem State.setProtect_window (s : State) (d : Nat) (v : Protect) : (s.setProtect d v).rc.window = s.rc.window := rfl
@[simp] theorem State.setProtect_salvos (s : State) (d : Nat) (v : Protect) : (s.setProtect d v).rc.salvos = s.rc.salvos := rfl
@[simp] theorem State.setProtect_fabricFault (s : State) (d : Nat) (v : Protect) : (s.setProtect d v).rc.fabricFault = s.rc.fabricFault := rfl
@[simp] theorem State.setProtect_windows (s : State) (d : Nat) (v : Protect) : (s.setProtect d v).rc.windows = s.rc.windows := rfl

/-! `State.setDevice` writes `rc.devices`. -/

@[simp] theorem State.setDevice_hlc (s : State) (n : Nat) (v : Device) : (s.setDevice n v).hlc = s.hlc := rfl
@[simp] theorem State.setDevice_stu (s : State) (n : Nat) (v : Device) : (s.setDevice n v).stu = s.stu := rfl
@[simp] theorem State.setDevice_tt (s : State) (n : Nat) (v : Device) : (s.setDevice n v).tt = s.tt := rfl
@[simp] theorem State.setDevice_tou (s : State) (n : Nat) (v : Device) : (s.setDevice n v).tou = s.tou := rfl
@[simp] theorem State.setDevice_tc (s : State) (n : Nat) (v : Device) : (s.setDevice n v).tc = s.tc := rfl
@[simp] theorem State.setDevice_tme (s : State) (n : Nat) (v : Device) : (s.setDevice n v).tme = s.tme := rfl
@[simp] theorem State.setDevice_pbc (s : State) (n : Nat) (v : Device) : (s.setDevice n v).pbc = s.pbc := rfl
@[simp] theorem State.setDevice_fd (s : State) (n : Nat) (v : Device) : (s.setDevice n v).fd = s.fd := rfl
@[simp] theorem State.setDevice_pending (s : State) (n : Nat) (v : Device) : (s.setDevice n v).pending = s.pending := rfl
@[simp] theorem State.setDevice_dests (s : State) (n : Nat) (v : Device) : (s.setDevice n v).rc.dests = s.rc.dests := rfl
@[simp] theorem State.setDevice_queue (s : State) (n : Nat) (v : Device) : (s.setDevice n v).rc.queue = s.rc.queue := rfl
@[simp] theorem State.setDevice_window (s : State) (n : Nat) (v : Device) : (s.setDevice n v).rc.window = s.rc.window := rfl
@[simp] theorem State.setDevice_salvos (s : State) (n : Nat) (v : Device) : (s.setDevice n v).rc.salvos = s.rc.salvos := rfl
@[simp] theorem State.setDevice_fabricFault (s : State) (n : Nat) (v : Device) : (s.setDevice n v).rc.fabricFault = s.rc.fabricFault := rfl
@[simp] theorem State.setDevice_windows (s : State) (n : Nat) (v : Device) : (s.setDevice n v).rc.windows = s.rc.windows := rfl

/-! `State.setMixer` writes `tt.mixers`. -/

@[simp] theorem State.setMixer_hlc (s : State) (m : Nat) (v : Mixer) : (s.setMixer m v).hlc = s.hlc := rfl
@[simp] theorem State.setMixer_rc (s : State) (m : Nat) (v : Mixer) : (s.setMixer m v).rc = s.rc := rfl
@[simp] theorem State.setMixer_stu (s : State) (m : Nat) (v : Mixer) : (s.setMixer m v).stu = s.stu := rfl
@[simp] theorem State.setMixer_tou (s : State) (m : Nat) (v : Mixer) : (s.setMixer m v).tou = s.tou := rfl
@[simp] theorem State.setMixer_tc (s : State) (m : Nat) (v : Mixer) : (s.setMixer m v).tc = s.tc := rfl
@[simp] theorem State.setMixer_tme (s : State) (m : Nat) (v : Mixer) : (s.setMixer m v).tme = s.tme := rfl
@[simp] theorem State.setMixer_pbc (s : State) (m : Nat) (v : Mixer) : (s.setMixer m v).pbc = s.pbc := rfl
@[simp] theorem State.setMixer_fd (s : State) (m : Nat) (v : Mixer) : (s.setMixer m v).fd = s.fd := rfl
@[simp] theorem State.setMixer_pending (s : State) (m : Nat) (v : Mixer) : (s.setMixer m v).pending = s.pending := rfl
@[simp] theorem State.setMixer_roots (s : State) (m : Nat) (v : Mixer) : (s.setMixer m v).tt.roots = s.tt.roots := rfl
@[simp] theorem State.setMixer_inputMap1 (s : State) (m : Nat) (v : Mixer) : (s.setMixer m v).tt.inputMap1 = s.tt.inputMap1 := rfl
@[simp] theorem State.setMixer_inputMap2 (s : State) (m : Nat) (v : Mixer) : (s.setMixer m v).tt.inputMap2 = s.tt.inputMap2 := rfl
@[simp] theorem State.setMixer_ties (s : State) (m : Nat) (v : Mixer) : (s.setMixer m v).tt.ties = s.tt.ties := rfl
@[simp] theorem State.setMixer_coloursA (s : State) (m : Nat) (v : Mixer) : (s.setMixer m v).tt.coloursA = s.tt.coloursA := rfl
@[simp] theorem State.setMixer_coloursB (s : State) (m : Nat) (v : Mixer) : (s.setMixer m v).tt.coloursB = s.tt.coloursB := rfl

/-! `State.setOutput` writes `tou.outputs`. -/

@[simp] theorem State.setOutput_hlc (s : State) (n : Nat) (v : Output) : (s.setOutput n v).hlc = s.hlc := rfl
@[simp] theorem State.setOutput_rc (s : State) (n : Nat) (v : Output) : (s.setOutput n v).rc = s.rc := rfl
@[simp] theorem State.setOutput_stu (s : State) (n : Nat) (v : Output) : (s.setOutput n v).stu = s.stu := rfl
@[simp] theorem State.setOutput_tt (s : State) (n : Nat) (v : Output) : (s.setOutput n v).tt = s.tt := rfl
@[simp] theorem State.setOutput_tc (s : State) (n : Nat) (v : Output) : (s.setOutput n v).tc = s.tc := rfl
@[simp] theorem State.setOutput_tme (s : State) (n : Nat) (v : Output) : (s.setOutput n v).tme = s.tme := rfl
@[simp] theorem State.setOutput_pbc (s : State) (n : Nat) (v : Output) : (s.setOutput n v).pbc = s.pbc := rfl
@[simp] theorem State.setOutput_fd (s : State) (n : Nat) (v : Output) : (s.setOutput n v).fd = s.fd := rfl
@[simp] theorem State.setOutput_pending (s : State) (n : Nat) (v : Output) : (s.setOutput n v).pending = s.pending := rfl
@[simp] theorem State.setOutput_cameras (s : State) (n : Nat) (v : Output) : (s.setOutput n v).tou.cameras = s.tou.cameras := rfl
@[simp] theorem State.setOutput_holders (s : State) (n : Nat) (v : Output) : (s.setOutput n v).tou.holders = s.tou.holders := rfl
@[simp] theorem State.setOutput_flashLit (s : State) (n : Nat) (v : Output) : (s.setOutput n v).tou.flashLit = s.tou.flashLit := rfl
@[simp] theorem State.setOutput_lampFault (s : State) (n : Nat) (v : Output) : (s.setOutput n v).tou.lampFault = s.tou.lampFault := rfl

/-! `State.setPort` writes `tc.ports`. -/

@[simp] theorem State.setPort_hlc (s : State) (q : Nat) (v : Port) : (s.setPort q v).hlc = s.hlc := rfl
@[simp] theorem State.setPort_rc (s : State) (q : Nat) (v : Port) : (s.setPort q v).rc = s.rc := rfl
@[simp] theorem State.setPort_stu (s : State) (q : Nat) (v : Port) : (s.setPort q v).stu = s.stu := rfl
@[simp] theorem State.setPort_tt (s : State) (q : Nat) (v : Port) : (s.setPort q v).tt = s.tt := rfl
@[simp] theorem State.setPort_tou (s : State) (q : Nat) (v : Port) : (s.setPort q v).tou = s.tou := rfl
@[simp] theorem State.setPort_tme (s : State) (q : Nat) (v : Port) : (s.setPort q v).tme = s.tme := rfl
@[simp] theorem State.setPort_pbc (s : State) (q : Nat) (v : Port) : (s.setPort q v).pbc = s.pbc := rfl
@[simp] theorem State.setPort_fd (s : State) (q : Nat) (v : Port) : (s.setPort q v).fd = s.fd := rfl
@[simp] theorem State.setPort_pending (s : State) (q : Nat) (v : Port) : (s.setPort q v).pending = s.pending := rfl
@[simp] theorem State.setPort_groups (s : State) (q : Nat) (v : Port) : (s.setPort q v).tc.groups = s.tc.groups := rfl
@[simp] theorem State.setPort_talks (s : State) (q : Nat) (v : Port) : (s.setPort q v).tc.talks = s.tc.talks := rfl
@[simp] theorem State.setPort_counter (s : State) (q : Nat) (v : Port) : (s.setPort q v).tc.counter = s.tc.counter := rfl
@[simp] theorem State.setPort_keys (s : State) (q : Nat) (v : Port) : (s.setPort q v).tc.keys = s.tc.keys := rfl
@[simp] theorem State.setPort_ifbs (s : State) (q : Nat) (v : Port) : (s.setPort q v).tc.ifbs = s.tc.ifbs := rfl

/-! `State.setKey` writes `tc.keys`. -/

@[simp] theorem State.setKey_hlc (s : State) (p k : Nat) (v : KeyTalk) : (s.setKey p k v).hlc = s.hlc := rfl
@[simp] theorem State.setKey_rc (s : State) (p k : Nat) (v : KeyTalk) : (s.setKey p k v).rc = s.rc := rfl
@[simp] theorem State.setKey_stu (s : State) (p k : Nat) (v : KeyTalk) : (s.setKey p k v).stu = s.stu := rfl
@[simp] theorem State.setKey_tt (s : State) (p k : Nat) (v : KeyTalk) : (s.setKey p k v).tt = s.tt := rfl
@[simp] theorem State.setKey_tou (s : State) (p k : Nat) (v : KeyTalk) : (s.setKey p k v).tou = s.tou := rfl
@[simp] theorem State.setKey_tme (s : State) (p k : Nat) (v : KeyTalk) : (s.setKey p k v).tme = s.tme := rfl
@[simp] theorem State.setKey_pbc (s : State) (p k : Nat) (v : KeyTalk) : (s.setKey p k v).pbc = s.pbc := rfl
@[simp] theorem State.setKey_fd (s : State) (p k : Nat) (v : KeyTalk) : (s.setKey p k v).fd = s.fd := rfl
@[simp] theorem State.setKey_pending (s : State) (p k : Nat) (v : KeyTalk) : (s.setKey p k v).pending = s.pending := rfl
@[simp] theorem State.setKey_ports (s : State) (p k : Nat) (v : KeyTalk) : (s.setKey p k v).tc.ports = s.tc.ports := rfl
@[simp] theorem State.setKey_groups (s : State) (p k : Nat) (v : KeyTalk) : (s.setKey p k v).tc.groups = s.tc.groups := rfl
@[simp] theorem State.setKey_talks (s : State) (p k : Nat) (v : KeyTalk) : (s.setKey p k v).tc.talks = s.tc.talks := rfl
@[simp] theorem State.setKey_counter (s : State) (p k : Nat) (v : KeyTalk) : (s.setKey p k v).tc.counter = s.tc.counter := rfl
@[simp] theorem State.setKey_ifbs (s : State) (p k : Nat) (v : KeyTalk) : (s.setKey p k v).tc.ifbs = s.tc.ifbs := rfl

/-! `State.setPanel` writes `pbc.panels`. -/

@[simp] theorem State.setPanel_hlc (s : State) (p : Nat) (v : Panel) : (s.setPanel p v).hlc = s.hlc := rfl
@[simp] theorem State.setPanel_rc (s : State) (p : Nat) (v : Panel) : (s.setPanel p v).rc = s.rc := rfl
@[simp] theorem State.setPanel_stu (s : State) (p : Nat) (v : Panel) : (s.setPanel p v).stu = s.stu := rfl
@[simp] theorem State.setPanel_tt (s : State) (p : Nat) (v : Panel) : (s.setPanel p v).tt = s.tt := rfl
@[simp] theorem State.setPanel_tou (s : State) (p : Nat) (v : Panel) : (s.setPanel p v).tou = s.tou := rfl
@[simp] theorem State.setPanel_tc (s : State) (p : Nat) (v : Panel) : (s.setPanel p v).tc = s.tc := rfl
@[simp] theorem State.setPanel_tme (s : State) (p : Nat) (v : Panel) : (s.setPanel p v).tme = s.tme := rfl
@[simp] theorem State.setPanel_fd (s : State) (p : Nat) (v : Panel) : (s.setPanel p v).fd = s.fd := rfl
@[simp] theorem State.setPanel_pending (s : State) (p : Nat) (v : Panel) : (s.setPanel p v).pending = s.pending := rfl
@[simp] theorem State.setPanel_events (s : State) (p : Nat) (v : Panel) : (s.setPanel p v).pbc.events = s.pbc.events := rfl
@[simp] theorem State.setPanel_mode (s : State) (p : Nat) (v : Panel) : (s.setPanel p v).pbc.mode = s.pbc.mode := rfl
@[simp] theorem State.setPanel_threshold (s : State) (p : Nat) (v : Panel) : (s.setPanel p v).pbc.threshold = s.pbc.threshold := rfl
@[simp] theorem State.setPanel_odd (s : State) (p : Nat) (v : Panel) : (s.setPanel p v).pbc.odd = s.pbc.odd := rfl
@[simp] theorem State.setPanel_pointer (s : State) (p : Nat) (v : Panel) : (s.setPanel p v).pbc.pointer = s.pbc.pointer := rfl
@[simp] theorem State.setPanel_lastPolled (s : State) (p : Nat) (v : Panel) : (s.setPanel p v).pbc.lastPolled = s.pbc.lastPolled := rfl
@[simp] theorem State.setPanel_transaction (s : State) (p : Nat) (v : Panel) : (s.setPanel p v).pbc.transaction = s.pbc.transaction := rfl
@[simp] theorem State.setPanel_newCycle (s : State) (p : Nat) (v : Panel) : (s.setPanel p v).pbc.newCycle = s.pbc.newCycle := rfl
@[simp] theorem State.setPanel_panelErrors (s : State) (p : Nat) (v : Panel) : (s.setPanel p v).pbc.panelErrors = s.pbc.panelErrors := rfl

/-! `State.setContext` writes `fd.contexts`. -/

@[simp] theorem State.setContext_hlc (s : State) (p : Nat) (v : Context) : (s.setContext p v).hlc = s.hlc := rfl
@[simp] theorem State.setContext_rc (s : State) (p : Nat) (v : Context) : (s.setContext p v).rc = s.rc := rfl
@[simp] theorem State.setContext_stu (s : State) (p : Nat) (v : Context) : (s.setContext p v).stu = s.stu := rfl
@[simp] theorem State.setContext_tt (s : State) (p : Nat) (v : Context) : (s.setContext p v).tt = s.tt := rfl
@[simp] theorem State.setContext_tou (s : State) (p : Nat) (v : Context) : (s.setContext p v).tou = s.tou := rfl
@[simp] theorem State.setContext_tc (s : State) (p : Nat) (v : Context) : (s.setContext p v).tc = s.tc := rfl
@[simp] theorem State.setContext_tme (s : State) (p : Nat) (v : Context) : (s.setContext p v).tme = s.tme := rfl
@[simp] theorem State.setContext_pbc (s : State) (p : Nat) (v : Context) : (s.setContext p v).pbc = s.pbc := rfl
@[simp] theorem State.setContext_pending (s : State) (p : Nat) (v : Context) : (s.setContext p v).pending = s.pending := rfl
@[simp] theorem State.setContext_functions (s : State) (p : Nat) (v : Context) : (s.setContext p v).fd.functions = s.fd.functions := rfl
@[simp] theorem State.setContext_bindings (s : State) (p : Nat) (v : Context) : (s.setContext p v).fd.bindings = s.fd.bindings := rfl
@[simp] theorem State.setContext_held (s : State) (p : Nat) (v : Context) : (s.setContext p v).fd.held = s.fd.held := rfl
@[simp] theorem State.setContext_firings (s : State) (p : Nat) (v : Context) : (s.setContext p v).fd.firings = s.fd.firings := rfl
@[simp] theorem State.setContext_systemKeys (s : State) (p : Nat) (v : Context) : (s.setContext p v).fd.systemKeys = s.fd.systemKeys := rfl
@[simp] theorem State.setContext_hostLamps (s : State) (p : Nat) (v : Context) : (s.setContext p v).fd.hostLamps = s.fd.hostLamps := rfl

/-! `State.setHeld` writes `fd.held`. -/

@[simp] theorem State.setHeld_hlc (s : State) (p k : Nat) (v : Option Held) : (s.setHeld p k v).hlc = s.hlc := rfl
@[simp] theorem State.setHeld_rc (s : State) (p k : Nat) (v : Option Held) : (s.setHeld p k v).rc = s.rc := rfl
@[simp] theorem State.setHeld_stu (s : State) (p k : Nat) (v : Option Held) : (s.setHeld p k v).stu = s.stu := rfl
@[simp] theorem State.setHeld_tt (s : State) (p k : Nat) (v : Option Held) : (s.setHeld p k v).tt = s.tt := rfl
@[simp] theorem State.setHeld_tou (s : State) (p k : Nat) (v : Option Held) : (s.setHeld p k v).tou = s.tou := rfl
@[simp] theorem State.setHeld_tc (s : State) (p k : Nat) (v : Option Held) : (s.setHeld p k v).tc = s.tc := rfl
@[simp] theorem State.setHeld_tme (s : State) (p k : Nat) (v : Option Held) : (s.setHeld p k v).tme = s.tme := rfl
@[simp] theorem State.setHeld_pbc (s : State) (p k : Nat) (v : Option Held) : (s.setHeld p k v).pbc = s.pbc := rfl
@[simp] theorem State.setHeld_pending (s : State) (p k : Nat) (v : Option Held) : (s.setHeld p k v).pending = s.pending := rfl
@[simp] theorem State.setHeld_functions (s : State) (p k : Nat) (v : Option Held) : (s.setHeld p k v).fd.functions = s.fd.functions := rfl
@[simp] theorem State.setHeld_bindings (s : State) (p k : Nat) (v : Option Held) : (s.setHeld p k v).fd.bindings = s.fd.bindings := rfl
@[simp] theorem State.setHeld_contexts (s : State) (p k : Nat) (v : Option Held) : (s.setHeld p k v).fd.contexts = s.fd.contexts := rfl
@[simp] theorem State.setHeld_firings (s : State) (p k : Nat) (v : Option Held) : (s.setHeld p k v).fd.firings = s.fd.firings := rfl
@[simp] theorem State.setHeld_systemKeys (s : State) (p k : Nat) (v : Option Held) : (s.setHeld p k v).fd.systemKeys = s.fd.systemKeys := rfl
@[simp] theorem State.setHeld_hostLamps (s : State) (p k : Nat) (v : Option Held) : (s.setHeld p k v).fd.hostLamps = s.fd.hostLamps := rfl

/-! `State.setPendingFirings` writes `fd.firings`. -/

@[simp] theorem State.setPendingFirings_hlc (s : State) (p n v : Nat) : (s.setPendingFirings p n v).hlc = s.hlc := rfl
@[simp] theorem State.setPendingFirings_rc (s : State) (p n v : Nat) : (s.setPendingFirings p n v).rc = s.rc := rfl
@[simp] theorem State.setPendingFirings_stu (s : State) (p n v : Nat) : (s.setPendingFirings p n v).stu = s.stu := rfl
@[simp] theorem State.setPendingFirings_tt (s : State) (p n v : Nat) : (s.setPendingFirings p n v).tt = s.tt := rfl
@[simp] theorem State.setPendingFirings_tou (s : State) (p n v : Nat) : (s.setPendingFirings p n v).tou = s.tou := rfl
@[simp] theorem State.setPendingFirings_tc (s : State) (p n v : Nat) : (s.setPendingFirings p n v).tc = s.tc := rfl
@[simp] theorem State.setPendingFirings_tme (s : State) (p n v : Nat) : (s.setPendingFirings p n v).tme = s.tme := rfl
@[simp] theorem State.setPendingFirings_pbc (s : State) (p n v : Nat) : (s.setPendingFirings p n v).pbc = s.pbc := rfl
@[simp] theorem State.setPendingFirings_pending (s : State) (p n v : Nat) : (s.setPendingFirings p n v).pending = s.pending := rfl
@[simp] theorem State.setPendingFirings_functions (s : State) (p n v : Nat) : (s.setPendingFirings p n v).fd.functions = s.fd.functions := rfl
@[simp] theorem State.setPendingFirings_bindings (s : State) (p n v : Nat) : (s.setPendingFirings p n v).fd.bindings = s.fd.bindings := rfl
@[simp] theorem State.setPendingFirings_contexts (s : State) (p n v : Nat) : (s.setPendingFirings p n v).fd.contexts = s.fd.contexts := rfl
@[simp] theorem State.setPendingFirings_held (s : State) (p n v : Nat) : (s.setPendingFirings p n v).fd.held = s.fd.held := rfl
@[simp] theorem State.setPendingFirings_systemKeys (s : State) (p n v : Nat) : (s.setPendingFirings p n v).fd.systemKeys = s.fd.systemKeys := rfl
@[simp] theorem State.setPendingFirings_hostLamps (s : State) (p n v : Nat) : (s.setPendingFirings p n v).fd.hostLamps = s.fd.hostLamps := rfl

/-! `State.setHostLamp` writes `fd.hostLamps`. -/

@[simp] theorem State.setHostLamp_hlc (s : State) (p k : Nat) (v : Lamp) : (s.setHostLamp p k v).hlc = s.hlc := rfl
@[simp] theorem State.setHostLamp_rc (s : State) (p k : Nat) (v : Lamp) : (s.setHostLamp p k v).rc = s.rc := rfl
@[simp] theorem State.setHostLamp_stu (s : State) (p k : Nat) (v : Lamp) : (s.setHostLamp p k v).stu = s.stu := rfl
@[simp] theorem State.setHostLamp_tt (s : State) (p k : Nat) (v : Lamp) : (s.setHostLamp p k v).tt = s.tt := rfl
@[simp] theorem State.setHostLamp_tou (s : State) (p k : Nat) (v : Lamp) : (s.setHostLamp p k v).tou = s.tou := rfl
@[simp] theorem State.setHostLamp_tc (s : State) (p k : Nat) (v : Lamp) : (s.setHostLamp p k v).tc = s.tc := rfl
@[simp] theorem State.setHostLamp_tme (s : State) (p k : Nat) (v : Lamp) : (s.setHostLamp p k v).tme = s.tme := rfl
@[simp] theorem State.setHostLamp_pbc (s : State) (p k : Nat) (v : Lamp) : (s.setHostLamp p k v).pbc = s.pbc := rfl
@[simp] theorem State.setHostLamp_pending (s : State) (p k : Nat) (v : Lamp) : (s.setHostLamp p k v).pending = s.pending := rfl
@[simp] theorem State.setHostLamp_functions (s : State) (p k : Nat) (v : Lamp) : (s.setHostLamp p k v).fd.functions = s.fd.functions := rfl
@[simp] theorem State.setHostLamp_bindings (s : State) (p k : Nat) (v : Lamp) : (s.setHostLamp p k v).fd.bindings = s.fd.bindings := rfl
@[simp] theorem State.setHostLamp_contexts (s : State) (p k : Nat) (v : Lamp) : (s.setHostLamp p k v).fd.contexts = s.fd.contexts := rfl
@[simp] theorem State.setHostLamp_held (s : State) (p k : Nat) (v : Lamp) : (s.setHostLamp p k v).fd.held = s.fd.held := rfl
@[simp] theorem State.setHostLamp_firings (s : State) (p k : Nat) (v : Lamp) : (s.setHostLamp p k v).fd.firings = s.fd.firings := rfl
@[simp] theorem State.setHostLamp_systemKeys (s : State) (p k : Nat) (v : Lamp) : (s.setHostLamp p k v).fd.systemKeys = s.fd.systemKeys := rfl

end Sys2Proof.Machine
end

