-- ==== Sys2Proof/Laws/Table.lean ====
section
/-! SUPPORT. The laws of numbered tables: a number reads back what was written to it and every other number reads as
before, for every table; and every operation keeps the canonical form. -/

namespace Sys2Proof.Machine

/-! ### Reading back -/

theorem lookup_insertEntry_self {α : Type} (k : Nat) (v : α) (es : List (Nat × α)) :
    lookup (insertEntry k v es) k = some v := by
  induction es with
  | nil => simp [insertEntry, lookup]
  | cons e es ih =>
    by_cases h1 : k < e.1
    · simp [insertEntry, lookup, h1]
    · by_cases h2 : e.1 = k <;> simp [insertEntry, lookup, h1, h2, ih]

theorem lookup_insertEntry_ne {α : Type} {j k : Nat} (h : j ≠ k) (v : α) (es : List (Nat × α)) :
    lookup (insertEntry k v es) j = lookup es j := by
  induction es with
  | nil => simp [insertEntry, lookup, Ne.symm h]
  | cons e es ih =>
    by_cases h1 : k < e.1
    · simp [insertEntry, lookup, h1, Ne.symm h]
    · by_cases h2 : e.1 = k
      · subst h2; simp [insertEntry, lookup, Ne.symm h]
      · simp [insertEntry, lookup, h1, h2, ih]

theorem lookup_filter_ne {α : Type} (j k : Nat) (es : List (Nat × α)) :
    lookup (es.filter fun e => e.1 != k) j = if j = k then none else lookup es j := by
  induction es with
  | nil => simp [lookup]
  | cons e es ih =>
    by_cases h1 : e.1 = k
    · subst h1; by_cases h2 : j = e.1
      · subst h2; simp [ih]
      · simp [lookup, ih, h2, Ne.symm h2]
    · by_cases h2 : e.1 = j
      · subst h2; simp [lookup, h1]
      · simp [lookup, h1, h2, ih]

theorem lookup_map {α : Type} (f : Nat → α → α) (es : List (Nat × α)) (k : Nat) :
    lookup (es.map fun e => (e.1, f e.1 e.2)) k = (lookup es k).map (f k) := by
  induction es with
  | nil => rfl
  | cons e es ih =>
    by_cases h : e.1 = k
    · subst h; simp [lookup]
    · simp [lookup, h, ih]

@[simp] theorem Table.find?_empty {α : Type} (k : Nat) : (⟨[]⟩ : Table α).find? k = none := rfl

@[simp] theorem Table.get_empty {α : Type} (a : α) (k : Nat) : (⟨[]⟩ : Table α).get a k = a := rfl

@[simp] theorem Table.find?_put_self {α : Type} (t : Table α) (k : Nat) (v : α) : (t.put k v).find? k = some v :=
  lookup_insertEntry_self k v t.entries

theorem Table.find?_put_ne {α : Type} (t : Table α) {j k : Nat} (h : j ≠ k) (v : α) :
    (t.put k v).find? j = t.find? j := lookup_insertEntry_ne h v t.entries

@[simp] theorem Table.find?_erase_self {α : Type} (t : Table α) (k : Nat) : (t.erase k).find? k = none := by
  simp [Table.erase, Table.find?, lookup_filter_ne]

theorem Table.find?_erase_ne {α : Type} (t : Table α) {j k : Nat} (h : j ≠ k) : (t.erase k).find? j = t.find? j := by
  simp [Table.erase, Table.find?, lookup_filter_ne, h]

@[simp] theorem Table.get_set_self {α : Type} [DecidableEq α] (t : Table α) (a : α) (k : Nat) (v : α) :
    (t.set a k v).get a k = v := by
  unfold Table.set Table.get; split <;> simp_all

theorem Table.get_set_ne {α : Type} [DecidableEq α] (t : Table α) (a : α) {j k : Nat} (h : j ≠ k) (v : α) :
    (t.set a k v).get a j = t.get a j := by
  unfold Table.set Table.get; split
  · rw [Table.find?_erase_ne t h]
  · rw [Table.find?_put_ne t h]

@[simp] theorem Table.find?_mapValues {α : Type} (f : Nat → α → α) (t : Table α) (k : Nat) :
    (t.mapValues f).find? k = (t.find? k).map (f k) := lookup_map f t.entries k

theorem Table.get_mapValues {α : Type} (f : Nat → α → α) (t : Table α) (a : α) (k : Nat) (h : f k a = a) :
    (t.mapValues f).get a k = f k (t.get a k) := by
  unfold Table.get; rw [Table.find?_mapValues]; cases t.find? k <;> simp [h]

/-! ### The canonical form -/

theorem ascending_cons {α : Type} (e : Nat × α) (es : List (Nat × α)) :
    ascending (e :: es) = true ↔ (∀ f ∈ es, e.1 < f.1) ∧ ascending es = true := by
  induction es generalizing e with
  | nil => simp [ascending]
  | cons f es ih =>
    simp only [ascending, Bool.and_eq_true, decide_eq_true_eq, List.forall_mem_cons]
    constructor
    · rintro ⟨h1, h2⟩
      refine ⟨⟨h1, fun g hg => ?_⟩, h2⟩
      exact Nat.lt_trans h1 (((ih f).1 h2).1 g hg)
    · rintro ⟨⟨h1, _⟩, h2⟩; exact ⟨h1, h2⟩

theorem mem_insertEntry {α : Type} {k : Nat} {v : α} {es : List (Nat × α)} {e : Nat × α} (h : e ∈ insertEntry k v es) :
    e = (k, v) ∨ e ∈ es := by
  induction es with
  | nil => simp [insertEntry] at h; exact Or.inl h
  | cons f es ih =>
    unfold insertEntry at h
    split at h
    · rcases List.mem_cons.1 h with h | h
      · exact Or.inl h
      · exact Or.inr h
    · split at h
      · rcases List.mem_cons.1 h with h | h
        · exact Or.inl h
        · exact Or.inr (List.mem_cons_of_mem _ h)
      · rcases List.mem_cons.1 h with h | h
        · exact Or.inr (h ▸ List.mem_cons_self)
        · rcases ih h with h | h
          · exact Or.inl h
          · exact Or.inr (List.mem_cons_of_mem _ h)

theorem ascending_insertEntry {α : Type} (k : Nat) (v : α) (es : List (Nat × α)) (h : ascending es = true) :
    ascending (insertEntry k v es) = true := by
  induction es with
  | nil => rfl
  | cons e es ih =>
    obtain ⟨h1, h2⟩ := (ascending_cons e es).1 h
    unfold insertEntry
    split
    · rename_i hk
      refine (ascending_cons _ _).2 ⟨?_, h⟩
      intro f hf
      rcases List.mem_cons.1 hf with hf | hf
      · exact hf ▸ hk
      · exact Nat.lt_trans hk (h1 f hf)
    · split
      · rename_i hk
        exact (ascending_cons _ _).2 ⟨fun f hf => hk ▸ h1 f hf, h2⟩
      · rename_i hk1 hk2
        refine (ascending_cons _ _).2 ⟨?_, ih h2⟩
        intro f hf
        rcases mem_insertEntry hf with hf | hf
        · subst hf; simp only; omega
        · exact h1 f hf

theorem ascending_filter {α : Type} (f : Nat × α → Bool) (es : List (Nat × α)) (h : ascending es = true) :
    ascending (es.filter f) = true := by
  induction es with
  | nil => rfl
  | cons e es ih =>
    obtain ⟨h1, h2⟩ := (ascending_cons e es).1 h
    by_cases hf : f e = true
    · rw [List.filter_cons_of_pos hf]
      exact (ascending_cons _ _).2 ⟨fun g hg => h1 g (List.mem_filter.1 hg).1, ih h2⟩
    · rw [List.filter_cons_of_neg hf]; exact ih h2

theorem ascending_map {α : Type} (f : Nat × α → α) (es : List (Nat × α)) (h : ascending es = true) :
    ascending (es.map fun e => (e.1, f e)) = true := by
  induction es with
  | nil => rfl
  | cons e es ih =>
    obtain ⟨h1, h2⟩ := (ascending_cons e es).1 h
    refine (ascending_cons _ _).2 ⟨?_, ih h2⟩
    intro g hg
    obtain ⟨x, hx, rfl⟩ := List.mem_map.1 hg
    exact h1 x hx

theorem Table.ascending_put {α : Type} (t : Table α) (k : Nat) (v : α) (h : ascending t.entries = true) :
    ascending (t.put k v).entries = true := ascending_insertEntry k v t.entries h

theorem Table.ascending_erase {α : Type} (t : Table α) (k : Nat) (h : ascending t.entries = true) :
    ascending (t.erase k).entries = true := ascending_filter _ t.entries h

theorem Table.ascending_mapValues {α : Type} (f : Nat → α → α) (t : Table α) (h : ascending t.entries = true) :
    ascending (t.mapValues f).entries = true := ascending_map (fun e => f e.1 e.2) t.entries h

theorem Table.wf_set {α : Type} [DecidableEq α] (t : Table α) (a : α) (k : Nat) (v : α) (h : t.wf a = true) :
    (t.set a k v).wf a = true := by
  simp only [Table.wf, Bool.and_eq_true, List.all_eq_true, decide_eq_true_eq] at h ⊢
  unfold Table.set
  split
  · exact ⟨Table.ascending_erase t k h.1, fun e he => h.2 e (List.mem_filter.1 he).1⟩
  · rename_i hv
    refine ⟨Table.ascending_put t k v h.1, fun e he => ?_⟩
    rcases mem_insertEntry he with he | he
    · subst he; exact hv
    · exact h.2 e he

/-! ### The named reads after the named writes -/

@[simp] theorem State.dest_setDest_self (s : State) (d : Nat) (v : Destination) : (s.setDest d v).dest d = v :=
  Table.get_set_self s.rc.dests Destination.start d v

theorem State.dest_setDest_ne (s : State) {c d : Nat} (h : c ≠ d) (v : Destination) : (s.setDest d v).dest c = s.dest c :=
  Table.get_set_ne s.rc.dests Destination.start h v

@[simp] theorem State.device?_setDevice_self (s : State) (n : Nat) (v : Device) : (s.setDevice n v).device? n = some v :=
  Table.find?_put_self s.rc.devices n v

theorem State.device?_setDevice_ne (s : State) {m n : Nat} (h : m ≠ n) (v : Device) :
    (s.setDevice n v).device? m = s.device? m := Table.find?_put_ne s.rc.devices h v

@[simp] theorem State.output_setOutput_self (s : State) (n : Nat) (v : Output) : (s.setOutput n v).output n = v :=
  Table.get_set_self s.tou.outputs Output.start n v

theorem State.output_setOutput_ne (s : State) {m n : Nat} (h : m ≠ n) (v : Output) :
    (s.setOutput n v).output m = s.output m := Table.get_set_ne s.tou.outputs Output.start h v

@[simp] theorem State.port_setPort_self (s : State) (q : Nat) (v : Port) : (s.setPort q v).port q = v :=
  Table.get_set_self s.tc.ports Port.start q v

theorem State.port_setPort_ne (s : State) {q r : Nat} (h : q ≠ r) (v : Port) : (s.setPort r v).port q = s.port q :=
  Table.get_set_ne s.tc.ports Port.start h v

@[simp] theorem State.panel?_setPanel_self (s : State) (p : Nat) (v : Panel) : (s.setPanel p v).panel? p = some v :=
  Table.find?_put_self s.pbc.panels p v

theorem State.panel?_setPanel_ne (s : State) {p q : Nat} (h : p ≠ q) (v : Panel) :
    (s.setPanel q v).panel? p = s.panel? p := Table.find?_put_ne s.pbc.panels h v

@[simp] theorem State.context_setContext_self (s : State) (p : Nat) (v : Context) : (s.setContext p v).context p = v :=
  Table.get_set_self s.fd.contexts Context.start p v

theorem State.context_setContext_ne (s : State) {p q : Nat} (h : p ≠ q) (v : Context) :
    (s.setContext q v).context p = s.context p := Table.get_set_ne s.fd.contexts Context.start h v

@[simp] theorem State.mixer_setMixer_self (s : State) (m : Nat) (v : Mixer) : (s.setMixer m v).mixer m = v :=
  Table.get_set_self s.tt.mixers Mixer.start m v

theorem State.mixer_setMixer_ne (s : State) {m n : Nat} (h : m ≠ n) (v : Mixer) : (s.setMixer n v).mixer m = s.mixer m :=
  Table.get_set_ne s.tt.mixers Mixer.start h v

@[simp] theorem State.key_setKey_self (s : State) (p k : Nat) (v : KeyTalk) : (s.setKey p k v).key p k = v := by
  simp [State.key, State.setKey]

theorem State.key_setKey_ne (s : State) {p q k j : Nat} (h : ¬(p = q ∧ k = j)) (v : KeyTalk) :
    (s.setKey q j v).key p k = s.key p k := by
  by_cases hp : p = q
  · subst hp
    have hk : k ≠ j := fun e => h ⟨rfl, e⟩
    simp [State.key, State.setKey, Table.get_set_ne _ _ hk]
  · simp [State.key, State.setKey, Table.get_set_ne _ _ hp]

@[simp] theorem State.held?_setHeld_self (s : State) (p k : Nat) (v : Option Held) : (s.setHeld p k v).held? p k = v := by
  cases v <;> simp [State.held?, State.setHeld]

theorem State.held?_setHeld_ne (s : State) {p q k j : Nat} (h : ¬(p = q ∧ k = j)) (v : Option Held) :
    (s.setHeld q j v).held? p k = s.held? p k := by
  by_cases hp : p = q
  · subst hp
    have hk : k ≠ j := fun e => h ⟨rfl, e⟩
    cases v <;> simp [State.held?, State.setHeld, Table.find?_put_ne _ hk, Table.find?_erase_ne _ hk]
  · cases v <;> simp [State.held?, State.setHeld, Table.get_set_ne _ _ hp]

@[simp] theorem State.hostLamp_setHostLamp_self (s : State) (p k : Nat) (v : Lamp) :
    (s.setHostLamp p k v).hostLamp p k = v := by simp [State.hostLamp, State.setHostLamp]

theorem State.hostLamp_setHostLamp_ne (s : State) {p q k j : Nat} (h : ¬(p = q ∧ k = j)) (v : Lamp) :
    (s.setHostLamp q j v).hostLamp p k = s.hostLamp p k := by
  by_cases hp : p = q
  · subst hp
    have hk : k ≠ j := fun e => h ⟨rfl, e⟩
    simp [State.hostLamp, State.setHostLamp, Table.get_set_ne _ _ hk]
  · simp [State.hostLamp, State.setHostLamp, Table.get_set_ne _ _ hp]

@[simp] theorem State.pendingFirings_setPendingFirings_self (s : State) (p n v : Nat) :
    (s.setPendingFirings p n v).pendingFirings p n = v := by simp [State.pendingFirings, State.setPendingFirings]

theorem State.pendingFirings_setPendingFirings_ne (s : State) {p q n m : Nat} (h : ¬(p = q ∧ n = m)) (v : Nat) :
    (s.setPendingFirings q m v).pendingFirings p n = s.pendingFirings p n := by
  by_cases hp : p = q
  · subst hp
    have hn : n ≠ m := fun e => h ⟨rfl, e⟩
    simp [State.pendingFirings, State.setPendingFirings, Table.get_set_ne _ _ hn]
  · simp [State.pendingFirings, State.setPendingFirings, Table.get_set_ne _ _ hp]

end Sys2Proof.Machine
end

