-- ==== Sys2Proof/Laws/Flags.lean ====
section
/-! SUPPORT. What the operations over the flags, the outbound queue and the request queue leave alone: one lemma for each block of the state that an
operation does not touch. -/

namespace Sys2Proof.Machine

/-- A part of the state that every step of a fold keeps, the fold keeps. -/
theorem foldl_keeps {β γ : Type} (f : State → β → State) (g : State → γ) (h : ∀ s b, g (f s b) = g s) (l : List β)
    (s : State) : g (l.foldl f s) = g s := by
  induction l generalizing s with
  | nil => rfl
  | cons b bs ih => rw [List.foldl_cons, ih, h]

/-! `queueMessage` -/

@[simp] theorem queueMessage_rc (m : Message) (s : State) : (queueMessage m s).rc = s.rc := rfl
@[simp] theorem queueMessage_stu (m : Message) (s : State) : (queueMessage m s).stu = s.stu := rfl
@[simp] theorem queueMessage_tt (m : Message) (s : State) : (queueMessage m s).tt = s.tt := rfl
@[simp] theorem queueMessage_tou (m : Message) (s : State) : (queueMessage m s).tou = s.tou := rfl
@[simp] theorem queueMessage_tc (m : Message) (s : State) : (queueMessage m s).tc = s.tc := rfl
@[simp] theorem queueMessage_tme (m : Message) (s : State) : (queueMessage m s).tme = s.tme := rfl
@[simp] theorem queueMessage_pbc (m : Message) (s : State) : (queueMessage m s).pbc = s.pbc := rfl
@[simp] theorem queueMessage_fd (m : Message) (s : State) : (queueMessage m s).fd = s.fd := rfl
@[simp] theorem queueMessage_pending (m : Message) (s : State) : (queueMessage m s).pending = s.pending := rfl

/-! `setFlag` -/

@[simp] theorem setFlag_rc (f : Flag) (s : State) : (setFlag f s).rc = s.rc := by
  unfold setFlag; (repeat' split) <;> rfl
@[simp] theorem setFlag_stu (f : Flag) (s : State) : (setFlag f s).stu = s.stu := by
  unfold setFlag; (repeat' split) <;> rfl
@[simp] theorem setFlag_tt (f : Flag) (s : State) : (setFlag f s).tt = s.tt := by
  unfold setFlag; (repeat' split) <;> rfl
@[simp] theorem setFlag_tou (f : Flag) (s : State) : (setFlag f s).tou = s.tou := by
  unfold setFlag; (repeat' split) <;> rfl
@[simp] theorem setFlag_tc (f : Flag) (s : State) : (setFlag f s).tc = s.tc := by
  unfold setFlag; (repeat' split) <;> rfl
@[simp] theorem setFlag_tme (f : Flag) (s : State) : (setFlag f s).tme = s.tme := by
  unfold setFlag; (repeat' split) <;> rfl
@[simp] theorem setFlag_pbc (f : Flag) (s : State) : (setFlag f s).pbc = s.pbc := by
  unfold setFlag; (repeat' split) <;> rfl
@[simp] theorem setFlag_fd (f : Flag) (s : State) : (setFlag f s).fd = s.fd := by
  unfold setFlag; (repeat' split) <;> rfl
@[simp] theorem setFlag_pending (f : Flag) (s : State) : (setFlag f s).pending = s.pending := by
  unfold setFlag; (repeat' split) <;> rfl

/-! `raise` -/

@[simp] theorem raise_rc (f : Flag) (s : State) : (raise f s).rc = s.rc := by unfold raise; split <;> simp
@[simp] theorem raise_stu (f : Flag) (s : State) : (raise f s).stu = s.stu := by unfold raise; split <;> simp
@[simp] theorem raise_tt (f : Flag) (s : State) : (raise f s).tt = s.tt := by unfold raise; split <;> simp
@[simp] theorem raise_tou (f : Flag) (s : State) : (raise f s).tou = s.tou := by unfold raise; split <;> simp
@[simp] theorem raise_tc (f : Flag) (s : State) : (raise f s).tc = s.tc := by unfold raise; split <;> simp
@[simp] theorem raise_tme (f : Flag) (s : State) : (raise f s).tme = s.tme := by unfold raise; split <;> simp
@[simp] theorem raise_pbc (f : Flag) (s : State) : (raise f s).pbc = s.pbc := by unfold raise; split <;> simp
@[simp] theorem raise_fd (f : Flag) (s : State) : (raise f s).fd = s.fd := by unfold raise; split <;> simp
@[simp] theorem raise_pending (f : Flag) (s : State) : (raise f s).pending = s.pending := by
  unfold raise; split <;> simp

/-! `handOver` -/

@[simp] theorem handOver_rc (f : Flag) (x y : Bool) (s : State) : (handOver f x y s).rc = s.rc := by
  unfold handOver; (repeat' split) <;> simp
@[simp] theorem handOver_stu (f : Flag) (x y : Bool) (s : State) : (handOver f x y s).stu = s.stu := by
  unfold handOver; (repeat' split) <;> simp
@[simp] theorem handOver_tt (f : Flag) (x y : Bool) (s : State) : (handOver f x y s).tt = s.tt := by
  unfold handOver; (repeat' split) <;> simp
@[simp] theorem handOver_tou (f : Flag) (x y : Bool) (s : State) : (handOver f x y s).tou = s.tou := by
  unfold handOver; (repeat' split) <;> simp
@[simp] theorem handOver_tc (f : Flag) (x y : Bool) (s : State) : (handOver f x y s).tc = s.tc := by
  unfold handOver; (repeat' split) <;> simp
@[simp] theorem handOver_tme (f : Flag) (x y : Bool) (s : State) : (handOver f x y s).tme = s.tme := by
  unfold handOver; (repeat' split) <;> simp
@[simp] theorem handOver_pbc (f : Flag) (x y : Bool) (s : State) : (handOver f x y s).pbc = s.pbc := by
  unfold handOver; (repeat' split) <;> simp
@[simp] theorem handOver_fd (f : Flag) (x y : Bool) (s : State) : (handOver f x y s).fd = s.fd := by
  unfold handOver; (repeat' split) <;> simp
@[simp] theorem handOver_pending (f : Flag) (x y : Bool) (s : State) : (handOver f x y s).pending = s.pending := by
  unfold handOver; (repeat' split) <;> simp

/-! `keyRefusal` -/

@[simp] theorem keyRefusal_rc (p k : Nat) (why : Reason) (s : State) : (keyRefusal p k why s).rc = s.rc := by
  unfold keyRefusal; split <;> simp
@[simp] theorem keyRefusal_stu (p k : Nat) (why : Reason) (s : State) : (keyRefusal p k why s).stu = s.stu := by
  unfold keyRefusal; split <;> simp
@[simp] theorem keyRefusal_tt (p k : Nat) (why : Reason) (s : State) : (keyRefusal p k why s).tt = s.tt := by
  unfold keyRefusal; split <;> simp
@[simp] theorem keyRefusal_tou (p k : Nat) (why : Reason) (s : State) : (keyRefusal p k why s).tou = s.tou := by
  unfold keyRefusal; split <;> simp
@[simp] theorem keyRefusal_tc (p k : Nat) (why : Reason) (s : State) : (keyRefusal p k why s).tc = s.tc := by
  unfold keyRefusal; split <;> simp
@[simp] theorem keyRefusal_tme (p k : Nat) (why : Reason) (s : State) : (keyRefusal p k why s).tme = s.tme := by
  unfold keyRefusal; split <;> simp
@[simp] theorem keyRefusal_fd (p k : Nat) (why : Reason) (s : State) : (keyRefusal p k why s).fd = s.fd := by
  unfold keyRefusal; split <;> simp
@[simp] theorem keyRefusal_pending (p k : Nat) (why : Reason) (s : State) : (keyRefusal p k why s).pending = s.pending := by
  unfold keyRefusal; split <;> simp

/-! `answerData` -/

@[simp] theorem answerData_rc (r : Request) (c : ReplyCode) (x : List Byte) (s : State) : (answerData r c x s).rc = s.rc := rfl
@[simp] theorem answerData_stu (r : Request) (c : ReplyCode) (x : List Byte) (s : State) : (answerData r c x s).stu = s.stu := rfl
@[simp] theorem answerData_tt (r : Request) (c : ReplyCode) (x : List Byte) (s : State) : (answerData r c x s).tt = s.tt := rfl
@[simp] theorem answerData_tou (r : Request) (c : ReplyCode) (x : List Byte) (s : State) : (answerData r c x s).tou = s.tou := rfl
@[simp] theorem answerData_tc (r : Request) (c : ReplyCode) (x : List Byte) (s : State) : (answerData r c x s).tc = s.tc := rfl
@[simp] theorem answerData_tme (r : Request) (c : ReplyCode) (x : List Byte) (s : State) : (answerData r c x s).tme = s.tme := rfl
@[simp] theorem answerData_pbc (r : Request) (c : ReplyCode) (x : List Byte) (s : State) : (answerData r c x s).pbc = s.pbc := rfl
@[simp] theorem answerData_fd (r : Request) (c : ReplyCode) (x : List Byte) (s : State) : (answerData r c x s).fd = s.fd := rfl
@[simp] theorem answerData_pending (r : Request) (c : ReplyCode) (x : List Byte) (s : State) : (answerData r c x s).pending = s.pending := rfl

/-! `answer` -/

@[simp] theorem answer_rc (r : Request) (c : ReplyCode) (s : State) : (answer r c s).rc = s.rc := rfl
@[simp] theorem answer_stu (r : Request) (c : ReplyCode) (s : State) : (answer r c s).stu = s.stu := rfl
@[simp] theorem answer_tt (r : Request) (c : ReplyCode) (s : State) : (answer r c s).tt = s.tt := rfl
@[simp] theorem answer_tou (r : Request) (c : ReplyCode) (s : State) : (answer r c s).tou = s.tou := rfl
@[simp] theorem answer_tc (r : Request) (c : ReplyCode) (s : State) : (answer r c s).tc = s.tc := rfl
@[simp] theorem answer_tme (r : Request) (c : ReplyCode) (s : State) : (answer r c s).tme = s.tme := rfl
@[simp] theorem answer_pbc (r : Request) (c : ReplyCode) (s : State) : (answer r c s).pbc = s.pbc := rfl
@[simp] theorem answer_fd (r : Request) (c : ReplyCode) (s : State) : (answer r c s).fd = s.fd := rfl
@[simp] theorem answer_pending (r : Request) (c : ReplyCode) (s : State) : (answer r c s).pending = s.pending := rfl

/-! `deferReply` -/

@[simp] theorem deferReply_rc (s : State) : (deferReply s).rc = s.rc := rfl
@[simp] theorem deferReply_stu (s : State) : (deferReply s).stu = s.stu := rfl
@[simp] theorem deferReply_tt (s : State) : (deferReply s).tt = s.tt := rfl
@[simp] theorem deferReply_tou (s : State) : (deferReply s).tou = s.tou := rfl
@[simp] theorem deferReply_tc (s : State) : (deferReply s).tc = s.tc := rfl
@[simp] theorem deferReply_tme (s : State) : (deferReply s).tme = s.tme := rfl
@[simp] theorem deferReply_pbc (s : State) : (deferReply s).pbc = s.pbc := rfl
@[simp] theorem deferReply_fd (s : State) : (deferReply s).fd = s.fd := rfl
@[simp] theorem deferReply_pending (s : State) : (deferReply s).pending = s.pending := rfl

/-! `issueDeferred` -/

@[simp] theorem issueDeferred_rc (b : Byte) (c : ReplyCode) (x : List Byte) (s : State) : (issueDeferred b c x s).rc = s.rc := rfl
@[simp] theorem issueDeferred_stu (b : Byte) (c : ReplyCode) (x : List Byte) (s : State) : (issueDeferred b c x s).stu = s.stu := rfl
@[simp] theorem issueDeferred_tt (b : Byte) (c : ReplyCode) (x : List Byte) (s : State) : (issueDeferred b c x s).tt = s.tt := rfl
@[simp] theorem issueDeferred_tou (b : Byte) (c : ReplyCode) (x : List Byte) (s : State) : (issueDeferred b c x s).tou = s.tou := rfl
@[simp] theorem issueDeferred_tc (b : Byte) (c : ReplyCode) (x : List Byte) (s : State) : (issueDeferred b c x s).tc = s.tc := rfl
@[simp] theorem issueDeferred_tme (b : Byte) (c : ReplyCode) (x : List Byte) (s : State) : (issueDeferred b c x s).tme = s.tme := rfl
@[simp] theorem issueDeferred_pbc (b : Byte) (c : ReplyCode) (x : List Byte) (s : State) : (issueDeferred b c x s).pbc = s.pbc := rfl
@[simp] theorem issueDeferred_fd (b : Byte) (c : ReplyCode) (x : List Byte) (s : State) : (issueDeferred b c x s).fd = s.fd := rfl
@[simp] theorem issueDeferred_pending (b : Byte) (c : ReplyCode) (x : List Byte) (s : State) : (issueDeferred b c x s).pending = s.pending := rfl

/-! `transmit` -/

@[simp] theorem transmit_rc (s : State) : (transmit s).rc = s.rc := by unfold transmit; split <;> rfl
@[simp] theorem transmit_stu (s : State) : (transmit s).stu = s.stu := by unfold transmit; split <;> rfl
@[simp] theorem transmit_tt (s : State) : (transmit s).tt = s.tt := by unfold transmit; split <;> rfl
@[simp] theorem transmit_tou (s : State) : (transmit s).tou = s.tou := by unfold transmit; split <;> rfl
@[simp] theorem transmit_tc (s : State) : (transmit s).tc = s.tc := by unfold transmit; split <;> rfl
@[simp] theorem transmit_tme (s : State) : (transmit s).tme = s.tme := by unfold transmit; split <;> rfl
@[simp] theorem transmit_pbc (s : State) : (transmit s).pbc = s.pbc := by unfold transmit; split <;> rfl
@[simp] theorem transmit_fd (s : State) : (transmit s).fd = s.fd := by unfold transmit; split <;> rfl
@[simp] theorem transmit_pending (s : State) : (transmit s).pending = s.pending := by unfold transmit; split <;> rfl

/-! `offerRequest` -/

@[simp] theorem offerRequest_rc (r : Request) (s : State) : (offerRequest r s).rc = s.rc := by
  unfold offerRequest; (repeat' split) <;> simp
@[simp] theorem offerRequest_stu (r : Request) (s : State) : (offerRequest r s).stu = s.stu := by
  unfold offerRequest; (repeat' split) <;> simp
@[simp] theorem offerRequest_tt (r : Request) (s : State) : (offerRequest r s).tt = s.tt := by
  unfold offerRequest; (repeat' split) <;> simp
@[simp] theorem offerRequest_tou (r : Request) (s : State) : (offerRequest r s).tou = s.tou := by
  unfold offerRequest; (repeat' split) <;> simp
@[simp] theorem offerRequest_tc (r : Request) (s : State) : (offerRequest r s).tc = s.tc := by
  unfold offerRequest; (repeat' split) <;> simp
@[simp] theorem offerRequest_tme (r : Request) (s : State) : (offerRequest r s).tme = s.tme := by
  unfold offerRequest; (repeat' split) <;> simp
@[simp] theorem offerRequest_pbc (r : Request) (s : State) : (offerRequest r s).pbc = s.pbc := by
  unfold offerRequest; (repeat' split) <;> simp
@[simp] theorem offerRequest_fd (r : Request) (s : State) : (offerRequest r s).fd = s.fd := by
  unfold offerRequest; (repeat' split) <;> simp
@[simp] theorem offerRequest_pending (r : Request) (s : State) : (offerRequest r s).pending = s.pending := by
  unfold offerRequest; (repeat' split) <;> simp

/-! `receiveBytes` -/

@[simp] theorem receiveBytes_rc (n : Nat) (x : List Byte) (s : State) : (receiveBytes n x s).rc = s.rc := by
  induction n generalizing x s with
  | zero => rfl
  | succ n ih => unfold receiveBytes; split <;> simp [ih]
@[simp] theorem receiveBytes_stu (n : Nat) (x : List Byte) (s : State) : (receiveBytes n x s).stu = s.stu := by
  induction n generalizing x s with
  | zero => rfl
  | succ n ih => unfold receiveBytes; split <;> simp [ih]
@[simp] theorem receiveBytes_tt (n : Nat) (x : List Byte) (s : State) : (receiveBytes n x s).tt = s.tt := by
  induction n generalizing x s with
  | zero => rfl
  | succ n ih => unfold receiveBytes; split <;> simp [ih]
@[simp] theorem receiveBytes_tou (n : Nat) (x : List Byte) (s : State) : (receiveBytes n x s).tou = s.tou := by
  induction n generalizing x s with
  | zero => rfl
  | succ n ih => unfold receiveBytes; split <;> simp [ih]
@[simp] theorem receiveBytes_tc (n : Nat) (x : List Byte) (s : State) : (receiveBytes n x s).tc = s.tc := by
  induction n generalizing x s with
  | zero => rfl
  | succ n ih => unfold receiveBytes; split <;> simp [ih]
@[simp] theorem receiveBytes_tme (n : Nat) (x : List Byte) (s : State) : (receiveBytes n x s).tme = s.tme := by
  induction n generalizing x s with
  | zero => rfl
  | succ n ih => unfold receiveBytes; split <;> simp [ih]
@[simp] theorem receiveBytes_pbc (n : Nat) (x : List Byte) (s : State) : (receiveBytes n x s).pbc = s.pbc := by
  induction n generalizing x s with
  | zero => rfl
  | succ n ih => unfold receiveBytes; split <;> simp [ih]
@[simp] theorem receiveBytes_fd (n : Nat) (x : List Byte) (s : State) : (receiveBytes n x s).fd = s.fd := by
  induction n generalizing x s with
  | zero => rfl
  | succ n ih => unfold receiveBytes; split <;> simp [ih]
@[simp] theorem receiveBytes_pending (n : Nat) (x : List Byte) (s : State) : (receiveBytes n x s).pending = s.pending := by
  induction n generalizing x s with
  | zero => rfl
  | succ n ih => unfold receiveBytes; split <;> simp [ih]

/-! `receive` -/

@[simp] theorem receive_rc (x : List Byte) (s : State) : (receive x s).rc = s.rc := by simp [receive]
@[simp] theorem receive_stu (x : List Byte) (s : State) : (receive x s).stu = s.stu := by simp [receive]
@[simp] theorem receive_tt (x : List Byte) (s : State) : (receive x s).tt = s.tt := by simp [receive]
@[simp] theorem receive_tou (x : List Byte) (s : State) : (receive x s).tou = s.tou := by simp [receive]
@[simp] theorem receive_tc (x : List Byte) (s : State) : (receive x s).tc = s.tc := by simp [receive]
@[simp] theorem receive_tme (x : List Byte) (s : State) : (receive x s).tme = s.tme := by simp [receive]
@[simp] theorem receive_pbc (x : List Byte) (s : State) : (receive x s).pbc = s.pbc := by simp [receive]
@[simp] theorem receive_fd (x : List Byte) (s : State) : (receive x s).fd = s.fd := by simp [receive]
@[simp] theorem receive_pending (x : List Byte) (s : State) : (receive x s).pending = s.pending := by simp [receive]

/-! `dropPartial` -/

@[simp] theorem dropPartial_rc (s : State) : (dropPartial s).rc = s.rc := by unfold dropPartial; split <;> simp
@[simp] theorem dropPartial_stu (s : State) : (dropPartial s).stu = s.stu := by unfold dropPartial; split <;> simp
@[simp] theorem dropPartial_tt (s : State) : (dropPartial s).tt = s.tt := by unfold dropPartial; split <;> simp
@[simp] theorem dropPartial_tou (s : State) : (dropPartial s).tou = s.tou := by unfold dropPartial; split <;> simp
@[simp] theorem dropPartial_tc (s : State) : (dropPartial s).tc = s.tc := by unfold dropPartial; split <;> simp
@[simp] theorem dropPartial_tme (s : State) : (dropPartial s).tme = s.tme := by unfold dropPartial; split <;> simp
@[simp] theorem dropPartial_pbc (s : State) : (dropPartial s).pbc = s.pbc := by unfold dropPartial; split <;> simp
@[simp] theorem dropPartial_fd (s : State) : (dropPartial s).fd = s.fd := by unfold dropPartial; split <;> simp
@[simp] theorem dropPartial_pending (s : State) : (dropPartial s).pending = s.pending := by
  unfold dropPartial; split <;> simp

/-! `writeEvents` -/

@[simp] theorem writeEvents_rc (e : BitVec 16) (x : EdgeSelects) (s : State) : (writeEvents e x s).rc = s.rc := rfl
@[simp] theorem writeEvents_stu (e : BitVec 16) (x : EdgeSelects) (s : State) : (writeEvents e x s).stu = s.stu := rfl
@[simp] theorem writeEvents_tt (e : BitVec 16) (x : EdgeSelects) (s : State) : (writeEvents e x s).tt = s.tt := rfl
@[simp] theorem writeEvents_tou (e : BitVec 16) (x : EdgeSelects) (s : State) : (writeEvents e x s).tou = s.tou := rfl
@[simp] theorem writeEvents_tc (e : BitVec 16) (x : EdgeSelects) (s : State) : (writeEvents e x s).tc = s.tc := rfl
@[simp] theorem writeEvents_tme (e : BitVec 16) (x : EdgeSelects) (s : State) : (writeEvents e x s).tme = s.tme := rfl
@[simp] theorem writeEvents_pbc (e : BitVec 16) (x : EdgeSelects) (s : State) : (writeEvents e x s).pbc = s.pbc := rfl
@[simp] theorem writeEvents_fd (e : BitVec 16) (x : EdgeSelects) (s : State) : (writeEvents e x s).fd = s.fd := rfl
@[simp] theorem writeEvents_pending (e : BitVec 16) (x : EdgeSelects) (s : State) : (writeEvents e x s).pending = s.pending := rfl

/-! `endTransmission` -/

@[simp] theorem endTransmission_rc (s : State) : (endTransmission s).rc = s.rc := by
  unfold endTransmission; split <;> simp
@[simp] theorem endTransmission_stu (s : State) : (endTransmission s).stu = s.stu := by
  unfold endTransmission; split <;> simp
@[simp] theorem endTransmission_tt (s : State) : (endTransmission s).tt = s.tt := by
  unfold endTransmission; split <;> simp
@[simp] theorem endTransmission_tou (s : State) : (endTransmission s).tou = s.tou := by
  unfold endTransmission; split <;> simp
@[simp] theorem endTransmission_tc (s : State) : (endTransmission s).tc = s.tc := by
  unfold endTransmission; split <;> simp
@[simp] theorem endTransmission_tme (s : State) : (endTransmission s).tme = s.tme := by
  unfold endTransmission; split <;> simp
@[simp] theorem endTransmission_pbc (s : State) : (endTransmission s).pbc = s.pbc := by
  unfold endTransmission; split <;> simp
@[simp] theorem endTransmission_fd (s : State) : (endTransmission s).fd = s.fd := by
  unfold endTransmission; split <;> simp
@[simp] theorem endTransmission_pending (s : State) : (endTransmission s).pending = s.pending := by
  unfold endTransmission; split <;> simp

end Sys2Proof.Machine
end

