-- ==== Sys2Proof/Laws/Talk.lean ====
section
/-! SUPPORT. What the operations over the talk set and the path table leave alone: one lemma for each block of the state that an
operation does not touch. -/

namespace Sys2Proof.Machine

/-! `recompute` -/

@[simp] theorem recompute_hlc (s : State) : (recompute s).hlc = s.hlc := rfl
@[simp] theorem recompute_rc (s : State) : (recompute s).rc = s.rc := rfl
@[simp] theorem recompute_stu (s : State) : (recompute s).stu = s.stu := rfl
@[simp] theorem recompute_tt (s : State) : (recompute s).tt = s.tt := rfl
@[simp] theorem recompute_tou (s : State) : (recompute s).tou = s.tou := rfl
@[simp] theorem recompute_tc (s : State) : (recompute s).tc = s.tc := rfl
@[simp] theorem recompute_pbc (s : State) : (recompute s).pbc = s.pbc := rfl
@[simp] theorem recompute_fd (s : State) : (recompute s).fd = s.fd := rfl
@[simp] theorem recompute_pending (s : State) : (recompute s).pending = s.pending := rfl

/-! `evaluateStarved` -/

@[simp] theorem evaluateStarved_rc (s : State) : (evaluateStarved s).rc = s.rc := by simp [evaluateStarved]
@[simp] theorem evaluateStarved_stu (s : State) : (evaluateStarved s).stu = s.stu := by simp [evaluateStarved]
@[simp] theorem evaluateStarved_tt (s : State) : (evaluateStarved s).tt = s.tt := by simp [evaluateStarved]
@[simp] theorem evaluateStarved_tou (s : State) : (evaluateStarved s).tou = s.tou := by simp [evaluateStarved]
@[simp] theorem evaluateStarved_tc (s : State) : (evaluateStarved s).tc = s.tc := by simp [evaluateStarved]
@[simp] theorem evaluateStarved_pbc (s : State) : (evaluateStarved s).pbc = s.pbc := by simp [evaluateStarved]
@[simp] theorem evaluateStarved_fd (s : State) : (evaluateStarved s).fd = s.fd := by simp [evaluateStarved]
@[simp] theorem evaluateStarved_pending (s : State) : (evaluateStarved s).pending = s.pending := by
  simp [evaluateStarved]

/-! `handling` -/

@[simp] theorem handling_rc (b s : State) : (handling b s).rc = s.rc := by simp [handling]
@[simp] theorem handling_stu (b s : State) : (handling b s).stu = s.stu := by simp [handling]
@[simp] theorem handling_tt (b s : State) : (handling b s).tt = s.tt := by simp [handling]
@[simp] theorem handling_tou (b s : State) : (handling b s).tou = s.tou := by simp [handling]
@[simp] theorem handling_tc (b s : State) : (handling b s).tc = s.tc := by simp [handling]
@[simp] theorem handling_pbc (b s : State) : (handling b s).pbc = s.pbc := by simp [handling]
@[simp] theorem handling_fd (b s : State) : (handling b s).fd = s.fd := by simp [handling]
@[simp] theorem handling_pending (b s : State) : (handling b s).pending = s.pending := by simp [handling]

/-! `resolveAgain` -/

@[simp] theorem resolveAgain_hlc (f : Talk → Bool) (s : State) : (resolveAgain f s).hlc = s.hlc := rfl
@[simp] theorem resolveAgain_rc (f : Talk → Bool) (s : State) : (resolveAgain f s).rc = s.rc := rfl
@[simp] theorem resolveAgain_stu (f : Talk → Bool) (s : State) : (resolveAgain f s).stu = s.stu := rfl
@[simp] theorem resolveAgain_tt (f : Talk → Bool) (s : State) : (resolveAgain f s).tt = s.tt := rfl
@[simp] theorem resolveAgain_tou (f : Talk → Bool) (s : State) : (resolveAgain f s).tou = s.tou := rfl
@[simp] theorem resolveAgain_tme (f : Talk → Bool) (s : State) : (resolveAgain f s).tme = s.tme := rfl
@[simp] theorem resolveAgain_pbc (f : Talk → Bool) (s : State) : (resolveAgain f s).pbc = s.pbc := rfl
@[simp] theorem resolveAgain_fd (f : Talk → Bool) (s : State) : (resolveAgain f s).fd = s.fd := rfl
@[simp] theorem resolveAgain_pending (f : Talk → Bool) (s : State) : (resolveAgain f s).pending = s.pending := rfl

/-! `announceInterrupters` -/

@[simp] theorem announceInterrupters_rc (b : State) (s : State) : (announceInterrupters b s).rc = s.rc := by
  unfold announceInterrupters; split <;> simp
@[simp] theorem announceInterrupters_stu (b : State) (s : State) : (announceInterrupters b s).stu = s.stu := by
  unfold announceInterrupters; split <;> simp
@[simp] theorem announceInterrupters_tt (b : State) (s : State) : (announceInterrupters b s).tt = s.tt := by
  unfold announceInterrupters; split <;> simp
@[simp] theorem announceInterrupters_tou (b : State) (s : State) : (announceInterrupters b s).tou = s.tou := by
  unfold announceInterrupters; split <;> simp
@[simp] theorem announceInterrupters_tc (b : State) (s : State) : (announceInterrupters b s).tc = s.tc := by
  unfold announceInterrupters; split <;> simp
@[simp] theorem announceInterrupters_tme (b : State) (s : State) : (announceInterrupters b s).tme = s.tme := by
  unfold announceInterrupters; split <;> simp
@[simp] theorem announceInterrupters_pbc (b : State) (s : State) : (announceInterrupters b s).pbc = s.pbc := by
  unfold announceInterrupters; split <;> simp
@[simp] theorem announceInterrupters_fd (b : State) (s : State) : (announceInterrupters b s).fd = s.fd := by
  unfold announceInterrupters; split <;> simp
@[simp] theorem announceInterrupters_pending (b : State) (s : State) : (announceInterrupters b s).pending = s.pending := by
  unfold announceInterrupters; split <;> simp

/-! `joinTalk` -/

@[simp] theorem joinTalk_hlc (t : Talk) (s : State) : (joinTalk t s).hlc = s.hlc := by unfold joinTalk; split <;> rfl
@[simp] theorem joinTalk_rc (t : Talk) (s : State) : (joinTalk t s).rc = s.rc := by unfold joinTalk; split <;> rfl
@[simp] theorem joinTalk_stu (t : Talk) (s : State) : (joinTalk t s).stu = s.stu := by unfold joinTalk; split <;> rfl
@[simp] theorem joinTalk_tt (t : Talk) (s : State) : (joinTalk t s).tt = s.tt := by unfold joinTalk; split <;> rfl
@[simp] theorem joinTalk_tou (t : Talk) (s : State) : (joinTalk t s).tou = s.tou := by unfold joinTalk; split <;> rfl
@[simp] theorem joinTalk_tme (t : Talk) (s : State) : (joinTalk t s).tme = s.tme := by unfold joinTalk; split <;> rfl
@[simp] theorem joinTalk_pbc (t : Talk) (s : State) : (joinTalk t s).pbc = s.pbc := by unfold joinTalk; split <;> rfl
@[simp] theorem joinTalk_fd (t : Talk) (s : State) : (joinTalk t s).fd = s.fd := by unfold joinTalk; split <;> rfl
@[simp] theorem joinTalk_pending (t : Talk) (s : State) : (joinTalk t s).pending = s.pending := by
  unfold joinTalk; split <;> rfl

/-! `enterArbitration` -/

@[simp] theorem enterArbitration_hlc (t : Talk) (s : State) : (enterArbitration t s).hlc = s.hlc := by
  unfold enterArbitration; (repeat' split) <;> rfl
@[simp] theorem enterArbitration_rc (t : Talk) (s : State) : (enterArbitration t s).rc = s.rc := by
  unfold enterArbitration; (repeat' split) <;> rfl
@[simp] theorem enterArbitration_stu (t : Talk) (s : State) : (enterArbitration t s).stu = s.stu := by
  unfold enterArbitration; (repeat' split) <;> rfl
@[simp] theorem enterArbitration_tt (t : Talk) (s : State) : (enterArbitration t s).tt = s.tt := by
  unfold enterArbitration; (repeat' split) <;> rfl
@[simp] theorem enterArbitration_tou (t : Talk) (s : State) : (enterArbitration t s).tou = s.tou := by
  unfold enterArbitration; (repeat' split) <;> rfl
@[simp] theorem enterArbitration_tme (t : Talk) (s : State) : (enterArbitration t s).tme = s.tme := by
  unfold enterArbitration; (repeat' split) <;> rfl
@[simp] theorem enterArbitration_pbc (t : Talk) (s : State) : (enterArbitration t s).pbc = s.pbc := by
  unfold enterArbitration; (repeat' split) <;> rfl
@[simp] theorem enterArbitration_fd (t : Talk) (s : State) : (enterArbitration t s).fd = s.fd := by
  unfold enterArbitration; (repeat' split) <;> rfl
@[simp] theorem enterArbitration_pending (t : Talk) (s : State) : (enterArbitration t s).pending = s.pending := by
  unfold enterArbitration; (repeat' split) <;> rfl

/-! `createTalk` -/

@[simp] theorem createTalk_rc (t : Talk) (s : State) : (createTalk t s).rc = s.rc := by simp [createTalk]
@[simp] theorem createTalk_stu (t : Talk) (s : State) : (createTalk t s).stu = s.stu := by simp [createTalk]
@[simp] theorem createTalk_tt (t : Talk) (s : State) : (createTalk t s).tt = s.tt := by simp [createTalk]
@[simp] theorem createTalk_tou (t : Talk) (s : State) : (createTalk t s).tou = s.tou := by simp [createTalk]
@[simp] theorem createTalk_pbc (t : Talk) (s : State) : (createTalk t s).pbc = s.pbc := by simp [createTalk]
@[simp] theorem createTalk_fd (t : Talk) (s : State) : (createTalk t s).fd = s.fd := by simp [createTalk]
@[simp] theorem createTalk_pending (t : Talk) (s : State) : (createTalk t s).pending = s.pending := by
  simp [createTalk]

/-! `removeTalks` -/

@[simp] theorem removeTalks_hlc (x : List Nat) (s : State) : (removeTalks x s).hlc = s.hlc := rfl
@[simp] theorem removeTalks_rc (x : List Nat) (s : State) : (removeTalks x s).rc = s.rc := rfl
@[simp] theorem removeTalks_stu (x : List Nat) (s : State) : (removeTalks x s).stu = s.stu := rfl
@[simp] theorem removeTalks_tt (x : List Nat) (s : State) : (removeTalks x s).tt = s.tt := rfl
@[simp] theorem removeTalks_tou (x : List Nat) (s : State) : (removeTalks x s).tou = s.tou := rfl
@[simp] theorem removeTalks_tme (x : List Nat) (s : State) : (removeTalks x s).tme = s.tme := rfl
@[simp] theorem removeTalks_pbc (x : List Nat) (s : State) : (removeTalks x s).pbc = s.pbc := rfl
@[simp] theorem removeTalks_fd (x : List Nat) (s : State) : (removeTalks x s).fd = s.fd := rfl
@[simp] theorem removeTalks_pending (x : List Nat) (s : State) : (removeTalks x s).pending = s.pending := rfl

/-! `endTalks` -/

@[simp] theorem endTalks_rc (x : List Nat) (s : State) : (endTalks x s).rc = s.rc := by
  unfold endTalks; split <;> simp
@[simp] theorem endTalks_stu (x : List Nat) (s : State) : (endTalks x s).stu = s.stu := by
  unfold endTalks; split <;> simp
@[simp] theorem endTalks_tt (x : List Nat) (s : State) : (endTalks x s).tt = s.tt := by
  unfold endTalks; split <;> simp
@[simp] theorem endTalks_tou (x : List Nat) (s : State) : (endTalks x s).tou = s.tou := by
  unfold endTalks; split <;> simp
@[simp] theorem endTalks_pbc (x : List Nat) (s : State) : (endTalks x s).pbc = s.pbc := by
  unfold endTalks; split <;> simp
@[simp] theorem endTalks_fd (x : List Nat) (s : State) : (endTalks x s).fd = s.fd := by
  unfold endTalks; split <;> simp
@[simp] theorem endTalks_pending (x : List Nat) (s : State) : (endTalks x s).pending = s.pending := by
  unfold endTalks; split <;> simp

/-! `pressIdle` -/

@[simp] theorem pressIdle_rc (p k : Nat) (g : Target) (m : TalkMode) (x : Int) (y : Nat) (s : State) : (pressIdle p k g m x y s).rc = s.rc := by
  unfold pressIdle; simp only []; (repeat' split) <;> simp
@[simp] theorem pressIdle_stu (p k : Nat) (g : Target) (m : TalkMode) (x : Int) (y : Nat) (s : State) : (pressIdle p k g m x y s).stu = s.stu := by
  unfold pressIdle; simp only []; (repeat' split) <;> simp
@[simp] theorem pressIdle_tt (p k : Nat) (g : Target) (m : TalkMode) (x : Int) (y : Nat) (s : State) : (pressIdle p k g m x y s).tt = s.tt := by
  unfold pressIdle; simp only []; (repeat' split) <;> simp
@[simp] theorem pressIdle_tou (p k : Nat) (g : Target) (m : TalkMode) (x : Int) (y : Nat) (s : State) : (pressIdle p k g m x y s).tou = s.tou := by
  unfold pressIdle; simp only []; (repeat' split) <;> simp
@[simp] theorem pressIdle_fd (p k : Nat) (g : Target) (m : TalkMode) (x : Int) (y : Nat) (s : State) : (pressIdle p k g m x y s).fd = s.fd := by
  unfold pressIdle; simp only []; (repeat' split) <;> simp
@[simp] theorem pressIdle_pending (p k : Nat) (g : Target) (m : TalkMode) (x : Int) (y : Nat) (s : State) : (pressIdle p k g m x y s).pending = s.pending := by
  unfold pressIdle; simp only []; (repeat' split) <;> simp

/-! `pressOwned` -/

@[simp] theorem pressOwned_rc (p k : Nat) (s : State) : (pressOwned p k s).rc = s.rc := by
  unfold pressOwned; simp only []; split <;> simp
@[simp] theorem pressOwned_stu (p k : Nat) (s : State) : (pressOwned p k s).stu = s.stu := by
  unfold pressOwned; simp only []; split <;> simp
@[simp] theorem pressOwned_tt (p k : Nat) (s : State) : (pressOwned p k s).tt = s.tt := by
  unfold pressOwned; simp only []; split <;> simp
@[simp] theorem pressOwned_tou (p k : Nat) (s : State) : (pressOwned p k s).tou = s.tou := by
  unfold pressOwned; simp only []; split <;> simp
@[simp] theorem pressOwned_pbc (p k : Nat) (s : State) : (pressOwned p k s).pbc = s.pbc := by
  unfold pressOwned; simp only []; split <;> simp
@[simp] theorem pressOwned_fd (p k : Nat) (s : State) : (pressOwned p k s).fd = s.fd := by
  unfold pressOwned; simp only []; split <;> simp
@[simp] theorem pressOwned_pending (p k : Nat) (s : State) : (pressOwned p k s).pending = s.pending := by
  unfold pressOwned; simp only []; split <;> simp

/-! `releaseOwned` -/

@[simp] theorem releaseOwned_rc (p k : Nat) (s : State) : (releaseOwned p k s).rc = s.rc := by
  unfold releaseOwned; simp only []; split <;> simp
@[simp] theorem releaseOwned_stu (p k : Nat) (s : State) : (releaseOwned p k s).stu = s.stu := by
  unfold releaseOwned; simp only []; split <;> simp
@[simp] theorem releaseOwned_tt (p k : Nat) (s : State) : (releaseOwned p k s).tt = s.tt := by
  unfold releaseOwned; simp only []; split <;> simp
@[simp] theorem releaseOwned_tou (p k : Nat) (s : State) : (releaseOwned p k s).tou = s.tou := by
  unfold releaseOwned; simp only []; split <;> simp
@[simp] theorem releaseOwned_pbc (p k : Nat) (s : State) : (releaseOwned p k s).pbc = s.pbc := by
  unfold releaseOwned; simp only []; split <;> simp
@[simp] theorem releaseOwned_fd (p k : Nat) (s : State) : (releaseOwned p k s).fd = s.fd := by
  unfold releaseOwned; simp only []; split <;> simp
@[simp] theorem releaseOwned_pending (p k : Nat) (s : State) : (releaseOwned p k s).pending = s.pending := by
  unfold releaseOwned; simp only []; split <;> simp

/-! `expireTimer` -/

@[simp] theorem expireTimer_hlc (p k : Nat) (s : State) : (expireTimer p k s).hlc = s.hlc := by
  unfold expireTimer; simp only []; split <;> simp
@[simp] theorem expireTimer_rc (p k : Nat) (s : State) : (expireTimer p k s).rc = s.rc := by
  unfold expireTimer; simp only []; split <;> simp
@[simp] theorem expireTimer_stu (p k : Nat) (s : State) : (expireTimer p k s).stu = s.stu := by
  unfold expireTimer; simp only []; split <;> simp
@[simp] theorem expireTimer_tt (p k : Nat) (s : State) : (expireTimer p k s).tt = s.tt := by
  unfold expireTimer; simp only []; split <;> simp
@[simp] theorem expireTimer_tou (p k : Nat) (s : State) : (expireTimer p k s).tou = s.tou := by
  unfold expireTimer; simp only []; split <;> simp
@[simp] theorem expireTimer_tme (p k : Nat) (s : State) : (expireTimer p k s).tme = s.tme := by
  unfold expireTimer; simp only []; split <;> simp
@[simp] theorem expireTimer_pbc (p k : Nat) (s : State) : (expireTimer p k s).pbc = s.pbc := by
  unfold expireTimer; simp only []; split <;> simp
@[simp] theorem expireTimer_fd (p k : Nat) (s : State) : (expireTimer p k s).fd = s.fd := by
  unfold expireTimer; simp only []; split <;> simp
@[simp] theorem expireTimer_pending (p k : Nat) (s : State) : (expireTimer p k s).pending = s.pending := by
  unfold expireTimer; simp only []; split <;> simp

/-! `loseTalk` -/

@[simp] theorem loseTalk_hlc (p k : Nat) (s : State) : (loseTalk p k s).hlc = s.hlc := by
  unfold loseTalk; simp only []; split <;> simp
@[simp] theorem loseTalk_rc (p k : Nat) (s : State) : (loseTalk p k s).rc = s.rc := by
  unfold loseTalk; simp only []; split <;> simp
@[simp] theorem loseTalk_stu (p k : Nat) (s : State) : (loseTalk p k s).stu = s.stu := by
  unfold loseTalk; simp only []; split <;> simp
@[simp] theorem loseTalk_tt (p k : Nat) (s : State) : (loseTalk p k s).tt = s.tt := by
  unfold loseTalk; simp only []; split <;> simp
@[simp] theorem loseTalk_tou (p k : Nat) (s : State) : (loseTalk p k s).tou = s.tou := by
  unfold loseTalk; simp only []; split <;> simp
@[simp] theorem loseTalk_tme (p k : Nat) (s : State) : (loseTalk p k s).tme = s.tme := by
  unfold loseTalk; simp only []; split <;> simp
@[simp] theorem loseTalk_pbc (p k : Nat) (s : State) : (loseTalk p k s).pbc = s.pbc := by
  unfold loseTalk; simp only []; split <;> simp
@[simp] theorem loseTalk_fd (p k : Nat) (s : State) : (loseTalk p k s).fd = s.fd := by
  unfold loseTalk; simp only []; split <;> simp
@[simp] theorem loseTalk_pending (p k : Nat) (s : State) : (loseTalk p k s).pending = s.pending := by
  unfold loseTalk; simp only []; split <;> simp

/-! `idleKeys` -/

@[simp] theorem idleKeys_hlc (p : Nat) (s : State) : (idleKeys p s).hlc = s.hlc := rfl
@[simp] theorem idleKeys_rc (p : Nat) (s : State) : (idleKeys p s).rc = s.rc := rfl
@[simp] theorem idleKeys_stu (p : Nat) (s : State) : (idleKeys p s).stu = s.stu := rfl
@[simp] theorem idleKeys_tt (p : Nat) (s : State) : (idleKeys p s).tt = s.tt := rfl
@[simp] theorem idleKeys_tou (p : Nat) (s : State) : (idleKeys p s).tou = s.tou := rfl
@[simp] theorem idleKeys_tme (p : Nat) (s : State) : (idleKeys p s).tme = s.tme := rfl
@[simp] theorem idleKeys_pbc (p : Nat) (s : State) : (idleKeys p s).pbc = s.pbc := rfl
@[simp] theorem idleKeys_fd (p : Nat) (s : State) : (idleKeys p s).fd = s.fd := rfl
@[simp] theorem idleKeys_pending (p : Nat) (s : State) : (idleKeys p s).pending = s.pending := rfl

/-! `idleAllKeys` -/

@[simp] theorem idleAllKeys_hlc (s : State) : (idleAllKeys s).hlc = s.hlc := rfl
@[simp] theorem idleAllKeys_rc (s : State) : (idleAllKeys s).rc = s.rc := rfl
@[simp] theorem idleAllKeys_stu (s : State) : (idleAllKeys s).stu = s.stu := rfl
@[simp] theorem idleAllKeys_tt (s : State) : (idleAllKeys s).tt = s.tt := rfl
@[simp] theorem idleAllKeys_tou (s : State) : (idleAllKeys s).tou = s.tou := rfl
@[simp] theorem idleAllKeys_tme (s : State) : (idleAllKeys s).tme = s.tme := rfl
@[simp] theorem idleAllKeys_pbc (s : State) : (idleAllKeys s).pbc = s.pbc := rfl
@[simp] theorem idleAllKeys_fd (s : State) : (idleAllKeys s).fd = s.fd := rfl
@[simp] theorem idleAllKeys_pending (s : State) : (idleAllKeys s).pending = s.pending := rfl

/-! `dropPanelTalks` -/

@[simp] theorem dropPanelTalks_rc (p : Nat) (s : State) : (dropPanelTalks p s).rc = s.rc := by simp [dropPanelTalks]
@[simp] theorem dropPanelTalks_stu (p : Nat) (s : State) : (dropPanelTalks p s).stu = s.stu := by
  simp [dropPanelTalks]
@[simp] theorem dropPanelTalks_tt (p : Nat) (s : State) : (dropPanelTalks p s).tt = s.tt := by simp [dropPanelTalks]
@[simp] theorem dropPanelTalks_tou (p : Nat) (s : State) : (dropPanelTalks p s).tou = s.tou := by
  simp [dropPanelTalks]
@[simp] theorem dropPanelTalks_pbc (p : Nat) (s : State) : (dropPanelTalks p s).pbc = s.pbc := by
  simp [dropPanelTalks]
@[simp] theorem dropPanelTalks_fd (p : Nat) (s : State) : (dropPanelTalks p s).fd = s.fd := by simp [dropPanelTalks]
@[simp] theorem dropPanelTalks_pending (p : Nat) (s : State) : (dropPanelTalks p s).pending = s.pending := by
  simp [dropPanelTalks]

/-! `resolveOnair` -/

@[simp] theorem resolveOnair_rc (s : State) : (resolveOnair s).rc = s.rc := by
  unfold resolveOnair; simp only []; split <;> simp
@[simp] theorem resolveOnair_stu (s : State) : (resolveOnair s).stu = s.stu := by
  unfold resolveOnair; simp only []; split <;> simp
@[simp] theorem resolveOnair_tt (s : State) : (resolveOnair s).tt = s.tt := by
  unfold resolveOnair; simp only []; split <;> simp
@[simp] theorem resolveOnair_tou (s : State) : (resolveOnair s).tou = s.tou := by
  unfold resolveOnair; simp only []; split <;> simp
@[simp] theorem resolveOnair_pbc (s : State) : (resolveOnair s).pbc = s.pbc := by
  unfold resolveOnair; simp only []; split <;> simp
@[simp] theorem resolveOnair_fd (s : State) : (resolveOnair s).fd = s.fd := by
  unfold resolveOnair; simp only []; split <;> simp
@[simp] theorem resolveOnair_pending (s : State) : (resolveOnair s).pending = s.pending := by
  unfold resolveOnair; simp only []; split <;> simp

/-! `recount` -/

@[simp] theorem recount_hlc (x : List Domain) (s : State) : (recount x s).hlc = s.hlc := rfl
@[simp] theorem recount_rc (x : List Domain) (s : State) : (recount x s).rc = s.rc := rfl
@[simp] theorem recount_stu (x : List Domain) (s : State) : (recount x s).stu = s.stu := rfl
@[simp] theorem recount_tt (x : List Domain) (s : State) : (recount x s).tt = s.tt := rfl
@[simp] theorem recount_tou (x : List Domain) (s : State) : (recount x s).tou = s.tou := rfl
@[simp] theorem recount_tme (x : List Domain) (s : State) : (recount x s).tme = s.tme := rfl
@[simp] theorem recount_pbc (x : List Domain) (s : State) : (recount x s).pbc = s.pbc := rfl
@[simp] theorem recount_fd (x : List Domain) (s : State) : (recount x s).fd = s.fd := rfl
@[simp] theorem recount_pending (x : List Domain) (s : State) : (recount x s).pending = s.pending := rfl

/-! `forcedEnding` -/

@[simp] theorem forcedEnding_rc (t : Talk) (s : State) : (forcedEnding t s).rc = s.rc := by
  unfold forcedEnding; split <;> simp
@[simp] theorem forcedEnding_stu (t : Talk) (s : State) : (forcedEnding t s).stu = s.stu := by
  unfold forcedEnding; split <;> simp
@[simp] theorem forcedEnding_tt (t : Talk) (s : State) : (forcedEnding t s).tt = s.tt := by
  unfold forcedEnding; split <;> simp
@[simp] theorem forcedEnding_tou (t : Talk) (s : State) : (forcedEnding t s).tou = s.tou := by
  unfold forcedEnding; split <;> simp
@[simp] theorem forcedEnding_tme (t : Talk) (s : State) : (forcedEnding t s).tme = s.tme := by
  unfold forcedEnding; split <;> simp
@[simp] theorem forcedEnding_fd (t : Talk) (s : State) : (forcedEnding t s).fd = s.fd := by
  unfold forcedEnding; split <;> simp
@[simp] theorem forcedEnding_pending (t : Talk) (s : State) : (forcedEnding t s).pending = s.pending := by
  unfold forcedEnding; split <;> simp

/-! `cameraChange` -/

@[simp] theorem cameraChange_rc (c : Nat) (x : List Domain) (s : State) : (cameraChange c x s).rc = s.rc := by
  unfold cameraChange
  simp only []
  rw [foldl_keeps (fun x t => forcedEnding t x) State.rc (fun _ _ => by simp)]
  (repeat' split) <;> simp
@[simp] theorem cameraChange_stu (c : Nat) (x : List Domain) (s : State) : (cameraChange c x s).stu = s.stu := by
  unfold cameraChange
  simp only []
  rw [foldl_keeps (fun x t => forcedEnding t x) State.stu (fun _ _ => by simp)]
  (repeat' split) <;> simp
@[simp] theorem cameraChange_tt (c : Nat) (x : List Domain) (s : State) : (cameraChange c x s).tt = s.tt := by
  unfold cameraChange
  simp only []
  rw [foldl_keeps (fun x t => forcedEnding t x) State.tt (fun _ _ => by simp)]
  (repeat' split) <;> simp
@[simp] theorem cameraChange_tou (c : Nat) (x : List Domain) (s : State) : (cameraChange c x s).tou = s.tou := by
  unfold cameraChange
  simp only []
  rw [foldl_keeps (fun x t => forcedEnding t x) State.tou (fun _ _ => by simp)]
  (repeat' split) <;> simp
@[simp] theorem cameraChange_fd (c : Nat) (x : List Domain) (s : State) : (cameraChange c x s).fd = s.fd := by
  unfold cameraChange
  simp only []
  rw [foldl_keeps (fun x t => forcedEnding t x) State.fd (fun _ _ => by simp)]
  (repeat' split) <;> simp
@[simp] theorem cameraChange_pending (c : Nat) (x : List Domain) (s : State) : (cameraChange c x s).pending = s.pending := by
  unfold cameraChange
  simp only []
  rw [foldl_keeps (fun x t => forcedEnding t x) State.pending (fun _ _ => by simp)]
  (repeat' split) <;> simp

/-! `endSlot` -/

@[simp] theorem endSlot_rc (n : Nat) (s : State) : (endSlot n s).rc = s.rc := by simp [endSlot]
@[simp] theorem endSlot_stu (n : Nat) (s : State) : (endSlot n s).stu = s.stu := by simp [endSlot]
@[simp] theorem endSlot_tt (n : Nat) (s : State) : (endSlot n s).tt = s.tt := by simp [endSlot]
@[simp] theorem endSlot_tou (n : Nat) (s : State) : (endSlot n s).tou = s.tou := by simp [endSlot]
@[simp] theorem endSlot_pbc (n : Nat) (s : State) : (endSlot n s).pbc = s.pbc := by simp [endSlot]
@[simp] theorem endSlot_fd (n : Nat) (s : State) : (endSlot n s).fd = s.fd := by simp [endSlot]
@[simp] theorem endSlot_pending (n : Nat) (s : State) : (endSlot n s).pending = s.pending := by simp [endSlot]

/-! `writeIfb` -/

@[simp] theorem writeIfb_rc (n : Nat) (v : Option Ifb) (s : State) : (writeIfb n v s).rc = s.rc := by simp [writeIfb]
@[simp] theorem writeIfb_stu (n : Nat) (v : Option Ifb) (s : State) : (writeIfb n v s).stu = s.stu := by
  simp [writeIfb]
@[simp] theorem writeIfb_tt (n : Nat) (v : Option Ifb) (s : State) : (writeIfb n v s).tt = s.tt := by simp [writeIfb]
@[simp] theorem writeIfb_tou (n : Nat) (v : Option Ifb) (s : State) : (writeIfb n v s).tou = s.tou := by
  simp [writeIfb]
@[simp] theorem writeIfb_pbc (n : Nat) (v : Option Ifb) (s : State) : (writeIfb n v s).pbc = s.pbc := by
  simp [writeIfb]
@[simp] theorem writeIfb_fd (n : Nat) (v : Option Ifb) (s : State) : (writeIfb n v s).fd = s.fd := by simp [writeIfb]
@[simp] theorem writeIfb_pending (n : Nat) (v : Option Ifb) (s : State) : (writeIfb n v s).pending = s.pending := by
  simp [writeIfb]

end Sys2Proof.Machine
end

