-- ==== Sys2Proof/Laws/Tally.lean ====
section
/-! SUPPORT. What the operations over the tally outputs, the tracer and the panel lamps leave alone: one lemma for each block of the state that an
operation does not touch. -/

namespace Sys2Proof.Machine

/-! `driveAll` -/

@[simp] theorem driveAll_hlc (s : State) : (driveAll s).hlc = s.hlc := rfl
@[simp] theorem driveAll_rc (s : State) : (driveAll s).rc = s.rc := rfl
@[simp] theorem driveAll_stu (s : State) : (driveAll s).stu = s.stu := rfl
@[simp] theorem driveAll_tt (s : State) : (driveAll s).tt = s.tt := rfl
@[simp] theorem driveAll_tc (s : State) : (driveAll s).tc = s.tc := rfl
@[simp] theorem driveAll_tme (s : State) : (driveAll s).tme = s.tme := rfl
@[simp] theorem driveAll_pbc (s : State) : (driveAll s).pbc = s.pbc := rfl
@[simp] theorem driveAll_fd (s : State) : (driveAll s).fd = s.fd := rfl
@[simp] theorem driveAll_pending (s : State) : (driveAll s).pending = s.pending := rfl

/-! `evaluateLampFault` -/

@[simp] theorem evaluateLampFault_rc (s : State) : (evaluateLampFault s).rc = s.rc := by simp [evaluateLampFault]
@[simp] theorem evaluateLampFault_stu (s : State) : (evaluateLampFault s).stu = s.stu := by simp [evaluateLampFault]
@[simp] theorem evaluateLampFault_tt (s : State) : (evaluateLampFault s).tt = s.tt := by simp [evaluateLampFault]
@[simp] theorem evaluateLampFault_tc (s : State) : (evaluateLampFault s).tc = s.tc := by simp [evaluateLampFault]
@[simp] theorem evaluateLampFault_tme (s : State) : (evaluateLampFault s).tme = s.tme := by simp [evaluateLampFault]
@[simp] theorem evaluateLampFault_pbc (s : State) : (evaluateLampFault s).pbc = s.pbc := by simp [evaluateLampFault]
@[simp] theorem evaluateLampFault_fd (s : State) : (evaluateLampFault s).fd = s.fd := by simp [evaluateLampFault]
@[simp] theorem evaluateLampFault_pending (s : State) : (evaluateLampFault s).pending = s.pending := by
  simp [evaluateLampFault]

/-! `setFault` -/

@[simp] theorem setFault_rc (n : Nat) (f : LampFaultState) (s : State) : (setFault n f s).rc = s.rc := by
  simp [setFault]
@[simp] theorem setFault_stu (n : Nat) (f : LampFaultState) (s : State) : (setFault n f s).stu = s.stu := by
  simp [setFault]
@[simp] theorem setFault_tt (n : Nat) (f : LampFaultState) (s : State) : (setFault n f s).tt = s.tt := by
  simp [setFault]
@[simp] theorem setFault_tc (n : Nat) (f : LampFaultState) (s : State) : (setFault n f s).tc = s.tc := by
  simp [setFault]
@[simp] theorem setFault_tme (n : Nat) (f : LampFaultState) (s : State) : (setFault n f s).tme = s.tme := by
  simp [setFault]
@[simp] theorem setFault_pbc (n : Nat) (f : LampFaultState) (s : State) : (setFault n f s).pbc = s.pbc := by
  simp [setFault]
@[simp] theorem setFault_fd (n : Nat) (f : LampFaultState) (s : State) : (setFault n f s).fd = s.fd := by
  simp [setFault]
@[simp] theorem setFault_pending (n : Nat) (f : LampFaultState) (s : State) : (setFault n f s).pending = s.pending := by
  simp [setFault]

/-! `takeSample` -/

@[simp] theorem takeSample_rc (n : Nat) (b : Bool) (s : State) : (takeSample n b s).rc = s.rc := by
  unfold takeSample; (repeat' split) <;> simp
@[simp] theorem takeSample_stu (n : Nat) (b : Bool) (s : State) : (takeSample n b s).stu = s.stu := by
  unfold takeSample; (repeat' split) <;> simp
@[simp] theorem takeSample_tt (n : Nat) (b : Bool) (s : State) : (takeSample n b s).tt = s.tt := by
  unfold takeSample; (repeat' split) <;> simp
@[simp] theorem takeSample_tc (n : Nat) (b : Bool) (s : State) : (takeSample n b s).tc = s.tc := by
  unfold takeSample; (repeat' split) <;> simp
@[simp] theorem takeSample_tme (n : Nat) (b : Bool) (s : State) : (takeSample n b s).tme = s.tme := by
  unfold takeSample; (repeat' split) <;> simp
@[simp] theorem takeSample_pbc (n : Nat) (b : Bool) (s : State) : (takeSample n b s).pbc = s.pbc := by
  unfold takeSample; (repeat' split) <;> simp
@[simp] theorem takeSample_fd (n : Nat) (b : Bool) (s : State) : (takeSample n b s).fd = s.fd := by
  unfold takeSample; (repeat' split) <;> simp
@[simp] theorem takeSample_pending (n : Nat) (b : Bool) (s : State) : (takeSample n b s).pending = s.pending := by
  unfold takeSample; (repeat' split) <;> simp

/-! `takeOvercurrent` -/

@[simp] theorem takeOvercurrent_rc (n : Nat) (s : State) : (takeOvercurrent n s).rc = s.rc := by
  unfold takeOvercurrent; split <;> simp
@[simp] theorem takeOvercurrent_stu (n : Nat) (s : State) : (takeOvercurrent n s).stu = s.stu := by
  unfold takeOvercurrent; split <;> simp
@[simp] theorem takeOvercurrent_tt (n : Nat) (s : State) : (takeOvercurrent n s).tt = s.tt := by
  unfold takeOvercurrent; split <;> simp
@[simp] theorem takeOvercurrent_tc (n : Nat) (s : State) : (takeOvercurrent n s).tc = s.tc := by
  unfold takeOvercurrent; split <;> simp
@[simp] theorem takeOvercurrent_tme (n : Nat) (s : State) : (takeOvercurrent n s).tme = s.tme := by
  unfold takeOvercurrent; split <;> simp
@[simp] theorem takeOvercurrent_pbc (n : Nat) (s : State) : (takeOvercurrent n s).pbc = s.pbc := by
  unfold takeOvercurrent; split <;> simp
@[simp] theorem takeOvercurrent_fd (n : Nat) (s : State) : (takeOvercurrent n s).fd = s.fd := by
  unfold takeOvercurrent; split <;> simp
@[simp] theorem takeOvercurrent_pending (n : Nat) (s : State) : (takeOvercurrent n s).pending = s.pending := by
  unfold takeOvercurrent; split <;> simp

/-! `writeOutput` -/

@[simp] theorem writeOutput_rc (n : Nat) (v : Option OutputConfig) (s : State) : (writeOutput n v s).rc = s.rc := by
  simp [writeOutput]
@[simp] theorem writeOutput_stu (n : Nat) (v : Option OutputConfig) (s : State) : (writeOutput n v s).stu = s.stu := by
  simp [writeOutput]
@[simp] theorem writeOutput_tt (n : Nat) (v : Option OutputConfig) (s : State) : (writeOutput n v s).tt = s.tt := by
  simp [writeOutput]
@[simp] theorem writeOutput_tc (n : Nat) (v : Option OutputConfig) (s : State) : (writeOutput n v s).tc = s.tc := by
  simp [writeOutput]
@[simp] theorem writeOutput_tme (n : Nat) (v : Option OutputConfig) (s : State) : (writeOutput n v s).tme = s.tme := by
  simp [writeOutput]
@[simp] theorem writeOutput_pbc (n : Nat) (v : Option OutputConfig) (s : State) : (writeOutput n v s).pbc = s.pbc := by
  simp [writeOutput]
@[simp] theorem writeOutput_fd (n : Nat) (v : Option OutputConfig) (s : State) : (writeOutput n v s).fd = s.fd := by
  simp [writeOutput]
@[simp] theorem writeOutput_pending (n : Nat) (v : Option OutputConfig) (s : State) : (writeOutput n v s).pending = s.pending := by
  simp [writeOutput]

/-! `setHolders` -/

@[simp] theorem setHolders_hlc (x : List CallEntry) (s : State) : (setHolders x s).hlc = s.hlc := rfl
@[simp] theorem setHolders_rc (x : List CallEntry) (s : State) : (setHolders x s).rc = s.rc := rfl
@[simp] theorem setHolders_stu (x : List CallEntry) (s : State) : (setHolders x s).stu = s.stu := rfl
@[simp] theorem setHolders_tt (x : List CallEntry) (s : State) : (setHolders x s).tt = s.tt := rfl
@[simp] theorem setHolders_tc (x : List CallEntry) (s : State) : (setHolders x s).tc = s.tc := rfl
@[simp] theorem setHolders_tme (x : List CallEntry) (s : State) : (setHolders x s).tme = s.tme := rfl
@[simp] theorem setHolders_pbc (x : List CallEntry) (s : State) : (setHolders x s).pbc = s.pbc := rfl
@[simp] theorem setHolders_fd (x : List CallEntry) (s : State) : (setHolders x s).fd = s.fd := rfl
@[simp] theorem setHolders_pending (x : List CallEntry) (s : State) : (setHolders x s).pending = s.pending := rfl

/-! `callPress` -/

@[simp] theorem callPress_rc (p k c : Nat) (s : State) : (callPress p k c s).rc = s.rc := by
  unfold callPress; (repeat' split) <;> simp
@[simp] theorem callPress_stu (p k c : Nat) (s : State) : (callPress p k c s).stu = s.stu := by
  unfold callPress; (repeat' split) <;> simp
@[simp] theorem callPress_tt (p k c : Nat) (s : State) : (callPress p k c s).tt = s.tt := by
  unfold callPress; (repeat' split) <;> simp
@[simp] theorem callPress_tc (p k c : Nat) (s : State) : (callPress p k c s).tc = s.tc := by
  unfold callPress; (repeat' split) <;> simp
@[simp] theorem callPress_tme (p k c : Nat) (s : State) : (callPress p k c s).tme = s.tme := by
  unfold callPress; (repeat' split) <;> simp
@[simp] theorem callPress_fd (p k c : Nat) (s : State) : (callPress p k c s).fd = s.fd := by
  unfold callPress; (repeat' split) <;> simp
@[simp] theorem callPress_pending (p k c : Nat) (s : State) : (callPress p k c s).pending = s.pending := by
  unfold callPress; (repeat' split) <;> simp

/-! `callRelease` -/

@[simp] theorem callRelease_hlc (p k : Nat) (s : State) : (callRelease p k s).hlc = s.hlc := by
  unfold callRelease; split <;> rfl
@[simp] theorem callRelease_rc (p k : Nat) (s : State) : (callRelease p k s).rc = s.rc := by
  unfold callRelease; split <;> rfl
@[simp] theorem callRelease_stu (p k : Nat) (s : State) : (callRelease p k s).stu = s.stu := by
  unfold callRelease; split <;> rfl
@[simp] theorem callRelease_tt (p k : Nat) (s : State) : (callRelease p k s).tt = s.tt := by
  unfold callRelease; split <;> rfl
@[simp] theorem callRelease_tc (p k : Nat) (s : State) : (callRelease p k s).tc = s.tc := by
  unfold callRelease; split <;> rfl
@[simp] theorem callRelease_tme (p k : Nat) (s : State) : (callRelease p k s).tme = s.tme := by
  unfold callRelease; split <;> rfl
@[simp] theorem callRelease_pbc (p k : Nat) (s : State) : (callRelease p k s).pbc = s.pbc := by
  unfold callRelease; split <;> rfl
@[simp] theorem callRelease_fd (p k : Nat) (s : State) : (callRelease p k s).fd = s.fd := by
  unfold callRelease; split <;> rfl
@[simp] theorem callRelease_pending (p k : Nat) (s : State) : (callRelease p k s).pending = s.pending := by
  unfold callRelease; split <;> rfl

/-! `dropPanelCalls` -/

@[simp] theorem dropPanelCalls_hlc (p : Nat) (s : State) : (dropPanelCalls p s).hlc = s.hlc := by
  unfold dropPanelCalls; split <;> rfl
@[simp] theorem dropPanelCalls_rc (p : Nat) (s : State) : (dropPanelCalls p s).rc = s.rc := by
  unfold dropPanelCalls; split <;> rfl
@[simp] theorem dropPanelCalls_stu (p : Nat) (s : State) : (dropPanelCalls p s).stu = s.stu := by
  unfold dropPanelCalls; split <;> rfl
@[simp] theorem dropPanelCalls_tt (p : Nat) (s : State) : (dropPanelCalls p s).tt = s.tt := by
  unfold dropPanelCalls; split <;> rfl
@[simp] theorem dropPanelCalls_tc (p : Nat) (s : State) : (dropPanelCalls p s).tc = s.tc := by
  unfold dropPanelCalls; split <;> rfl
@[simp] theorem dropPanelCalls_tme (p : Nat) (s : State) : (dropPanelCalls p s).tme = s.tme := by
  unfold dropPanelCalls; split <;> rfl
@[simp] theorem dropPanelCalls_pbc (p : Nat) (s : State) : (dropPanelCalls p s).pbc = s.pbc := by
  unfold dropPanelCalls; split <;> rfl
@[simp] theorem dropPanelCalls_fd (p : Nat) (s : State) : (dropPanelCalls p s).fd = s.fd := by
  unfold dropPanelCalls; split <;> rfl
@[simp] theorem dropPanelCalls_pending (p : Nat) (s : State) : (dropPanelCalls p s).pending = s.pending := by
  unfold dropPanelCalls; split <;> rfl

/-! `dropAllCalls` -/

@[simp] theorem dropAllCalls_hlc (s : State) : (dropAllCalls s).hlc = s.hlc := by unfold dropAllCalls; split <;> rfl
@[simp] theorem dropAllCalls_rc (s : State) : (dropAllCalls s).rc = s.rc := by unfold dropAllCalls; split <;> rfl
@[simp] theorem dropAllCalls_stu (s : State) : (dropAllCalls s).stu = s.stu := by unfold dropAllCalls; split <;> rfl
@[simp] theorem dropAllCalls_tt (s : State) : (dropAllCalls s).tt = s.tt := by unfold dropAllCalls; split <;> rfl
@[simp] theorem dropAllCalls_tc (s : State) : (dropAllCalls s).tc = s.tc := by unfold dropAllCalls; split <;> rfl
@[simp] theorem dropAllCalls_tme (s : State) : (dropAllCalls s).tme = s.tme := by unfold dropAllCalls; split <;> rfl
@[simp] theorem dropAllCalls_pbc (s : State) : (dropAllCalls s).pbc = s.pbc := by unfold dropAllCalls; split <;> rfl
@[simp] theorem dropAllCalls_fd (s : State) : (dropAllCalls s).fd = s.fd := by unfold dropAllCalls; split <;> rfl
@[simp] theorem dropAllCalls_pending (s : State) : (dropAllCalls s).pending = s.pending := by
  unfold dropAllCalls; split <;> rfl

/-! `writeCamera` -/

@[simp] theorem writeCamera_hlc (c : Nat) (v : Option Camera) (s : State) : (writeCamera c v s).hlc = s.hlc := rfl
@[simp] theorem writeCamera_rc (c : Nat) (v : Option Camera) (s : State) : (writeCamera c v s).rc = s.rc := rfl
@[simp] theorem writeCamera_stu (c : Nat) (v : Option Camera) (s : State) : (writeCamera c v s).stu = s.stu := rfl
@[simp] theorem writeCamera_tt (c : Nat) (v : Option Camera) (s : State) : (writeCamera c v s).tt = s.tt := rfl
@[simp] theorem writeCamera_tc (c : Nat) (v : Option Camera) (s : State) : (writeCamera c v s).tc = s.tc := rfl
@[simp] theorem writeCamera_tme (c : Nat) (v : Option Camera) (s : State) : (writeCamera c v s).tme = s.tme := rfl
@[simp] theorem writeCamera_pbc (c : Nat) (v : Option Camera) (s : State) : (writeCamera c v s).pbc = s.pbc := rfl
@[simp] theorem writeCamera_fd (c : Nat) (v : Option Camera) (s : State) : (writeCamera c v s).fd = s.fd := rfl
@[simp] theorem writeCamera_pending (c : Nat) (v : Option Camera) (s : State) : (writeCamera c v s).pending = s.pending := rfl

/-! `retrace` -/

@[simp] theorem retrace_hlc (s : State) : (retrace s).hlc = s.hlc := rfl
@[simp] theorem retrace_rc (s : State) : (retrace s).rc = s.rc := rfl
@[simp] theorem retrace_stu (s : State) : (retrace s).stu = s.stu := rfl
@[simp] theorem retrace_tou (s : State) : (retrace s).tou = s.tou := rfl
@[simp] theorem retrace_tc (s : State) : (retrace s).tc = s.tc := rfl
@[simp] theorem retrace_tme (s : State) : (retrace s).tme = s.tme := rfl
@[simp] theorem retrace_pbc (s : State) : (retrace s).pbc = s.pbc := rfl
@[simp] theorem retrace_fd (s : State) : (retrace s).fd = s.fd := rfl
@[simp] theorem retrace_pending (s : State) : (retrace s).pending = s.pending := rfl

/-! `tallyChange` -/

@[simp] theorem tallyChange_rc (s : State) : (tallyChange s).rc = s.rc := by simp [tallyChange]
@[simp] theorem tallyChange_stu (s : State) : (tallyChange s).stu = s.stu := by simp [tallyChange]
@[simp] theorem tallyChange_tt (s : State) : (tallyChange s).tt = s.tt := by simp [tallyChange]
@[simp] theorem tallyChange_pbc (s : State) : (tallyChange s).pbc = s.pbc := by simp [tallyChange]
@[simp] theorem tallyChange_fd (s : State) : (tallyChange s).fd = s.fd := by simp [tallyChange]
@[simp] theorem tallyChange_pending (s : State) : (tallyChange s).pending = s.pending := by simp [tallyChange]

/-! `recomputeTally` -/

@[simp] theorem recomputeTally_rc (s : State) : (recomputeTally s).rc = s.rc := by
  unfold recomputeTally; simp only []; (repeat' split) <;> simp
@[simp] theorem recomputeTally_stu (s : State) : (recomputeTally s).stu = s.stu := by
  unfold recomputeTally; simp only []; (repeat' split) <;> simp
@[simp] theorem recomputeTally_pbc (s : State) : (recomputeTally s).pbc = s.pbc := by
  unfold recomputeTally; simp only []; (repeat' split) <;> simp
@[simp] theorem recomputeTally_fd (s : State) : (recomputeTally s).fd = s.fd := by
  unfold recomputeTally; simp only []; (repeat' split) <;> simp
@[simp] theorem recomputeTally_pending (s : State) : (recomputeTally s).pending = s.pending := by
  unfold recomputeTally; simp only []; (repeat' split) <;> simp

/-! `staleBridge` -/

@[simp] theorem staleBridge_hlc (p : Nat) (s : State) : (staleBridge p s).hlc = s.hlc := by
  unfold staleBridge
  rw [foldl_keeps _ State.hlc (fun x m => by split <;> simp)]
@[simp] theorem staleBridge_rc (p : Nat) (s : State) : (staleBridge p s).rc = s.rc := by
  unfold staleBridge
  rw [foldl_keeps _ State.rc (fun x m => by split <;> simp)]
@[simp] theorem staleBridge_stu (p : Nat) (s : State) : (staleBridge p s).stu = s.stu := by
  unfold staleBridge
  rw [foldl_keeps _ State.stu (fun x m => by split <;> simp)]
@[simp] theorem staleBridge_tou (p : Nat) (s : State) : (staleBridge p s).tou = s.tou := by
  unfold staleBridge
  rw [foldl_keeps _ State.tou (fun x m => by split <;> simp)]
@[simp] theorem staleBridge_tc (p : Nat) (s : State) : (staleBridge p s).tc = s.tc := by
  unfold staleBridge
  rw [foldl_keeps _ State.tc (fun x m => by split <;> simp)]
@[simp] theorem staleBridge_tme (p : Nat) (s : State) : (staleBridge p s).tme = s.tme := by
  unfold staleBridge
  rw [foldl_keeps _ State.tme (fun x m => by split <;> simp)]
@[simp] theorem staleBridge_pbc (p : Nat) (s : State) : (staleBridge p s).pbc = s.pbc := by
  unfold staleBridge
  rw [foldl_keeps _ State.pbc (fun x m => by split <;> simp)]
@[simp] theorem staleBridge_fd (p : Nat) (s : State) : (staleBridge p s).fd = s.fd := by
  unfold staleBridge
  rw [foldl_keeps _ State.fd (fun x m => by split <;> simp)]
@[simp] theorem staleBridge_pending (p : Nat) (s : State) : (staleBridge p s).pending = s.pending := by
  unfold staleBridge
  rw [foldl_keeps _ State.pending (fun x m => by split <;> simp)]

/-! `staleAllBridges` -/

@[simp] theorem staleAllBridges_hlc (s : State) : (staleAllBridges s).hlc = s.hlc := by
  unfold staleAllBridges
  rw [foldl_keeps _ State.hlc (fun x m => by split <;> simp)]
@[simp] theorem staleAllBridges_rc (s : State) : (staleAllBridges s).rc = s.rc := by
  unfold staleAllBridges
  rw [foldl_keeps _ State.rc (fun x m => by split <;> simp)]
@[simp] theorem staleAllBridges_stu (s : State) : (staleAllBridges s).stu = s.stu := by
  unfold staleAllBridges
  rw [foldl_keeps _ State.stu (fun x m => by split <;> simp)]
@[simp] theorem staleAllBridges_tou (s : State) : (staleAllBridges s).tou = s.tou := by
  unfold staleAllBridges
  rw [foldl_keeps _ State.tou (fun x m => by split <;> simp)]
@[simp] theorem staleAllBridges_tc (s : State) : (staleAllBridges s).tc = s.tc := by
  unfold staleAllBridges
  rw [foldl_keeps _ State.tc (fun x m => by split <;> simp)]
@[simp] theorem staleAllBridges_tme (s : State) : (staleAllBridges s).tme = s.tme := by
  unfold staleAllBridges
  rw [foldl_keeps _ State.tme (fun x m => by split <;> simp)]
@[simp] theorem staleAllBridges_pbc (s : State) : (staleAllBridges s).pbc = s.pbc := by
  unfold staleAllBridges
  rw [foldl_keeps _ State.pbc (fun x m => by split <;> simp)]
@[simp] theorem staleAllBridges_fd (s : State) : (staleAllBridges s).fd = s.fd := by
  unfold staleAllBridges
  rw [foldl_keeps _ State.fd (fun x m => by split <;> simp)]
@[simp] theorem staleAllBridges_pending (s : State) : (staleAllBridges s).pending = s.pending := by
  unfold staleAllBridges
  rw [foldl_keeps _ State.pending (fun x m => by split <;> simp)]

/-! `applyBusState` -/

@[simp] theorem applyBusState_rc (p b i : Nat) (s : State) : (applyBusState p b i s).rc = s.rc := by
  unfold applyBusState; (repeat' split) <;> simp
@[simp] theorem applyBusState_stu (p b i : Nat) (s : State) : (applyBusState p b i s).stu = s.stu := by
  unfold applyBusState; (repeat' split) <;> simp
@[simp] theorem applyBusState_pbc (p b i : Nat) (s : State) : (applyBusState p b i s).pbc = s.pbc := by
  unfold applyBusState; (repeat' split) <;> simp
@[simp] theorem applyBusState_fd (p b i : Nat) (s : State) : (applyBusState p b i s).fd = s.fd := by
  unfold applyBusState; (repeat' split) <;> simp
@[simp] theorem applyBusState_pending (p b i : Nat) (s : State) : (applyBusState p b i s).pending = s.pending := by
  unfold applyBusState; (repeat' split) <;> simp

/-! `relamp` -/

@[simp] theorem relamp_hlc (s : State) : (relamp s).hlc = s.hlc := rfl
@[simp] theorem relamp_rc (s : State) : (relamp s).rc = s.rc := rfl
@[simp] theorem relamp_stu (s : State) : (relamp s).stu = s.stu := rfl
@[simp] theorem relamp_tt (s : State) : (relamp s).tt = s.tt := rfl
@[simp] theorem relamp_tou (s : State) : (relamp s).tou = s.tou := rfl
@[simp] theorem relamp_tc (s : State) : (relamp s).tc = s.tc := rfl
@[simp] theorem relamp_tme (s : State) : (relamp s).tme = s.tme := rfl
@[simp] theorem relamp_fd (s : State) : (relamp s).fd = s.fd := rfl
@[simp] theorem relamp_pending (s : State) : (relamp s).pending = s.pending := rfl

end Sys2Proof.Machine
end

