-- ==== Sys2Proof/Laws/Router.lean ====
section
/-! SUPPORT. What the operations over the router and the switch window leave alone: one lemma for each block of the state that an
operation does not touch. -/

namespace Sys2Proof.Machine

/-! `rewriteProtects` -/

@[simp] theorem rewriteProtects_hlc (f : Protect → Protect) (s : State) : (rewriteProtects f s).hlc = s.hlc := by
  simp [rewriteProtects]
@[simp] theorem rewriteProtects_stu (f : Protect → Protect) (s : State) : (rewriteProtects f s).stu = s.stu := by
  simp [rewriteProtects]
@[simp] theorem rewriteProtects_tt (f : Protect → Protect) (s : State) : (rewriteProtects f s).tt = s.tt := by
  simp [rewriteProtects]
@[simp] theorem rewriteProtects_tou (f : Protect → Protect) (s : State) : (rewriteProtects f s).tou = s.tou := by
  simp [rewriteProtects]
@[simp] theorem rewriteProtects_tc (f : Protect → Protect) (s : State) : (rewriteProtects f s).tc = s.tc := by
  simp [rewriteProtects]
@[simp] theorem rewriteProtects_tme (f : Protect → Protect) (s : State) : (rewriteProtects f s).tme = s.tme := by
  simp [rewriteProtects]
@[simp] theorem rewriteProtects_pbc (f : Protect → Protect) (s : State) : (rewriteProtects f s).pbc = s.pbc := by
  simp [rewriteProtects]
@[simp] theorem rewriteProtects_fd (f : Protect → Protect) (s : State) : (rewriteProtects f s).fd = s.fd := by
  simp [rewriteProtects]
@[simp] theorem rewriteProtects_pending (f : Protect → Protect) (s : State) : (rewriteProtects f s).pending = s.pending := by
  simp [rewriteProtects]

/-! `evaluateFabric` -/

@[simp] theorem evaluateFabric_stu (s : State) : (evaluateFabric s).stu = s.stu := by simp [evaluateFabric]
@[simp] theorem evaluateFabric_tt (s : State) : (evaluateFabric s).tt = s.tt := by simp [evaluateFabric]
@[simp] theorem evaluateFabric_tou (s : State) : (evaluateFabric s).tou = s.tou := by simp [evaluateFabric]
@[simp] theorem evaluateFabric_tc (s : State) : (evaluateFabric s).tc = s.tc := by simp [evaluateFabric]
@[simp] theorem evaluateFabric_tme (s : State) : (evaluateFabric s).tme = s.tme := by simp [evaluateFabric]
@[simp] theorem evaluateFabric_pbc (s : State) : (evaluateFabric s).pbc = s.pbc := by simp [evaluateFabric]
@[simp] theorem evaluateFabric_fd (s : State) : (evaluateFabric s).fd = s.fd := by simp [evaluateFabric]
@[simp] theorem evaluateFabric_pending (s : State) : (evaluateFabric s).pending = s.pending := by
  simp [evaluateFabric]

/-! `routeChange` -/

@[simp] theorem routeChange_rc (s : State) : (routeChange s).rc = s.rc := by simp [routeChange]
@[simp] theorem routeChange_stu (s : State) : (routeChange s).stu = s.stu := by simp [routeChange]
@[simp] theorem routeChange_fd (s : State) : (routeChange s).fd = s.fd := by simp [routeChange]
@[simp] theorem routeChange_pending (s : State) : (routeChange s).pending = s.pending := by simp [routeChange]

/-! `writeLevels` -/

@[simp] theorem writeLevels_hlc (l : Level) (d : Nat) (x : List LevelState) (s : State) : (writeLevels l d x s).hlc = s.hlc := by
  induction x generalizing d s with
  | nil => rfl
  | cons v vs ih => unfold writeLevels; simp [ih]
@[simp] theorem writeLevels_stu (l : Level) (d : Nat) (x : List LevelState) (s : State) : (writeLevels l d x s).stu = s.stu := by
  induction x generalizing d s with
  | nil => rfl
  | cons v vs ih => unfold writeLevels; simp [ih]
@[simp] theorem writeLevels_tt (l : Level) (d : Nat) (x : List LevelState) (s : State) : (writeLevels l d x s).tt = s.tt := by
  induction x generalizing d s with
  | nil => rfl
  | cons v vs ih => unfold writeLevels; simp [ih]
@[simp] theorem writeLevels_tou (l : Level) (d : Nat) (x : List LevelState) (s : State) : (writeLevels l d x s).tou = s.tou := by
  induction x generalizing d s with
  | nil => rfl
  | cons v vs ih => unfold writeLevels; simp [ih]
@[simp] theorem writeLevels_tc (l : Level) (d : Nat) (x : List LevelState) (s : State) : (writeLevels l d x s).tc = s.tc := by
  induction x generalizing d s with
  | nil => rfl
  | cons v vs ih => unfold writeLevels; simp [ih]
@[simp] theorem writeLevels_tme (l : Level) (d : Nat) (x : List LevelState) (s : State) : (writeLevels l d x s).tme = s.tme := by
  induction x generalizing d s with
  | nil => rfl
  | cons v vs ih => unfold writeLevels; simp [ih]
@[simp] theorem writeLevels_pbc (l : Level) (d : Nat) (x : List LevelState) (s : State) : (writeLevels l d x s).pbc = s.pbc := by
  induction x generalizing d s with
  | nil => rfl
  | cons v vs ih => unfold writeLevels; simp [ih]
@[simp] theorem writeLevels_fd (l : Level) (d : Nat) (x : List LevelState) (s : State) : (writeLevels l d x s).fd = s.fd := by
  induction x generalizing d s with
  | nil => rfl
  | cons v vs ih => unfold writeLevels; simp [ih]
@[simp] theorem writeLevels_pending (l : Level) (d : Nat) (x : List LevelState) (s : State) : (writeLevels l d x s).pending = s.pending := by
  induction x generalizing d s with
  | nil => rfl
  | cons v vs ih => unfold writeLevels; simp [ih]

/-! `mapDevice` -/

@[simp] theorem mapDevice_hlc (n : Nat) (a : FabricArgs) (s : State) : (mapDevice n a s).hlc = s.hlc := by
  simp [mapDevice]
@[simp] theorem mapDevice_stu (n : Nat) (a : FabricArgs) (s : State) : (mapDevice n a s).stu = s.stu := by
  simp [mapDevice]
@[simp] theorem mapDevice_tt (n : Nat) (a : FabricArgs) (s : State) : (mapDevice n a s).tt = s.tt := by
  simp [mapDevice]
@[simp] theorem mapDevice_tou (n : Nat) (a : FabricArgs) (s : State) : (mapDevice n a s).tou = s.tou := by
  simp [mapDevice]
@[simp] theorem mapDevice_tc (n : Nat) (a : FabricArgs) (s : State) : (mapDevice n a s).tc = s.tc := by
  simp [mapDevice]
@[simp] theorem mapDevice_tme (n : Nat) (a : FabricArgs) (s : State) : (mapDevice n a s).tme = s.tme := by
  simp [mapDevice]
@[simp] theorem mapDevice_pbc (n : Nat) (a : FabricArgs) (s : State) : (mapDevice n a s).pbc = s.pbc := by
  simp [mapDevice]
@[simp] theorem mapDevice_fd (n : Nat) (a : FabricArgs) (s : State) : (mapDevice n a s).fd = s.fd := by
  simp [mapDevice]
@[simp] theorem mapDevice_pending (n : Nat) (a : FabricArgs) (s : State) : (mapDevice n a s).pending = s.pending := by
  simp [mapDevice]

/-! `retryDevice` -/

@[simp] theorem retryDevice_stu (n : Nat) (v : Device) (s : State) : (retryDevice n v s).stu = s.stu := by
  simp [retryDevice]
@[simp] theorem retryDevice_tt (n : Nat) (v : Device) (s : State) : (retryDevice n v s).tt = s.tt := by
  simp [retryDevice]
@[simp] theorem retryDevice_tou (n : Nat) (v : Device) (s : State) : (retryDevice n v s).tou = s.tou := by
  simp [retryDevice]
@[simp] theorem retryDevice_tc (n : Nat) (v : Device) (s : State) : (retryDevice n v s).tc = s.tc := by
  simp [retryDevice]
@[simp] theorem retryDevice_tme (n : Nat) (v : Device) (s : State) : (retryDevice n v s).tme = s.tme := by
  simp [retryDevice]
@[simp] theorem retryDevice_pbc (n : Nat) (v : Device) (s : State) : (retryDevice n v s).pbc = s.pbc := by
  simp [retryDevice]
@[simp] theorem retryDevice_fd (n : Nat) (v : Device) (s : State) : (retryDevice n v s).fd = s.fd := by
  simp [retryDevice]
@[simp] theorem retryDevice_pending (n : Nat) (v : Device) (s : State) : (retryDevice n v s).pending = s.pending := by
  simp [retryDevice]

/-! `readbackDone` -/

@[simp] theorem readbackDone_rc (k : ReadbackKind) (s : State) : (readbackDone k s).rc = s.rc := by
  unfold readbackDone; simp only []; split <;> simp
@[simp] theorem readbackDone_stu (k : ReadbackKind) (s : State) : (readbackDone k s).stu = s.stu := by
  unfold readbackDone; simp only []; split <;> simp
@[simp] theorem readbackDone_tt (k : ReadbackKind) (s : State) : (readbackDone k s).tt = s.tt := by
  unfold readbackDone; simp only []; split <;> simp
@[simp] theorem readbackDone_tou (k : ReadbackKind) (s : State) : (readbackDone k s).tou = s.tou := by
  unfold readbackDone; simp only []; split <;> simp
@[simp] theorem readbackDone_tc (k : ReadbackKind) (s : State) : (readbackDone k s).tc = s.tc := by
  unfold readbackDone; simp only []; split <;> simp
@[simp] theorem readbackDone_tme (k : ReadbackKind) (s : State) : (readbackDone k s).tme = s.tme := by
  unfold readbackDone; simp only []; split <;> simp
@[simp] theorem readbackDone_pbc (k : ReadbackKind) (s : State) : (readbackDone k s).pbc = s.pbc := by
  unfold readbackDone; simp only []; split <;> simp
@[simp] theorem readbackDone_fd (k : ReadbackKind) (s : State) : (readbackDone k s).fd = s.fd := by
  unfold readbackDone; simp only []; split <;> simp
@[simp] theorem readbackDone_pending (k : ReadbackKind) (s : State) : (readbackDone k s).pending = s.pending := by
  unfold readbackDone; simp only []; split <;> simp

/-! `endReadback` -/

@[simp] theorem endReadback_stu (n : Nat) (v : Device) (k : ReadbackKind) (p : DevicePhase) (x : List LevelState) (s : State) : (endReadback n v k p x s).stu = s.stu := by
  simp [endReadback]
@[simp] theorem endReadback_fd (n : Nat) (v : Device) (k : ReadbackKind) (p : DevicePhase) (x : List LevelState) (s : State) : (endReadback n v k p x s).fd = s.fd := by
  simp [endReadback]
@[simp] theorem endReadback_pending (n : Nat) (v : Device) (k : ReadbackKind) (p : DevicePhase) (x : List LevelState) (s : State) : (endReadback n v k p x s).pending = s.pending := by
  simp [endReadback]

/-! `completeReadback` -/

@[simp] theorem completeReadback_stu (n : Nat) (x : List Nat) (s : State) : (completeReadback n x s).stu = s.stu := by
  unfold completeReadback; (repeat' split) <;> simp
@[simp] theorem completeReadback_fd (n : Nat) (x : List Nat) (s : State) : (completeReadback n x s).fd = s.fd := by
  unfold completeReadback; (repeat' split) <;> simp
@[simp] theorem completeReadback_pending (n : Nat) (x : List Nat) (s : State) : (completeReadback n x s).pending = s.pending := by
  unfold completeReadback; (repeat' split) <;> simp

/-! `failReadback` -/

@[simp] theorem failReadback_stu (n : Nat) (s : State) : (failReadback n s).stu = s.stu := by
  unfold failReadback; (repeat' split) <;> simp
@[simp] theorem failReadback_fd (n : Nat) (s : State) : (failReadback n s).fd = s.fd := by
  unfold failReadback; (repeat' split) <;> simp
@[simp] theorem failReadback_pending (n : Nat) (s : State) : (failReadback n s).pending = s.pending := by
  unfold failReadback; (repeat' split) <;> simp

/-! `endFiring` -/

@[simp] theorem endFiring_rc (f : Firing) (s : State) : (endFiring f s).rc = s.rc := by
  unfold endFiring; split <;> rfl
@[simp] theorem endFiring_stu (f : Firing) (s : State) : (endFiring f s).stu = s.stu := by
  unfold endFiring; split <;> rfl
@[simp] theorem endFiring_tt (f : Firing) (s : State) : (endFiring f s).tt = s.tt := by
  unfold endFiring; split <;> rfl
@[simp] theorem endFiring_tou (f : Firing) (s : State) : (endFiring f s).tou = s.tou := by
  unfold endFiring; split <;> rfl
@[simp] theorem endFiring_tc (f : Firing) (s : State) : (endFiring f s).tc = s.tc := by
  unfold endFiring; split <;> rfl
@[simp] theorem endFiring_tme (f : Firing) (s : State) : (endFiring f s).tme = s.tme := by
  unfold endFiring; split <;> rfl
@[simp] theorem endFiring_pbc (f : Firing) (s : State) : (endFiring f s).pbc = s.pbc := by
  unfold endFiring; split <;> rfl
@[simp] theorem endFiring_pending (f : Firing) (s : State) : (endFiring f s).pending = s.pending := by
  unfold endFiring; split <;> rfl

/-! `endSuperseded` -/

@[simp] theorem endSuperseded_rc (g h : TakeGroup) (s : State) : (endSuperseded g h s).rc = s.rc := by
  unfold endSuperseded; (repeat' split) <;> simp
@[simp] theorem endSuperseded_stu (g h : TakeGroup) (s : State) : (endSuperseded g h s).stu = s.stu := by
  unfold endSuperseded; (repeat' split) <;> simp
@[simp] theorem endSuperseded_tt (g h : TakeGroup) (s : State) : (endSuperseded g h s).tt = s.tt := by
  unfold endSuperseded; (repeat' split) <;> simp
@[simp] theorem endSuperseded_tou (g h : TakeGroup) (s : State) : (endSuperseded g h s).tou = s.tou := by
  unfold endSuperseded; (repeat' split) <;> simp
@[simp] theorem endSuperseded_tc (g h : TakeGroup) (s : State) : (endSuperseded g h s).tc = s.tc := by
  unfold endSuperseded; (repeat' split) <;> simp
@[simp] theorem endSuperseded_tme (g h : TakeGroup) (s : State) : (endSuperseded g h s).tme = s.tme := by
  unfold endSuperseded; (repeat' split) <;> simp
@[simp] theorem endSuperseded_pbc (g h : TakeGroup) (s : State) : (endSuperseded g h s).pbc = s.pbc := by
  unfold endSuperseded; (repeat' split) <;> simp
@[simp] theorem endSuperseded_pending (g h : TakeGroup) (s : State) : (endSuperseded g h s).pending = s.pending := by
  unfold endSuperseded; (repeat' split) <;> simp

/-! `supersede` -/

@[simp] theorem supersede_stu (d : Nat) (m : LevelMask) (s : State) : (supersede d m s).stu = s.stu := by
  unfold supersede; simp only []
  rw [foldl_keeps _ State.stu (fun x g => by simp)]
@[simp] theorem supersede_tt (d : Nat) (m : LevelMask) (s : State) : (supersede d m s).tt = s.tt := by
  unfold supersede; simp only []
  rw [foldl_keeps _ State.tt (fun x g => by simp)]
@[simp] theorem supersede_tou (d : Nat) (m : LevelMask) (s : State) : (supersede d m s).tou = s.tou := by
  unfold supersede; simp only []
  rw [foldl_keeps _ State.tou (fun x g => by simp)]
@[simp] theorem supersede_tc (d : Nat) (m : LevelMask) (s : State) : (supersede d m s).tc = s.tc := by
  unfold supersede; simp only []
  rw [foldl_keeps _ State.tc (fun x g => by simp)]
@[simp] theorem supersede_tme (d : Nat) (m : LevelMask) (s : State) : (supersede d m s).tme = s.tme := by
  unfold supersede; simp only []
  rw [foldl_keeps _ State.tme (fun x g => by simp)]
@[simp] theorem supersede_pbc (d : Nat) (m : LevelMask) (s : State) : (supersede d m s).pbc = s.pbc := by
  unfold supersede; simp only []
  rw [foldl_keeps _ State.pbc (fun x g => by simp)]
@[simp] theorem supersede_pending (d : Nat) (m : LevelMask) (s : State) : (supersede d m s).pending = s.pending := by
  unfold supersede; simp only []
  rw [foldl_keeps _ State.pending (fun x g => by simp)]

/-! `joinQueue` -/

@[simp] theorem joinQueue_hlc (g : TakeGroup) (s : State) : (joinQueue g s).hlc = s.hlc := rfl
@[simp] theorem joinQueue_stu (g : TakeGroup) (s : State) : (joinQueue g s).stu = s.stu := rfl
@[simp] theorem joinQueue_tt (g : TakeGroup) (s : State) : (joinQueue g s).tt = s.tt := rfl
@[simp] theorem joinQueue_tou (g : TakeGroup) (s : State) : (joinQueue g s).tou = s.tou := rfl
@[simp] theorem joinQueue_tc (g : TakeGroup) (s : State) : (joinQueue g s).tc = s.tc := rfl
@[simp] theorem joinQueue_tme (g : TakeGroup) (s : State) : (joinQueue g s).tme = s.tme := rfl
@[simp] theorem joinQueue_pbc (g : TakeGroup) (s : State) : (joinQueue g s).pbc = s.pbc := rfl
@[simp] theorem joinQueue_fd (g : TakeGroup) (s : State) : (joinQueue g s).fd = s.fd := rfl
@[simp] theorem joinQueue_pending (g : TakeGroup) (s : State) : (joinQueue g s).pending = s.pending := rfl

/-! `applyWrite` -/

@[simp] theorem applyWrite_hlc (s : State) (w : Write) : (applyWrite s w).hlc = s.hlc := by
  unfold applyWrite; simp only []; (repeat' split) <;> simp
@[simp] theorem applyWrite_stu (s : State) (w : Write) : (applyWrite s w).stu = s.stu := by
  unfold applyWrite; simp only []; (repeat' split) <;> simp
@[simp] theorem applyWrite_tt (s : State) (w : Write) : (applyWrite s w).tt = s.tt := by
  unfold applyWrite; simp only []; (repeat' split) <;> simp
@[simp] theorem applyWrite_tou (s : State) (w : Write) : (applyWrite s w).tou = s.tou := by
  unfold applyWrite; simp only []; (repeat' split) <;> simp
@[simp] theorem applyWrite_tc (s : State) (w : Write) : (applyWrite s w).tc = s.tc := by
  unfold applyWrite; simp only []; (repeat' split) <;> simp
@[simp] theorem applyWrite_tme (s : State) (w : Write) : (applyWrite s w).tme = s.tme := by
  unfold applyWrite; simp only []; (repeat' split) <;> simp
@[simp] theorem applyWrite_pbc (s : State) (w : Write) : (applyWrite s w).pbc = s.pbc := by
  unfold applyWrite; simp only []; (repeat' split) <;> simp
@[simp] theorem applyWrite_fd (s : State) (w : Write) : (applyWrite s w).fd = s.fd := by
  unfold applyWrite; simp only []; (repeat' split) <;> simp
@[simp] theorem applyWrite_pending (s : State) (w : Write) : (applyWrite s w).pending = s.pending := by
  unfold applyWrite; simp only []; (repeat' split) <;> simp

/-! `reportTake` -/

@[simp] theorem reportTake_rc (ws : List Write) (s : State) (x : Drawn) : (reportTake ws s x).rc = s.rc := by
  unfold reportTake; split <;> simp
@[simp] theorem reportTake_stu (ws : List Write) (s : State) (x : Drawn) : (reportTake ws s x).stu = s.stu := by
  unfold reportTake; split <;> simp
@[simp] theorem reportTake_tt (ws : List Write) (s : State) (x : Drawn) : (reportTake ws s x).tt = s.tt := by
  unfold reportTake; split <;> simp
@[simp] theorem reportTake_tou (ws : List Write) (s : State) (x : Drawn) : (reportTake ws s x).tou = s.tou := by
  unfold reportTake; split <;> simp
@[simp] theorem reportTake_tc (ws : List Write) (s : State) (x : Drawn) : (reportTake ws s x).tc = s.tc := by
  unfold reportTake; split <;> simp
@[simp] theorem reportTake_tme (ws : List Write) (s : State) (x : Drawn) : (reportTake ws s x).tme = s.tme := by
  unfold reportTake; split <;> simp
@[simp] theorem reportTake_fd (ws : List Write) (s : State) (x : Drawn) : (reportTake ws s x).fd = s.fd := by
  unfold reportTake; split <;> simp
@[simp] theorem reportTake_pending (ws : List Write) (s : State) (x : Drawn) : (reportTake ws s x).pending = s.pending := by
  unfold reportTake; split <;> simp

/-! `reportGroup` -/

@[simp] theorem reportGroup_rc (ws : List Write) (s : State) (g : DrawnGroup) : (reportGroup ws s g).rc = s.rc := by
  unfold reportGroup; split
  · rw [foldl_keeps _ State.rc (fun x g => by simp)]
  · simp
@[simp] theorem reportGroup_stu (ws : List Write) (s : State) (g : DrawnGroup) : (reportGroup ws s g).stu = s.stu := by
  unfold reportGroup; split
  · rw [foldl_keeps _ State.stu (fun x g => by simp)]
  · simp
@[simp] theorem reportGroup_tt (ws : List Write) (s : State) (g : DrawnGroup) : (reportGroup ws s g).tt = s.tt := by
  unfold reportGroup; split
  · rw [foldl_keeps _ State.tt (fun x g => by simp)]
  · simp
@[simp] theorem reportGroup_tou (ws : List Write) (s : State) (g : DrawnGroup) : (reportGroup ws s g).tou = s.tou := by
  unfold reportGroup; split
  · rw [foldl_keeps _ State.tou (fun x g => by simp)]
  · simp
@[simp] theorem reportGroup_tc (ws : List Write) (s : State) (g : DrawnGroup) : (reportGroup ws s g).tc = s.tc := by
  unfold reportGroup; split
  · rw [foldl_keeps _ State.tc (fun x g => by simp)]
  · simp
@[simp] theorem reportGroup_tme (ws : List Write) (s : State) (g : DrawnGroup) : (reportGroup ws s g).tme = s.tme := by
  unfold reportGroup; split
  · rw [foldl_keeps _ State.tme (fun x g => by simp)]
  · simp
@[simp] theorem reportGroup_pending (ws : List Write) (s : State) (g : DrawnGroup) : (reportGroup ws s g).pending = s.pending := by
  unfold reportGroup; split
  · rw [foldl_keeps _ State.pending (fun x g => by simp)]
  · simp

/-! `beginExchanges` -/

@[simp] theorem beginExchanges_hlc (s : State) : (beginExchanges s).hlc = s.hlc := rfl
@[simp] theorem beginExchanges_stu (s : State) : (beginExchanges s).stu = s.stu := rfl
@[simp] theorem beginExchanges_tt (s : State) : (beginExchanges s).tt = s.tt := rfl
@[simp] theorem beginExchanges_tou (s : State) : (beginExchanges s).tou = s.tou := rfl
@[simp] theorem beginExchanges_tc (s : State) : (beginExchanges s).tc = s.tc := rfl
@[simp] theorem beginExchanges_tme (s : State) : (beginExchanges s).tme = s.tme := rfl
@[simp] theorem beginExchanges_pbc (s : State) : (beginExchanges s).pbc = s.pbc := rfl
@[simp] theorem beginExchanges_fd (s : State) : (beginExchanges s).fd = s.fd := rfl
@[simp] theorem beginExchanges_pending (s : State) : (beginExchanges s).pending = s.pending := rfl

/-! `closeWindow` -/

@[simp] theorem closeWindow_stu (w : Window) (s : State) : (closeWindow w s).stu = s.stu := by
  unfold closeWindow; simp only []
  split <;> simp [foldl_keeps _ State.stu (fun x w => by simp : ∀ x w, (applyWrite x w).stu = x.stu), foldl_keeps _ State.stu (fun x g => by simp : ∀ x g, (reportGroup _ x g).stu = x.stu)]
@[simp] theorem closeWindow_pending (w : Window) (s : State) : (closeWindow w s).pending = s.pending := by
  unfold closeWindow; simp only []
  split <;> simp [foldl_keeps _ State.pending (fun x w => by simp : ∀ x w, (applyWrite x w).pending = x.pending), foldl_keeps _ State.pending (fun x g => by simp : ∀ x g, (reportGroup _ x g).pending = x.pending)]

/-! `openWindow` -/

@[simp] theorem openWindow_stu (s : State) : (openWindow s).stu = s.stu := by
  unfold openWindow; simp only []; split <;> simp
@[simp] theorem openWindow_pending (s : State) : (openWindow s).pending = s.pending := by
  unfold openWindow; simp only []; split <;> simp

/-! `switchPoint` -/

@[simp] theorem switchPoint_stu (s : State) : (switchPoint s).stu = s.stu := by
  unfold switchPoint; (repeat' split) <;> simp
@[simp] theorem switchPoint_pending (s : State) : (switchPoint s).pending = s.pending := by
  unfold switchPoint; (repeat' split) <;> simp

/-! `takeAnswer` -/

@[simp] theorem takeAnswer_stu (n d : Nat) (l : Level) (a : Bool) (s : State) : (takeAnswer n d l a s).stu = s.stu := by
  unfold takeAnswer; simp only []; (repeat' split) <;> simp
@[simp] theorem takeAnswer_pending (n d : Nat) (l : Level) (a : Bool) (s : State) : (takeAnswer n d l a s).pending = s.pending := by
  unfold takeAnswer; simp only []; (repeat' split) <;> simp

/-! `expireWindow` -/

@[simp] theorem expireWindow_stu (s : State) : (expireWindow s).stu = s.stu := by unfold expireWindow; split <;> simp
@[simp] theorem expireWindow_pending (s : State) : (expireWindow s).pending = s.pending := by
  unfold expireWindow; split <;> simp

/-! `setTiming` -/

@[simp] theorem setTiming_rc (v : SwitchTiming) (s : State) : (setTiming v s).rc = s.rc := by simp [setTiming]
@[simp] theorem setTiming_tt (v : SwitchTiming) (s : State) : (setTiming v s).tt = s.tt := by simp [setTiming]
@[simp] theorem setTiming_tou (v : SwitchTiming) (s : State) : (setTiming v s).tou = s.tou := by simp [setTiming]
@[simp] theorem setTiming_tc (v : SwitchTiming) (s : State) : (setTiming v s).tc = s.tc := by simp [setTiming]
@[simp] theorem setTiming_tme (v : SwitchTiming) (s : State) : (setTiming v s).tme = s.tme := by simp [setTiming]
@[simp] theorem setTiming_pbc (v : SwitchTiming) (s : State) : (setTiming v s).pbc = s.pbc := by simp [setTiming]
@[simp] theorem setTiming_fd (v : SwitchTiming) (s : State) : (setTiming v s).fd = s.fd := by simp [setTiming]
@[simp] theorem setTiming_pending (v : SwitchTiming) (s : State) : (setTiming v s).pending = s.pending := by
  simp [setTiming]

/-! `changeFamily` -/

@[simp] theorem changeFamily_rc (f : FrameFamily) (s : State) : (changeFamily f s).rc = s.rc := by
  unfold changeFamily; split <;> simp
@[simp] theorem changeFamily_tt (f : FrameFamily) (s : State) : (changeFamily f s).tt = s.tt := by
  unfold changeFamily; split <;> simp
@[simp] theorem changeFamily_tou (f : FrameFamily) (s : State) : (changeFamily f s).tou = s.tou := by
  unfold changeFamily; split <;> simp
@[simp] theorem changeFamily_tc (f : FrameFamily) (s : State) : (changeFamily f s).tc = s.tc := by
  unfold changeFamily; split <;> simp
@[simp] theorem changeFamily_tme (f : FrameFamily) (s : State) : (changeFamily f s).tme = s.tme := by
  unfold changeFamily; split <;> simp
@[simp] theorem changeFamily_pbc (f : FrameFamily) (s : State) : (changeFamily f s).pbc = s.pbc := by
  unfold changeFamily; split <;> simp
@[simp] theorem changeFamily_fd (f : FrameFamily) (s : State) : (changeFamily f s).fd = s.fd := by
  unfold changeFamily; split <;> simp
@[simp] theorem changeFamily_pending (f : FrameFamily) (s : State) : (changeFamily f s).pending = s.pending := by
  unfold changeFamily; split <;> simp

/-! `acceptPulse` -/

@[simp] theorem acceptPulse_pending (n : Nat) (s : State) : (acceptPulse n s).pending = s.pending := by
  simp [acceptPulse]

/-! `pulse` -/

@[simp] theorem pulse_pending (n : Nat) (s : State) : (pulse n s).pending = s.pending := by
  unfold pulse; (repeat' split) <;> simp

/-! `loseReference` -/

@[simp] theorem loseReference_pending (s : State) : (loseReference s).pending = s.pending := by
  unfold loseReference; split <;> simp

/-! `flywheel` -/

@[simp] theorem flywheel_pending (s : State) : (flywheel s).pending = s.pending := by unfold flywheel; split <;> simp

end Sys2Proof.Machine
end

