-- ==== Sys2Proof/Laws/Panels.lean ====
section
/-! SUPPORT. What the operations over the panels, their keys and the panel bus leave alone: one lemma for each block of the state that an
operation does not touch. -/

namespace Sys2Proof.Machine

/-! `offerSystemKey` -/

@[simp] theorem offerSystemKey_rc (e : SystemKeyEntry) (s : State) : (offerSystemKey e s).rc = s.rc := by
  unfold offerSystemKey; split <;> simp
@[simp] theorem offerSystemKey_stu (e : SystemKeyEntry) (s : State) : (offerSystemKey e s).stu = s.stu := by
  unfold offerSystemKey; split <;> simp
@[simp] theorem offerSystemKey_tt (e : SystemKeyEntry) (s : State) : (offerSystemKey e s).tt = s.tt := by
  unfold offerSystemKey; split <;> simp
@[simp] theorem offerSystemKey_tou (e : SystemKeyEntry) (s : State) : (offerSystemKey e s).tou = s.tou := by
  unfold offerSystemKey; split <;> simp
@[simp] theorem offerSystemKey_tc (e : SystemKeyEntry) (s : State) : (offerSystemKey e s).tc = s.tc := by
  unfold offerSystemKey; split <;> simp
@[simp] theorem offerSystemKey_tme (e : SystemKeyEntry) (s : State) : (offerSystemKey e s).tme = s.tme := by
  unfold offerSystemKey; split <;> simp
@[simp] theorem offerSystemKey_pbc (e : SystemKeyEntry) (s : State) : (offerSystemKey e s).pbc = s.pbc := by
  unfold offerSystemKey; split <;> simp
@[simp] theorem offerSystemKey_pending (e : SystemKeyEntry) (s : State) : (offerSystemKey e s).pending = s.pending := by
  unfold offerSystemKey; split <;> simp

/-! `panelTake` -/

theorem offerTake_stu {e : Entry} {s t : State} (h : offerTake e s = .ok t) : t.stu = s.stu := by
  unfold offerTake at h; split at h
  · exact absurd h (by simp)
  · split at h
    · exact absurd h (by simp)
    · cases h; simp

theorem acceptEntries_stu (es own : List Entry) (s : State) : (acceptEntries es own s).2.stu = s.stu := by
  induction es generalizing own s with
  | nil => rfl
  | cons e es ih => unfold acceptEntries; simp [ih]

theorem fireSalvo_stu {n : Nat} {o : Origin} {f : Bool} {s t : State} (h : fireSalvo n o f s = .accepted t) : t.stu = s.stu := by
  unfold fireSalvo at h; simp only [] at h; split at h
  · exact absurd h (by simp)
  · split at h
    · exact absurd h (by simp)
    · cases h; simp [acceptEntries_stu]

theorem offerTake_tt {e : Entry} {s t : State} (h : offerTake e s = .ok t) : t.tt = s.tt := by
  unfold offerTake at h; split at h
  · exact absurd h (by simp)
  · split at h
    · exact absurd h (by simp)
    · cases h; simp

theorem acceptEntries_tt (es own : List Entry) (s : State) : (acceptEntries es own s).2.tt = s.tt := by
  induction es generalizing own s with
  | nil => rfl
  | cons e es ih => unfold acceptEntries; simp [ih]

theorem fireSalvo_tt {n : Nat} {o : Origin} {f : Bool} {s t : State} (h : fireSalvo n o f s = .accepted t) : t.tt = s.tt := by
  unfold fireSalvo at h; simp only [] at h; split at h
  · exact absurd h (by simp)
  · split at h
    · exact absurd h (by simp)
    · cases h; simp [acceptEntries_tt]

theorem offerTake_tou {e : Entry} {s t : State} (h : offerTake e s = .ok t) : t.tou = s.tou := by
  unfold offerTake at h; split at h
  · exact absurd h (by simp)
  · split at h
    · exact absurd h (by simp)
    · cases h; simp

theorem acceptEntries_tou (es own : List Entry) (s : State) : (acceptEntries es own s).2.tou = s.tou := by
  induction es generalizing own s with
  | nil => rfl
  | cons e es ih => unfold acceptEntries; simp [ih]

theorem fireSalvo_tou {n : Nat} {o : Origin} {f : Bool} {s t : State} (h : fireSalvo n o f s = .accepted t) : t.tou = s.tou := by
  unfold fireSalvo at h; simp only [] at h; split at h
  · exact absurd h (by simp)
  · split at h
    · exact absurd h (by simp)
    · cases h; simp [acceptEntries_tou]

theorem offerTake_tc {e : Entry} {s t : State} (h : offerTake e s = .ok t) : t.tc = s.tc := by
  unfold offerTake at h; split at h
  · exact absurd h (by simp)
  · split at h
    · exact absurd h (by simp)
    · cases h; simp

theorem acceptEntries_tc (es own : List Entry) (s : State) : (acceptEntries es own s).2.tc = s.tc := by
  induction es generalizing own s with
  | nil => rfl
  | cons e es ih => unfold acceptEntries; simp [ih]

theorem fireSalvo_tc {n : Nat} {o : Origin} {f : Bool} {s t : State} (h : fireSalvo n o f s = .accepted t) : t.tc = s.tc := by
  unfold fireSalvo at h; simp only [] at h; split at h
  · exact absurd h (by simp)
  · split at h
    · exact absurd h (by simp)
    · cases h; simp [acceptEntries_tc]

theorem offerTake_tme {e : Entry} {s t : State} (h : offerTake e s = .ok t) : t.tme = s.tme := by
  unfold offerTake at h; split at h
  · exact absurd h (by simp)
  · split at h
    · exact absurd h (by simp)
    · cases h; simp

theorem acceptEntries_tme (es own : List Entry) (s : State) : (acceptEntries es own s).2.tme = s.tme := by
  induction es generalizing own s with
  | nil => rfl
  | cons e es ih => unfold acceptEntries; simp [ih]

theorem fireSalvo_tme {n : Nat} {o : Origin} {f : Bool} {s t : State} (h : fireSalvo n o f s = .accepted t) : t.tme = s.tme := by
  unfold fireSalvo at h; simp only [] at h; split at h
  · exact absurd h (by simp)
  · split at h
    · exact absurd h (by simp)
    · cases h; simp [acceptEntries_tme]

theorem offerTake_pbc {e : Entry} {s t : State} (h : offerTake e s = .ok t) : t.pbc = s.pbc := by
  unfold offerTake at h; split at h
  · exact absurd h (by simp)
  · split at h
    · exact absurd h (by simp)
    · cases h; simp

theorem acceptEntries_pbc (es own : List Entry) (s : State) : (acceptEntries es own s).2.pbc = s.pbc := by
  induction es generalizing own s with
  | nil => rfl
  | cons e es ih => unfold acceptEntries; simp [ih]

theorem fireSalvo_pbc {n : Nat} {o : Origin} {f : Bool} {s t : State} (h : fireSalvo n o f s = .accepted t) : t.pbc = s.pbc := by
  unfold fireSalvo at h; simp only [] at h; split at h
  · exact absurd h (by simp)
  · split at h
    · exact absurd h (by simp)
    · cases h; simp [acceptEntries_pbc]

theorem offerTake_pending {e : Entry} {s t : State} (h : offerTake e s = .ok t) : t.pending = s.pending := by
  unfold offerTake at h; split at h
  · exact absurd h (by simp)
  · split at h
    · exact absurd h (by simp)
    · cases h; simp

theorem acceptEntries_pending (es own : List Entry) (s : State) : (acceptEntries es own s).2.pending = s.pending := by
  induction es generalizing own s with
  | nil => rfl
  | cons e es ih => unfold acceptEntries; simp [ih]

theorem fireSalvo_pending {n : Nat} {o : Origin} {f : Bool} {s t : State} (h : fireSalvo n o f s = .accepted t) : t.pending = s.pending := by
  unfold fireSalvo at h; simp only [] at h; split at h
  · exact absurd h (by simp)
  · split at h
    · exact absurd h (by simp)
    · cases h; simp [acceptEntries_pending]

@[simp] theorem panelTake_stu (p k d : Nat) (m : LevelMask) (x : Nat) (s : State) : (panelTake p k d m x s).stu = s.stu := by
  unfold panelTake; split
  · rename_i t h; exact offerTake_stu h
  · simp
@[simp] theorem panelTake_tt (p k d : Nat) (m : LevelMask) (x : Nat) (s : State) : (panelTake p k d m x s).tt = s.tt := by
  unfold panelTake; split
  · rename_i t h; exact offerTake_tt h
  · simp
@[simp] theorem panelTake_tou (p k d : Nat) (m : LevelMask) (x : Nat) (s : State) : (panelTake p k d m x s).tou = s.tou := by
  unfold panelTake; split
  · rename_i t h; exact offerTake_tou h
  · simp
@[simp] theorem panelTake_tc (p k d : Nat) (m : LevelMask) (x : Nat) (s : State) : (panelTake p k d m x s).tc = s.tc := by
  unfold panelTake; split
  · rename_i t h; exact offerTake_tc h
  · simp
@[simp] theorem panelTake_tme (p k d : Nat) (m : LevelMask) (x : Nat) (s : State) : (panelTake p k d m x s).tme = s.tme := by
  unfold panelTake; split
  · rename_i t h; exact offerTake_tme h
  · simp
@[simp] theorem panelTake_pending (p k d : Nat) (m : LevelMask) (x : Nat) (s : State) : (panelTake p k d m x s).pending = s.pending := by
  unfold panelTake; split
  · rename_i t h; exact offerTake_pending h
  · simp

/-! `panelToggle` -/

@[simp] theorem panelToggle_stu (p k d : Nat) (s : State) : (panelToggle p k d s).stu = s.stu := by
  unfold panelToggle; split <;> simp
@[simp] theorem panelToggle_tt (p k d : Nat) (s : State) : (panelToggle p k d s).tt = s.tt := by
  unfold panelToggle; split <;> simp
@[simp] theorem panelToggle_tou (p k d : Nat) (s : State) : (panelToggle p k d s).tou = s.tou := by
  unfold panelToggle; split <;> simp
@[simp] theorem panelToggle_tc (p k d : Nat) (s : State) : (panelToggle p k d s).tc = s.tc := by
  unfold panelToggle; split <;> simp
@[simp] theorem panelToggle_tme (p k d : Nat) (s : State) : (panelToggle p k d s).tme = s.tme := by
  unfold panelToggle; split <;> simp
@[simp] theorem panelToggle_fd (p k d : Nat) (s : State) : (panelToggle p k d s).fd = s.fd := by
  unfold panelToggle; split <;> simp
@[simp] theorem panelToggle_pending (p k d : Nat) (s : State) : (panelToggle p k d s).pending = s.pending := by
  unfold panelToggle; split <;> simp

/-! `panelFiring` -/

@[simp] theorem panelFiring_stu (p k n : Nat) (s : State) : (panelFiring p k n s).stu = s.stu := by
  unfold panelFiring; split
  · simp
  · rfl
  · rename_i t h; simpa using fireSalvo_stu h
@[simp] theorem panelFiring_tt (p k n : Nat) (s : State) : (panelFiring p k n s).tt = s.tt := by
  unfold panelFiring; split
  · simp
  · rfl
  · rename_i t h; simpa using fireSalvo_tt h
@[simp] theorem panelFiring_tou (p k n : Nat) (s : State) : (panelFiring p k n s).tou = s.tou := by
  unfold panelFiring; split
  · simp
  · rfl
  · rename_i t h; simpa using fireSalvo_tou h
@[simp] theorem panelFiring_tc (p k n : Nat) (s : State) : (panelFiring p k n s).tc = s.tc := by
  unfold panelFiring; split
  · simp
  · rfl
  · rename_i t h; simpa using fireSalvo_tc h
@[simp] theorem panelFiring_tme (p k n : Nat) (s : State) : (panelFiring p k n s).tme = s.tme := by
  unfold panelFiring; split
  · simp
  · rfl
  · rename_i t h; simpa using fireSalvo_tme h
@[simp] theorem panelFiring_pending (p k n : Nat) (s : State) : (panelFiring p k n s).pending = s.pending := by
  unfold panelFiring; split
  · simp
  · rfl
  · rename_i t h; simpa using fireSalvo_pending h

/-! `togglePage` -/

@[simp] theorem togglePage_hlc (p : Nat) (s : State) : (togglePage p s).hlc = s.hlc := by
  unfold togglePage; split <;> rfl
@[simp] theorem togglePage_rc (p : Nat) (s : State) : (togglePage p s).rc = s.rc := by
  unfold togglePage; split <;> rfl
@[simp] theorem togglePage_stu (p : Nat) (s : State) : (togglePage p s).stu = s.stu := by
  unfold togglePage; split <;> rfl
@[simp] theorem togglePage_tt (p : Nat) (s : State) : (togglePage p s).tt = s.tt := by
  unfold togglePage; split <;> rfl
@[simp] theorem togglePage_tou (p : Nat) (s : State) : (togglePage p s).tou = s.tou := by
  unfold togglePage; split <;> rfl
@[simp] theorem togglePage_tc (p : Nat) (s : State) : (togglePage p s).tc = s.tc := by
  unfold togglePage; split <;> rfl
@[simp] theorem togglePage_tme (p : Nat) (s : State) : (togglePage p s).tme = s.tme := by
  unfold togglePage; split <;> rfl
@[simp] theorem togglePage_fd (p : Nat) (s : State) : (togglePage p s).fd = s.fd := by
  unfold togglePage; split <;> rfl
@[simp] theorem togglePage_pending (p : Nat) (s : State) : (togglePage p s).pending = s.pending := by
  unfold togglePage; split <;> rfl

/-! `carryOut` -/

@[simp] theorem carryOut_stu (p k : Nat) (f : FunctionAction) (s : State) : (carryOut p k f s).stu = s.stu := by
  unfold carryOut; (repeat' split) <;> simp
@[simp] theorem carryOut_tt (p k : Nat) (f : FunctionAction) (s : State) : (carryOut p k f s).tt = s.tt := by
  unfold carryOut; (repeat' split) <;> simp
@[simp] theorem carryOut_pending (p k : Nat) (f : FunctionAction) (s : State) : (carryOut p k f s).pending = s.pending := by
  unfold carryOut; (repeat' split) <;> simp

/-! `handOnUncaptured` -/

@[simp] theorem handOnUncaptured_rc (p k : Nat) (f : FunctionAction) (s : State) : (handOnUncaptured p k f s).rc = s.rc := by
  unfold handOnUncaptured; split <;> simp
@[simp] theorem handOnUncaptured_stu (p k : Nat) (f : FunctionAction) (s : State) : (handOnUncaptured p k f s).stu = s.stu := by
  unfold handOnUncaptured; split <;> simp
@[simp] theorem handOnUncaptured_tt (p k : Nat) (f : FunctionAction) (s : State) : (handOnUncaptured p k f s).tt = s.tt := by
  unfold handOnUncaptured; split <;> simp
@[simp] theorem handOnUncaptured_fd (p k : Nat) (f : FunctionAction) (s : State) : (handOnUncaptured p k f s).fd = s.fd := by
  unfold handOnUncaptured; split <;> simp
@[simp] theorem handOnUncaptured_pending (p k : Nat) (f : FunctionAction) (s : State) : (handOnUncaptured p k f s).pending = s.pending := by
  unfold handOnUncaptured; split <;> simp

/-! `handlePress` -/

@[simp] theorem handlePress_stu (p k : Nat) (s : State) : (handlePress p k s).stu = s.stu := by
  unfold handlePress; (repeat' split) <;> simp
@[simp] theorem handlePress_tt (p k : Nat) (s : State) : (handlePress p k s).tt = s.tt := by
  unfold handlePress; (repeat' split) <;> simp
@[simp] theorem handlePress_pending (p k : Nat) (s : State) : (handlePress p k s).pending = s.pending := by
  unfold handlePress; (repeat' split) <;> simp

/-! `handleRelease` -/

@[simp] theorem handleRelease_rc (p k : Nat) (s : State) : (handleRelease p k s).rc = s.rc := by
  unfold handleRelease; (repeat' split) <;> simp
@[simp] theorem handleRelease_stu (p k : Nat) (s : State) : (handleRelease p k s).stu = s.stu := by
  unfold handleRelease; (repeat' split) <;> simp
@[simp] theorem handleRelease_tt (p k : Nat) (s : State) : (handleRelease p k s).tt = s.tt := by
  unfold handleRelease; (repeat' split) <;> simp
@[simp] theorem handleRelease_pbc (p k : Nat) (s : State) : (handleRelease p k s).pbc = s.pbc := by
  unfold handleRelease; (repeat' split) <;> simp
@[simp] theorem handleRelease_pending (p k : Nat) (s : State) : (handleRelease p k s).pending = s.pending := by
  unfold handleRelease; (repeat' split) <;> simp

/-! `handleKnob` -/

@[simp] theorem handleKnob_hlc (p : Nat) (x : Int) (s : State) : (handleKnob p x s).hlc = s.hlc := by
  unfold handleKnob; (repeat' split) <;> rfl
@[simp] theorem handleKnob_rc (p : Nat) (x : Int) (s : State) : (handleKnob p x s).rc = s.rc := by
  unfold handleKnob; (repeat' split) <;> rfl
@[simp] theorem handleKnob_stu (p : Nat) (x : Int) (s : State) : (handleKnob p x s).stu = s.stu := by
  unfold handleKnob; (repeat' split) <;> rfl
@[simp] theorem handleKnob_tt (p : Nat) (x : Int) (s : State) : (handleKnob p x s).tt = s.tt := by
  unfold handleKnob; (repeat' split) <;> rfl
@[simp] theorem handleKnob_tou (p : Nat) (x : Int) (s : State) : (handleKnob p x s).tou = s.tou := by
  unfold handleKnob; (repeat' split) <;> rfl
@[simp] theorem handleKnob_pbc (p : Nat) (x : Int) (s : State) : (handleKnob p x s).pbc = s.pbc := by
  unfold handleKnob; (repeat' split) <;> rfl
@[simp] theorem handleKnob_fd (p : Nat) (x : Int) (s : State) : (handleKnob p x s).fd = s.fd := by
  unfold handleKnob; (repeat' split) <;> rfl
@[simp] theorem handleKnob_pending (p : Nat) (x : Int) (s : State) : (handleKnob p x s).pending = s.pending := by
  unfold handleKnob; (repeat' split) <;> rfl

/-! `evaluatePanelErrors` -/

@[simp] theorem evaluatePanelErrors_rc (s : State) : (evaluatePanelErrors s).rc = s.rc := by
  simp [evaluatePanelErrors]
@[simp] theorem evaluatePanelErrors_stu (s : State) : (evaluatePanelErrors s).stu = s.stu := by
  simp [evaluatePanelErrors]
@[simp] theorem evaluatePanelErrors_tt (s : State) : (evaluatePanelErrors s).tt = s.tt := by
  simp [evaluatePanelErrors]
@[simp] theorem evaluatePanelErrors_tou (s : State) : (evaluatePanelErrors s).tou = s.tou := by
  simp [evaluatePanelErrors]
@[simp] theorem evaluatePanelErrors_tc (s : State) : (evaluatePanelErrors s).tc = s.tc := by
  simp [evaluatePanelErrors]
@[simp] theorem evaluatePanelErrors_tme (s : State) : (evaluatePanelErrors s).tme = s.tme := by
  simp [evaluatePanelErrors]
@[simp] theorem evaluatePanelErrors_fd (s : State) : (evaluatePanelErrors s).fd = s.fd := by
  simp [evaluatePanelErrors]
@[simp] theorem evaluatePanelErrors_pending (s : State) : (evaluatePanelErrors s).pending = s.pending := by
  simp [evaluatePanelErrors]

/-! `panelStateChanged` -/

@[simp] theorem panelStateChanged_rc (s : State) : (panelStateChanged s).rc = s.rc := by simp [panelStateChanged]
@[simp] theorem panelStateChanged_stu (s : State) : (panelStateChanged s).stu = s.stu := by simp [panelStateChanged]
@[simp] theorem panelStateChanged_tt (s : State) : (panelStateChanged s).tt = s.tt := by simp [panelStateChanged]
@[simp] theorem panelStateChanged_tou (s : State) : (panelStateChanged s).tou = s.tou := by simp [panelStateChanged]
@[simp] theorem panelStateChanged_tc (s : State) : (panelStateChanged s).tc = s.tc := by simp [panelStateChanged]
@[simp] theorem panelStateChanged_tme (s : State) : (panelStateChanged s).tme = s.tme := by simp [panelStateChanged]
@[simp] theorem panelStateChanged_fd (s : State) : (panelStateChanged s).fd = s.fd := by simp [panelStateChanged]
@[simp] theorem panelStateChanged_pending (s : State) : (panelStateChanged s).pending = s.pending := by
  simp [panelStateChanged]

/-! `countError` -/

@[simp] theorem countError_rc (p : Nat) (e : ErrorKind) (s : State) : (countError p e s).rc = s.rc := by
  unfold countError; simp only []; (repeat' split) <;> simp
@[simp] theorem countError_stu (p : Nat) (e : ErrorKind) (s : State) : (countError p e s).stu = s.stu := by
  unfold countError; simp only []; (repeat' split) <;> simp
@[simp] theorem countError_tt (p : Nat) (e : ErrorKind) (s : State) : (countError p e s).tt = s.tt := by
  unfold countError; simp only []; (repeat' split) <;> simp
@[simp] theorem countError_tou (p : Nat) (e : ErrorKind) (s : State) : (countError p e s).tou = s.tou := by
  unfold countError; simp only []; (repeat' split) <;> simp
@[simp] theorem countError_tc (p : Nat) (e : ErrorKind) (s : State) : (countError p e s).tc = s.tc := by
  unfold countError; simp only []; (repeat' split) <;> simp
@[simp] theorem countError_tme (p : Nat) (e : ErrorKind) (s : State) : (countError p e s).tme = s.tme := by
  unfold countError; simp only []; (repeat' split) <;> simp
@[simp] theorem countError_fd (p : Nat) (e : ErrorKind) (s : State) : (countError p e s).fd = s.fd := by
  unfold countError; simp only []; (repeat' split) <;> simp
@[simp] theorem countError_pending (p : Nat) (e : ErrorKind) (s : State) : (countError p e s).pending = s.pending := by
  unfold countError; simp only []; (repeat' split) <;> simp

/-! `transfer` -/

@[simp] theorem transfer_rc (s : State) : (transfer s).rc = s.rc := by
  unfold transfer; simp only []; split <;> simp
@[simp] theorem transfer_stu (s : State) : (transfer s).stu = s.stu := by
  unfold transfer; simp only []; split <;> simp
@[simp] theorem transfer_tt (s : State) : (transfer s).tt = s.tt := by
  unfold transfer; simp only []; split <;> simp
@[simp] theorem transfer_tou (s : State) : (transfer s).tou = s.tou := by
  unfold transfer; simp only []; split <;> simp
@[simp] theorem transfer_tc (s : State) : (transfer s).tc = s.tc := by
  unfold transfer; simp only []; split <;> simp
@[simp] theorem transfer_tme (s : State) : (transfer s).tme = s.tme := by
  unfold transfer; simp only []; split <;> simp
@[simp] theorem transfer_fd (s : State) : (transfer s).fd = s.fd := by
  unfold transfer; simp only []; split <;> simp
@[simp] theorem transfer_pending (s : State) : (transfer s).pending = s.pending := by
  unfold transfer; simp only []; split <;> simp

/-! `losePanel` -/

@[simp] theorem losePanel_rc (p : Nat) (v : Panel) (s : State) : (losePanel p v s).rc = s.rc := by simp [losePanel]
@[simp] theorem losePanel_stu (p : Nat) (v : Panel) (s : State) : (losePanel p v s).stu = s.stu := by simp [losePanel]
@[simp] theorem losePanel_pending (p : Nat) (v : Panel) (s : State) : (losePanel p v s).pending = s.pending := by
  simp [losePanel]

/-! `clearProtects` -/

@[simp] theorem clearProtects_hlc (p : Nat) (s : State) : (clearProtects p s).hlc = s.hlc := by simp [clearProtects]
@[simp] theorem clearProtects_stu (p : Nat) (s : State) : (clearProtects p s).stu = s.stu := by simp [clearProtects]
@[simp] theorem clearProtects_tt (p : Nat) (s : State) : (clearProtects p s).tt = s.tt := by simp [clearProtects]
@[simp] theorem clearProtects_tou (p : Nat) (s : State) : (clearProtects p s).tou = s.tou := by simp [clearProtects]
@[simp] theorem clearProtects_tc (p : Nat) (s : State) : (clearProtects p s).tc = s.tc := by simp [clearProtects]
@[simp] theorem clearProtects_tme (p : Nat) (s : State) : (clearProtects p s).tme = s.tme := by simp [clearProtects]
@[simp] theorem clearProtects_pbc (p : Nat) (s : State) : (clearProtects p s).pbc = s.pbc := by simp [clearProtects]
@[simp] theorem clearProtects_fd (p : Nat) (s : State) : (clearProtects p s).fd = s.fd := by simp [clearProtects]
@[simp] theorem clearProtects_pending (p : Nat) (s : State) : (clearProtects p s).pending = s.pending := by
  simp [clearProtects]

/-! `dropHeld` -/

@[simp] theorem dropHeld_hlc (p : Nat) (s : State) : (dropHeld p s).hlc = s.hlc := rfl
@[simp] theorem dropHeld_rc (p : Nat) (s : State) : (dropHeld p s).rc = s.rc := rfl
@[simp] theorem dropHeld_stu (p : Nat) (s : State) : (dropHeld p s).stu = s.stu := rfl
@[simp] theorem dropHeld_tt (p : Nat) (s : State) : (dropHeld p s).tt = s.tt := rfl
@[simp] theorem dropHeld_tou (p : Nat) (s : State) : (dropHeld p s).tou = s.tou := rfl
@[simp] theorem dropHeld_tc (p : Nat) (s : State) : (dropHeld p s).tc = s.tc := rfl
@[simp] theorem dropHeld_tme (p : Nat) (s : State) : (dropHeld p s).tme = s.tme := rfl
@[simp] theorem dropHeld_pbc (p : Nat) (s : State) : (dropHeld p s).pbc = s.pbc := rfl
@[simp] theorem dropHeld_pending (p : Nat) (s : State) : (dropHeld p s).pending = s.pending := rfl

/-! `removePanel` -/

@[simp] theorem removePanel_stu (p : Nat) (v : Panel) (s : State) : (removePanel p v s).stu = s.stu := by
  unfold removePanel; simp only []; split <;> simp
@[simp] theorem removePanel_pending (p : Nat) (v : Panel) (s : State) : (removePanel p v s).pending = s.pending := by
  unfold removePanel; simp only []; split <;> simp

/-! `missPoll` -/

@[simp] theorem missPoll_rc (p : Nat) (s : State) : (missPoll p s).rc = s.rc := by
  unfold missPoll; (repeat' split) <;> simp
@[simp] theorem missPoll_stu (p : Nat) (s : State) : (missPoll p s).stu = s.stu := by
  unfold missPoll; (repeat' split) <;> simp
@[simp] theorem missPoll_pending (p : Nat) (s : State) : (missPoll p s).pending = s.pending := by
  unfold missPoll; (repeat' split) <;> simp

/-! `takeEvents` -/

@[simp] theorem takeEvents_hlc (p : Nat) (v : Panel) (b : Bool) (x : List PanelAction) (s : State) : (takeEvents p v b x s).hlc = s.hlc := by
  unfold takeEvents; (repeat' split) <;> rfl
@[simp] theorem takeEvents_rc (p : Nat) (v : Panel) (b : Bool) (x : List PanelAction) (s : State) : (takeEvents p v b x s).rc = s.rc := by
  unfold takeEvents; (repeat' split) <;> rfl
@[simp] theorem takeEvents_stu (p : Nat) (v : Panel) (b : Bool) (x : List PanelAction) (s : State) : (takeEvents p v b x s).stu = s.stu := by
  unfold takeEvents; (repeat' split) <;> rfl
@[simp] theorem takeEvents_tt (p : Nat) (v : Panel) (b : Bool) (x : List PanelAction) (s : State) : (takeEvents p v b x s).tt = s.tt := by
  unfold takeEvents; (repeat' split) <;> rfl
@[simp] theorem takeEvents_tou (p : Nat) (v : Panel) (b : Bool) (x : List PanelAction) (s : State) : (takeEvents p v b x s).tou = s.tou := by
  unfold takeEvents; (repeat' split) <;> rfl
@[simp] theorem takeEvents_tc (p : Nat) (v : Panel) (b : Bool) (x : List PanelAction) (s : State) : (takeEvents p v b x s).tc = s.tc := by
  unfold takeEvents; (repeat' split) <;> rfl
@[simp] theorem takeEvents_tme (p : Nat) (v : Panel) (b : Bool) (x : List PanelAction) (s : State) : (takeEvents p v b x s).tme = s.tme := by
  unfold takeEvents; (repeat' split) <;> rfl
@[simp] theorem takeEvents_fd (p : Nat) (v : Panel) (b : Bool) (x : List PanelAction) (s : State) : (takeEvents p v b x s).fd = s.fd := by
  unfold takeEvents; (repeat' split) <;> rfl
@[simp] theorem takeEvents_pending (p : Nat) (v : Panel) (b : Bool) (x : List PanelAction) (s : State) : (takeEvents p v b x s).pending = s.pending := by
  unfold takeEvents; (repeat' split) <;> rfl

/-! `answeredPoll` -/

@[simp] theorem answeredPoll_rc (p : Nat) (x : List (Nat × Lamp)) (s : State) : (answeredPoll p x s).rc = s.rc := by
  unfold answeredPoll; simp only []; (repeat' split) <;> simp
@[simp] theorem answeredPoll_stu (p : Nat) (x : List (Nat × Lamp)) (s : State) : (answeredPoll p x s).stu = s.stu := by
  unfold answeredPoll; simp only []; (repeat' split) <;> simp
@[simp] theorem answeredPoll_tt (p : Nat) (x : List (Nat × Lamp)) (s : State) : (answeredPoll p x s).tt = s.tt := by
  unfold answeredPoll; simp only []; (repeat' split) <;> simp
@[simp] theorem answeredPoll_tou (p : Nat) (x : List (Nat × Lamp)) (s : State) : (answeredPoll p x s).tou = s.tou := by
  unfold answeredPoll; simp only []; (repeat' split) <;> simp
@[simp] theorem answeredPoll_tc (p : Nat) (x : List (Nat × Lamp)) (s : State) : (answeredPoll p x s).tc = s.tc := by
  unfold answeredPoll; simp only []; (repeat' split) <;> simp
@[simp] theorem answeredPoll_tme (p : Nat) (x : List (Nat × Lamp)) (s : State) : (answeredPoll p x s).tme = s.tme := by
  unfold answeredPoll; simp only []; (repeat' split) <;> simp
@[simp] theorem answeredPoll_fd (p : Nat) (x : List (Nat × Lamp)) (s : State) : (answeredPoll p x s).fd = s.fd := by
  unfold answeredPoll; simp only []; (repeat' split) <;> simp
@[simp] theorem answeredPoll_pending (p : Nat) (x : List (Nat × Lamp)) (s : State) : (answeredPoll p x s).pending = s.pending := by
  unfold answeredPoll; simp only []; (repeat' split) <;> simp

/-! `takeReply` -/

@[simp] theorem takeReply_rc (p : Nat) (b : Bool) (e : List PanelAction) (x : List (Nat × Lamp)) (s : State) : (takeReply p b e x s).rc = s.rc := by
  unfold takeReply; split <;> simp
@[simp] theorem takeReply_stu (p : Nat) (b : Bool) (e : List PanelAction) (x : List (Nat × Lamp)) (s : State) : (takeReply p b e x s).stu = s.stu := by
  unfold takeReply; split <;> simp
@[simp] theorem takeReply_tt (p : Nat) (b : Bool) (e : List PanelAction) (x : List (Nat × Lamp)) (s : State) : (takeReply p b e x s).tt = s.tt := by
  unfold takeReply; split <;> simp
@[simp] theorem takeReply_tou (p : Nat) (b : Bool) (e : List PanelAction) (x : List (Nat × Lamp)) (s : State) : (takeReply p b e x s).tou = s.tou := by
  unfold takeReply; split <;> simp
@[simp] theorem takeReply_tc (p : Nat) (b : Bool) (e : List PanelAction) (x : List (Nat × Lamp)) (s : State) : (takeReply p b e x s).tc = s.tc := by
  unfold takeReply; split <;> simp
@[simp] theorem takeReply_tme (p : Nat) (b : Bool) (e : List PanelAction) (x : List (Nat × Lamp)) (s : State) : (takeReply p b e x s).tme = s.tme := by
  unfold takeReply; split <;> simp
@[simp] theorem takeReply_fd (p : Nat) (b : Bool) (e : List PanelAction) (x : List (Nat × Lamp)) (s : State) : (takeReply p b e x s).fd = s.fd := by
  unfold takeReply; split <;> simp
@[simp] theorem takeReply_pending (p : Nat) (b : Bool) (e : List PanelAction) (x : List (Nat × Lamp)) (s : State) : (takeReply p b e x s).pending = s.pending := by
  unfold takeReply; split <;> simp

/-! `takeIdent` -/

@[simp] theorem takeIdent_rc (p : Nat) (e k : PanelKind) (n : Nat) (b : Bool) (s : State) : (takeIdent p e k n b s).rc = s.rc := by
  unfold takeIdent; (repeat' split) <;> simp
@[simp] theorem takeIdent_stu (p : Nat) (e k : PanelKind) (n : Nat) (b : Bool) (s : State) : (takeIdent p e k n b s).stu = s.stu := by
  unfold takeIdent; (repeat' split) <;> simp
@[simp] theorem takeIdent_tt (p : Nat) (e k : PanelKind) (n : Nat) (b : Bool) (s : State) : (takeIdent p e k n b s).tt = s.tt := by
  unfold takeIdent; (repeat' split) <;> simp
@[simp] theorem takeIdent_tou (p : Nat) (e k : PanelKind) (n : Nat) (b : Bool) (s : State) : (takeIdent p e k n b s).tou = s.tou := by
  unfold takeIdent; (repeat' split) <;> simp
@[simp] theorem takeIdent_tc (p : Nat) (e k : PanelKind) (n : Nat) (b : Bool) (s : State) : (takeIdent p e k n b s).tc = s.tc := by
  unfold takeIdent; (repeat' split) <;> simp
@[simp] theorem takeIdent_tme (p : Nat) (e k : PanelKind) (n : Nat) (b : Bool) (s : State) : (takeIdent p e k n b s).tme = s.tme := by
  unfold takeIdent; (repeat' split) <;> simp
@[simp] theorem takeIdent_pending (p : Nat) (e k : PanelKind) (n : Nat) (b : Bool) (s : State) : (takeIdent p e k n b s).pending = s.pending := by
  unfold takeIdent; (repeat' split) <;> simp

/-! `outcome` -/

@[simp] theorem outcome_rc (t : Transaction) (j : BusJudgement) (s : State) : (outcome t j s).rc = s.rc := by
  unfold outcome; split <;> simp
@[simp] theorem outcome_stu (t : Transaction) (j : BusJudgement) (s : State) : (outcome t j s).stu = s.stu := by
  unfold outcome; split <;> simp
@[simp] theorem outcome_pending (t : Transaction) (j : BusJudgement) (s : State) : (outcome t j s).pending = s.pending := by
  unfold outcome; split <;> simp

/-! `endTransaction` -/

@[simp] theorem endTransaction_rc (j : Transaction → State → BusJudgement) (s : State) : (endTransaction j s).rc = s.rc := by
  unfold endTransaction; simp only []; (repeat' split) <;> simp
@[simp] theorem endTransaction_stu (j : Transaction → State → BusJudgement) (s : State) : (endTransaction j s).stu = s.stu := by
  unfold endTransaction; simp only []; (repeat' split) <;> simp
@[simp] theorem endTransaction_pending (j : Transaction → State → BusJudgement) (s : State) : (endTransaction j s).pending = s.pending := by
  unfold endTransaction; simp only []; (repeat' split) <;> simp

/-! `receivePanelFrame` -/

@[simp] theorem receivePanelFrame_rc (x : List Byte) (s : State) : (receivePanelFrame x s).rc = s.rc := by
  unfold receivePanelFrame; (repeat' split) <;> simp
@[simp] theorem receivePanelFrame_stu (x : List Byte) (s : State) : (receivePanelFrame x s).stu = s.stu := by
  unfold receivePanelFrame; (repeat' split) <;> simp
@[simp] theorem receivePanelFrame_pending (x : List Byte) (s : State) : (receivePanelFrame x s).pending = s.pending := by
  unfold receivePanelFrame; (repeat' split) <;> simp

/-! `timeOut` -/

@[simp] theorem timeOut_rc (s : State) : (timeOut s).rc = s.rc := by simp [timeOut]
@[simp] theorem timeOut_stu (s : State) : (timeOut s).stu = s.stu := by simp [timeOut]
@[simp] theorem timeOut_pending (s : State) : (timeOut s).pending = s.pending := by simp [timeOut]

/-! `endEmptyCycle` -/

@[simp] theorem endEmptyCycle_hlc (s : State) : (endEmptyCycle s).hlc = s.hlc := by
  unfold endEmptyCycle; split <;> rfl
@[simp] theorem endEmptyCycle_rc (s : State) : (endEmptyCycle s).rc = s.rc := by unfold endEmptyCycle; split <;> rfl
@[simp] theorem endEmptyCycle_stu (s : State) : (endEmptyCycle s).stu = s.stu := by
  unfold endEmptyCycle; split <;> rfl
@[simp] theorem endEmptyCycle_tt (s : State) : (endEmptyCycle s).tt = s.tt := by unfold endEmptyCycle; split <;> rfl
@[simp] theorem endEmptyCycle_tou (s : State) : (endEmptyCycle s).tou = s.tou := by
  unfold endEmptyCycle; split <;> rfl
@[simp] theorem endEmptyCycle_tc (s : State) : (endEmptyCycle s).tc = s.tc := by unfold endEmptyCycle; split <;> rfl
@[simp] theorem endEmptyCycle_tme (s : State) : (endEmptyCycle s).tme = s.tme := by
  unfold endEmptyCycle; split <;> rfl
@[simp] theorem endEmptyCycle_fd (s : State) : (endEmptyCycle s).fd = s.fd := by unfold endEmptyCycle; split <;> rfl
@[simp] theorem endEmptyCycle_pending (s : State) : (endEmptyCycle s).pending = s.pending := by
  unfold endEmptyCycle; split <;> rfl

/-! `secondTransfer` -/

@[simp] theorem secondTransfer_rc (s : State) : (secondTransfer s).rc = s.rc := by
  unfold secondTransfer; split <;> simp
@[simp] theorem secondTransfer_stu (s : State) : (secondTransfer s).stu = s.stu := by
  unfold secondTransfer; split <;> simp
@[simp] theorem secondTransfer_tt (s : State) : (secondTransfer s).tt = s.tt := by
  unfold secondTransfer; split <;> simp
@[simp] theorem secondTransfer_tou (s : State) : (secondTransfer s).tou = s.tou := by
  unfold secondTransfer; split <;> simp
@[simp] theorem secondTransfer_tc (s : State) : (secondTransfer s).tc = s.tc := by
  unfold secondTransfer; split <;> simp
@[simp] theorem secondTransfer_tme (s : State) : (secondTransfer s).tme = s.tme := by
  unfold secondTransfer; split <;> simp
@[simp] theorem secondTransfer_fd (s : State) : (secondTransfer s).fd = s.fd := by
  unfold secondTransfer; split <;> simp
@[simp] theorem secondTransfer_pending (s : State) : (secondTransfer s).pending = s.pending := by
  unfold secondTransfer; split <;> simp

/-! `restartPanels` -/

@[simp] theorem restartPanels_rc (s : State) : (restartPanels s).rc = s.rc := by
  unfold restartPanels; simp only []; (repeat' split) <;> simp
@[simp] theorem restartPanels_stu (s : State) : (restartPanels s).stu = s.stu := by
  unfold restartPanels; simp only []; (repeat' split) <;> simp
@[simp] theorem restartPanels_pending (s : State) : (restartPanels s).pending = s.pending := by
  unfold restartPanels; simp only []; (repeat' split) <;> simp

/-! `restartTalk` -/

@[simp] theorem restartTalk_rc (s : State) : (restartTalk s).rc = s.rc := by simp [restartTalk]
@[simp] theorem restartTalk_stu (s : State) : (restartTalk s).stu = s.stu := by simp [restartTalk]
@[simp] theorem restartTalk_tt (s : State) : (restartTalk s).tt = s.tt := by simp [restartTalk]
@[simp] theorem restartTalk_tou (s : State) : (restartTalk s).tou = s.tou := by simp [restartTalk]
@[simp] theorem restartTalk_pending (s : State) : (restartTalk s).pending = s.pending := by simp [restartTalk]

/-! `writeBinding` -/

@[simp] theorem writeBinding_hlc (p : Nat) (g : Bool) (k f : Nat) (s : State) : (writeBinding p g k f s).hlc = s.hlc := rfl
@[simp] theorem writeBinding_rc (p : Nat) (g : Bool) (k f : Nat) (s : State) : (writeBinding p g k f s).rc = s.rc := rfl
@[simp] theorem writeBinding_stu (p : Nat) (g : Bool) (k f : Nat) (s : State) : (writeBinding p g k f s).stu = s.stu := rfl
@[simp] theorem writeBinding_tt (p : Nat) (g : Bool) (k f : Nat) (s : State) : (writeBinding p g k f s).tt = s.tt := rfl
@[simp] theorem writeBinding_tou (p : Nat) (g : Bool) (k f : Nat) (s : State) : (writeBinding p g k f s).tou = s.tou := rfl
@[simp] theorem writeBinding_tc (p : Nat) (g : Bool) (k f : Nat) (s : State) : (writeBinding p g k f s).tc = s.tc := rfl
@[simp] theorem writeBinding_tme (p : Nat) (g : Bool) (k f : Nat) (s : State) : (writeBinding p g k f s).tme = s.tme := rfl
@[simp] theorem writeBinding_pbc (p : Nat) (g : Bool) (k f : Nat) (s : State) : (writeBinding p g k f s).pbc = s.pbc := rfl
@[simp] theorem writeBinding_pending (p : Nat) (g : Bool) (k f : Nat) (s : State) : (writeBinding p g k f s).pending = s.pending := rfl

end Sys2Proof.Machine
end

