-- ==== Sys2Proof/Laws/Requests.lean ====
section
/-! SUPPORT. What a request in its turn, a reply, a flag and the start of a transmission do to the host link, and what a
re-derivation of the lamps does to the panels: one lemma for each shared operation, which later proofs cite. -/

namespace Sys2Proof.Machine

/-! ### A request in its turn -/

theorem turn?_of_inTurn {r : Request} {s s1 : State} (h : InTurn r s s1) : turn? r s = some s1 := by
  rcases h with ⟨hw, hr, rfl⟩ | ⟨rest, hw, rfl⟩ <;> simp [turn?, *]

theorem request_inTurn {r : Request} {s s1 : State} (h : InTurn r s s1) (body : State → State) :
    request r body s = transmit (body s1) := by simp [request, turn?_of_inTurn h]

theorem requestOf_inTurn {α : Type} {kind tag : Byte} {payload : List Byte} {decode : List Byte → Option α}
    {body : Request → α → State → State} {a : α} {s s1 : State} (h : InTurn ⟨kind, tag, payload⟩ s s1)
    (hd : decode payload = some a) :
    requestOf kind tag payload decode body s = transmit (body ⟨kind, tag, payload⟩ a s1) := by
  simp [requestOf, request_inTurn h, hd]

theorem InTurn.settled {r : Request} {s s1 : State} (h : InTurn r s s1) (hs : Settled s) : Settled s1 := by
  rcases h with ⟨_, _, rfl⟩ | ⟨rest, _, rfl⟩
  · exact hs
  · exact fun hi => hs hi

theorem InTurn.eq {r : Request} {s s1 : State} (h : InTurn r s s1) :
    s1 = { s with hlc := { s.hlc with waiting := s1.hlc.waiting } } := by
  rcases h with ⟨_, _, rfl⟩ | ⟨rest, _, rfl⟩ <;> rfl

/-! ### The link, one lemma for each operation -/

theorem transmit_eq (s : State) : transmit s = { s with hlc := s.hlc.begun } := by
  unfold transmit HostLink.begun; split <;> simp_all

theorem transmit_hlc (s : State) : (transmit s).hlc = s.hlc.begun := by rw [transmit_eq]

theorem setFlag_hlc (f : Flag) (s : State) (he : s.flagEnabled f = true) : (setFlag f s).hlc = s.hlc.raised f := by
  unfold State.flagEnabled at he
  unfold setFlag HostLink.raised State.flagSet State.flagsWaiting queueMessage flagsMessage
  by_cases h : s.hlc.set.getLsbD f.number = true
  · simp [h]
  · simp only [h, he]
    by_cases hw : (s.hlc.outbound.any fun m => m.cls == .eventFlags) = true <;> simp [hw]

theorem raise_hlc (f : Flag) (s : State) : (raise f s).hlc = s.hlc.raised f := by
  unfold raise
  split
  · rename_i h; exact setFlag_hlc f s h
  · rename_i h; unfold State.flagEnabled at h; simp [HostLink.raised, h]

theorem handOver_hlc (f : Flag) (x y : Bool) (s : State) : (handOver f x y s).hlc = s.hlc.handed f x y := by
  unfold handOver HostLink.handed
  by_cases hxy : x = y
  · simp [hxy]
  · rw [if_neg (by simpa using hxy), if_neg hxy]
    cases s.hlc.edges.of? f with
    | none => rfl
    | some e =>
      by_cases he : s.flagEnabled f = true
      · by_cases ha : e.accepts y = true
        · simp [he, ha, setFlag_hlc]
        · simp [he, ha]
      · have : s.hlc.raised f = s.hlc := by
          unfold State.flagEnabled at he; simp [HostLink.raised, he]
        simp [he, this]

theorem answerData_hlc (r : Request) (c : ReplyCode) (d : List Byte) (s : State) :
    (answerData r c d s).hlc = { s.hlc with executed := s.hlc.executed ++ [r], outbound := s.hlc.outbound ++ [replyTo r c d] } :=
  rfl

theorem answer_hlc (r : Request) (c : ReplyCode) (s : State) :
    (answer r c s).hlc = { s.hlc with executed := s.hlc.executed ++ [r], outbound := s.hlc.outbound ++ [replyTo r c []] } := rfl

/-! ### A reply, with the flags raised behind it -/

/-- The link with a reply queued at its tail, before the transmitter is looked at. -/
def HostLink.replied (r : Request) (c : ReplyCode) (d : List Byte) (h : HostLink) : HostLink :=
  { h with executed := h.executed ++ [r], outbound := h.outbound ++ [replyTo r c d] }

/-- A link whose transmitter is busy, or whose oldest waiting message is a given reply and whose only executed request is
the one it answers. -/
def HostLink.leads (r : Request) (m : Message) (h : HostLink) : Prop :=
  m.cls = .reply ∧ (h.sending = none → (∃ rest, h.outbound = m :: rest) ∧ h.executed = [r])

/-- Raising a flag behind a queued reply and beginning the reply commute. -/
theorem begun_raised {r : Request} {m : Message} {h : HostLink} (hl : h.leads r m) (f : Flag) :
    (h.raised f).begun = h.begun.raised f ∧ (h.raised f).leads r m := by
  obtain ⟨hm, hl⟩ := hl
  cases hs : h.sending with
  | some x =>
    have h1 : ∀ g : HostLink, g.sending = some x → g.begun = g := fun g hg => by simp [HostLink.begun, hg]
    have h2 : (h.raised f).sending = some x := by unfold HostLink.raised; split <;> simp [hs]
    rw [h1 h hs, h1 _ h2]
    exact ⟨rfl, hm, fun h' => by simp [h2] at h'⟩
  | none =>
    obtain ⟨⟨rest, ho⟩, he⟩ := hl hs
    have hc : (m.cls == MessageClass.eventFlags) = false := by simp [hm]
    have hb : h.begun = { h with executed := [], sending := some m, outbound := rest } := by
      simp [HostLink.begun, hs, ho, startMessage, hm, he]
    rw [hb]
    unfold HostLink.raised
    by_cases hf : (h.enabled.getLsbD f.number && !h.set.getLsbD f.number) = true
    · by_cases ha : (rest.any fun m => m.cls == .eventFlags) = true
      · simp [hf, ho, ha, HostLink.begun, startMessage, hm, hs, he, HostLink.leads]
      · simp [hf, ho, ha, HostLink.begun, startMessage, hm, hs, he, HostLink.leads]
    · simp [hf, HostLink.begun, hs, ho, startMessage, hm, he, HostLink.leads]

theorem begun_foldl_raised {r : Request} {m : Message} (gs : List Flag) {h : HostLink} (hl : h.leads r m) :
    (gs.foldl (fun x f => x.raised f) h).begun = gs.foldl (fun x f => x.raised f) h.begun := by
  induction gs generalizing h with
  | nil => rfl
  | cons g gs ih =>
    rw [List.foldl_cons, List.foldl_cons, ih (begun_raised hl g).2, (begun_raised hl g).1]

theorem replied_leads (r : Request) (c : ReplyCode) (d : List Byte) {s : State} (hs : Settled s) :
    (s.hlc.replied r c d).leads r (replyTo r c d) :=
  ⟨rfl, fun hi => by obtain ⟨h1, h2⟩ := hs hi; simp [HostLink.replied, h1, h2]⟩

theorem begun_replied (r : Request) (c : ReplyCode) (d : List Byte) {s : State} (hs : Settled s) :
    (s.hlc.replied r c d).begun = s.hlc.answered r c d := by
  cases hi : s.hlc.sending with
  | some x => simp [HostLink.begun, HostLink.replied, HostLink.answered, hi]
  | none =>
    obtain ⟨h1, h2⟩ := hs hi
    simp [HostLink.begun, HostLink.replied, HostLink.answered, hi, h1, h2, startMessage, replyTo]

/-- R183, R185, R186: a request that is answered and does nothing else. -/
theorem transmit_answerData (r : Request) (c : ReplyCode) (d : List Byte) {s : State} (hs : Settled s) :
    transmit (answerData r c d s) = { s with hlc := s.hlc.answered r c d } := by
  rw [transmit_eq, ← begun_replied r c d hs]; rfl

theorem transmit_answer (r : Request) (c : ReplyCode) {s : State} (hs : Settled s) :
    transmit (answer r c s) = { s with hlc := s.hlc.answered r c [] } := transmit_answerData r c [] hs

/-- R185 to R188: flags raised behind a reply go out behind it. -/
theorem raised_begun {r : Request} {c : ReplyCode} {d : List Byte} {s : State} (hs : Settled s) (gs : List Flag) :
    (gs.foldl (fun x f => x.raised f) (s.hlc.replied r c d)).begun =
      gs.foldl (fun x f => x.raised f) (s.hlc.answered r c d) := by
  rw [begun_foldl_raised gs (replied_leads r c d hs), begun_replied r c d hs]

/-- R187: handing over a change raises the flag, or does nothing. -/
theorem handed_eq (f : Flag) (x y : Bool) (h : HostLink) : h.handed f x y = h.raised f ∨ h.handed f x y = h := by
  unfold HostLink.handed
  split
  · exact .inr rfl
  · split
    · split
      · exact .inl rfl
      · exact .inr rfl
    · exact .inr rfl

/-- Whether a change of a state source raises its flag is told by the edge selects and the change. -/
theorem handed_congr (f : Flag) (x y : Bool) {h h2 : HostLink} (he : h2.edges = h.edges) :
    (h.handed f x y = h.raised f ∧ h2.handed f x y = h2.raised f) ∨ (h.handed f x y = h ∧ h2.handed f x y = h2) := by
  unfold HostLink.handed
  rw [he]
  split
  · exact .inr ⟨rfl, rfl⟩
  · split
    · split
      · exact .inl ⟨rfl, rfl⟩
      · exact .inr ⟨rfl, rfl⟩
    · exact .inr ⟨rfl, rfl⟩

theorem begun_edges (h : HostLink) : h.begun.edges = h.edges := by
  unfold HostLink.begun; split
  · unfold startMessage; split <;> rfl
  · rfl

/-- Handing over a change behind a queued reply and beginning the reply commute. -/
theorem begun_handed {r : Request} {m : Message} {h : HostLink} (hl : h.leads r m) (f : Flag) (x y : Bool) :
    (h.handed f x y).begun = h.begun.handed f x y ∧ (h.handed f x y).leads r m := by
  rcases handed_congr f x y (begun_edges h) with ⟨h1, h2⟩ | ⟨h1, h2⟩
  · rw [h1, h2]; exact begun_raised hl f
  · rw [h1, h2]; exact ⟨rfl, hl⟩

/-- Raising a flag under a condition behind a queued reply and beginning the reply commute. -/
theorem RaisedIf.begun {f : Flag} {condition : Prop} {r : Request} {m : Message} {h h2 : HostLink} (hl : h.leads r m)
    (hr : RaisedIf f condition h h2) : RaisedIf f condition h.begun h2.begun ∧ h2.leads r m := by
  by_cases hc : condition
  · rw [hr.1 hc]; exact ⟨⟨fun _ => (begun_raised hl f).1, fun hn => absurd hc hn⟩, (begun_raised hl f).2⟩
  · rw [hr.2 hc]; exact ⟨⟨fun h => absurd h hc, fun _ => rfl⟩, hl⟩

/-- The flags of a change of the talks, behind a queued reply, go out behind it. -/
theorem TalkReported.begun {a b : State} {r : Request} {m : Message} {h h2 : HostLink} (hl : h.leads r m)
    (ht : TalkReported a b h h2) : TalkReported a b h.begun h2.begun ∧ h2.leads r m := by
  obtain ⟨h1, h3⟩ := begun_handed hl .pathStarved a.tme.pathStarved b.tme.pathStarved
  obtain ⟨h4, h5⟩ := RaisedIf.begun h3 ht
  exact ⟨by rw [h1] at h4; exact h4, h5⟩

/-- A link on which nothing waits begins nothing. -/
theorem begun_settled {s : State} (hs : Settled s) : s.hlc.begun = s.hlc := by
  cases hi : s.hlc.sending with
  | some x => simp [HostLink.begun, hi]
  | none => simp [HostLink.begun, hi, (hs hi).1]

theorem transmit_settled {s : State} (hs : Settled s) : transmit s = s := by rw [transmit_eq, begun_settled hs]

/-! ### Which flags an operation raises -/

theorem evaluateStarved_hlc (s : State) :
    (evaluateStarved s).hlc = s.hlc.handed .pathStarved s.tme.pathStarved (evaluateStarved s).tme.pathStarved := by
  simp [evaluateStarved, handOver_hlc]

theorem handling_hlc (b s : State) :
    (handling b s).hlc = s.hlc.handed .pathStarved s.tme.pathStarved (handling b s).tme.pathStarved := by
  unfold handling; simp only []; rw [evaluateStarved_hlc]; rfl

theorem resolveOnair_hlc (s : State) :
    (resolveOnair s).hlc = s.hlc.handed .pathStarved s.tme.pathStarved (resolveOnair s).tme.pathStarved := by
  unfold resolveOnair; simp only []; split
  · simp [HostLink.handed]
  · rw [handling_hlc]; rfl

/-- R117: IFB_CHANGE is raised when an interrupter differs. -/
theorem announceInterrupters_raised (b s : State) :
    RaisedIf .ifbChange (∃ n, (1 ≤ n ∧ n ≤ 16) ∧ s.interrupter n ≠ b.interrupter n) s.hlc (announceInterrupters b s).hlc := by
  have h : ((numbers 1 16).any fun n => b.interrupter n != s.interrupter n) = true ↔
      ∃ n, (1 ≤ n ∧ n ≤ 16) ∧ s.interrupter n ≠ b.interrupter n := by
    simp only [List.any_eq_true, numbers, List.mem_range'_1, bne_iff_ne, ne_eq]
    exact ⟨fun ⟨n, h1, h2⟩ => ⟨n, by omega, fun e => h2 e.symm⟩, fun ⟨n, h1, h2⟩ => ⟨n, by omega, fun e => h2 e.symm⟩⟩
  unfold announceInterrupters
  refine ⟨fun hc => ?_, fun hc => ?_⟩
  · rw [if_pos (h.2 hc), raise_hlc]
  · rw [if_neg (fun hn => hc (h.1 hn))]

/-- R112, R117: the flags of one handling of a change of the talks or the IFBs. -/
theorem handled_reported {s u : State} (h1 : u.hlc = s.hlc) (h2 : u.tme = s.tme) :
    TalkReported s (announceInterrupters s (handling s u)) s.hlc (announceInterrupters s (handling s u)).hlc := by
  have h := announceInterrupters_raised s (handling s u)
  rw [handling_hlc, h1, h2] at h
  unfold TalkReported
  simpa only [announceInterrupters_tme, State.interrupter, State.ifb?, announceInterrupters_tc] using h

/-- An event that leaves the interrupters and PATH_STARVED raises no flag of the talks. -/
theorem TalkReported.refl {s t : State} (h1 : t.tc.ifbs = s.tc.ifbs) (h2 : t.tme = s.tme) (h : HostLink) :
    TalkReported s t h h := by
  refine ⟨fun ⟨n, _, hn⟩ => absurd ?_ hn, fun _ => by rw [h2]; simp [HostLink.handed]⟩
  unfold State.interrupter State.ifb?; rw [h1]

/-- R86: the flags of a creation. -/
theorem createTalk_reported (t : Talk) (s : State) : TalkReported s (createTalk t s) s.hlc (createTalk t s).hlc :=
  handled_reported (by simp) (by simp [resolveAgain])

/-- R87: the flags of endings. -/
theorem endTalks_reported (ids : List Nat) (s : State) : TalkReported s (endTalks ids s) s.hlc (endTalks ids s).hlc := by
  unfold endTalks; split
  · exact handled_reported (by simp) (by simp [removeTalks, resolveAgain])
  · exact .refl rfl rfl _

/-! ### The lamps -/

theorem Panel.withLamps_eq (f : Nat → Lamp) (v : Panel) : v.withLamps f = { v with lamps := (v.withLamps f).lamps } := by
  unfold Panel.withLamps
  generalize numbers 1 64 = ks
  induction ks generalizing v with
  | nil => rfl
  | cons k ks ih => rw [List.foldl_cons, ih]; rfl

theorem Panel.lamp_desire (v : Panel) (k j : Nat) (x : Lamp) :
    (v.desire k x).lamp j = if j = k then { v.lamp k with desired := x } else v.lamp j := by
  unfold Panel.desire Panel.setLamp Panel.lamp
  by_cases h : j = k
  · subst h; simp
  · simp [h, Table.get_set_ne _ _ h]

theorem Panel.foldl_desire (f : Nat → Lamp) (ks : List Nat) (v : Panel) (j : Nat) :
    ((ks.foldl (fun x k => x.desire k (f k)) v).lamp j) =
      if j ∈ ks then { v.lamp j with desired := f j } else v.lamp j := by
  induction ks generalizing v with
  | nil => simp
  | cons k ks ih =>
    rw [List.foldl_cons, ih, Panel.lamp_desire]
    by_cases h1 : j = k
    · subst h1; by_cases h2 : j ∈ ks <;> simp [h2]
    · simp [h1]

theorem mem_numbers {lo hi n : Nat} : n ∈ numbers lo hi ↔ within lo hi n = true := by
  unfold numbers within
  rw [List.mem_range'_1]
  simp only [Bool.and_eq_true, decide_eq_true_eq]
  omega

theorem Panel.lamp_withLamps (f : Nat → Lamp) (v : Panel) (j : Nat) :
    (v.withLamps f).lamp j = if within 1 64 j = true then { v.lamp j with desired := f j } else v.lamp j := by
  unfold Panel.withLamps; rw [Panel.foldl_desire]; simp only [mem_numbers]

theorem relamp_panel? (s : State) (p : Nat) :
    (relamp s).panel? p = (s.panel? p).map fun v => v.withLamps fun k => s.lampOf p k v := by
  simp [State.panel?, relamp]

/-- R176: what the re-derivation of the lamps does: the desired values of every declared panel become the derived ones. -/
theorem relamp_relamped (s : State) : Relamped s (relamp s) := by
  refine ⟨rfl, fun p hp => by simp [relamp_panel?, hp], fun p v hv => ⟨(v.withLamps fun k => s.lampOf p k v).lamps, ?_, ?_⟩⟩
  · rw [relamp_panel?, hv, Option.map_some, ← Panel.withLamps_eq]
  · intro k
    have h := Panel.lamp_withLamps (fun k => s.lampOf p k v) v k
    unfold Panel.lamp at h
    refine ⟨?_, fun hk => ?_⟩
    · rw [h]; split <;> rfl
    · rw [h, if_pos hk]; rfl

end Sys2Proof.Machine
end

