-- ==== Sys2Proof/Laws/Mix.lean ====
section
/-! SUPPORT. What a handling of the Talk Mix Engine reads, and that each change of the talk set is handed over to it in one
handling (R110): later proofs cite these lemmas and do not unfold the handling. -/

namespace Sys2Proof.Machine

/-- What a handling reads of a state: its talks, IFBs, ports and path table. -/
structure SameMix (s t : State) : Prop where
  talks : t.tc.talks = s.tc.talks
  ifbs : t.tc.ifbs = s.tc.ifbs
  ports : t.tc.ports = s.tc.ports
  tme : t.tme = s.tme

/-- R117: a succession is seen in the talks and the IFBs. -/
theorem succession_congr {b b' s s' : State} (h1 : b'.tc.talks = b.tc.talks) (h2 : b'.tc.ifbs = b.tc.ifbs)
    (h3 : s'.tc.talks = s.tc.talks) (h4 : s'.tc.ifbs = s.tc.ifbs) : b'.succession s' = b.succession s := by
  funext t l; unfold State.succession State.interrupts State.ifb? State.talk?; rw [h1, h2, h3, h4]

/-- R110 steps 1 to 3 read what `SameMix` lists. -/
theorem standings_congr {b b' s s' : State} (h1 : b'.tc.talks = b.tc.talks) (h2 : b'.tc.ifbs = b.tc.ifbs)
    (h : SameMix s s') : b'.standings s' = b.standings s := by
  have hf : s'.talkPath = s.talkPath := by
    funext t l a; unfold State.talkPath State.talksOf State.contributors State.talk?; rw [h.talks]
  have hp : b'.pairStanding s' = b.pairStanding s := by
    funext p; unfold State.pairStanding State.pathStands; rw [hf, h.tme, succession_congr h1 h2 h.talks h.ifbs]
  have hq : s'.programStanding = s.programStanding := by funext e; unfold State.programStanding; rw [h.tme]
  unfold State.standings State.talkPairs; rw [hp, hq, h.talks, h.ifbs]

/-- R108: the candidate order reads the talks. -/
theorem candidateBefore_congr {s s' : State} (h : s'.tc.talks = s.tc.talks) : candidateBefore s' = candidateBefore s := by
  funext p q; unfold candidateBefore State.oldestCreation State.talk?; rw [h]

/-- R110: the path table after a handling is a function of what `SameMix` lists. -/
theorem handling_tme_congr {b b' s s' : State} (h1 : b'.tc.talks = b.tc.talks) (h2 : b'.tc.ifbs = b.tc.ifbs)
    (h : SameMix s s') : (handling b' s').tme = (handling b s).tme := by
  have ha : admissions s' (b'.standings s') = admissions s (b.standings s) := by
    rw [standings_congr h1 h2 h]; unfold admissions; rw [candidateBefore_congr h.talks, h.tme]
  have hc : ∀ x y : TalkMix, ({ s' with tme := x } : State).withCoefficient = ({ s with tme := y } : State).withCoefficient := by
    intro x y; funext ps p
    unfold State.withCoefficient talkCoefficient programCoefficient State.dimTerm State.dimmed State.port State.ifb?
    simp only [h.talks, h.ports, h.ifbs]
  unfold handling evaluateStarved recompute
  simp only [handOver_tme, ha, h.tme,
    hc _ { s.tme with paths := (admissions s (b.standings s)).paths, counter := (admissions s (b.standings s)).counter }]

/-- What an event hands to the Talk Mix Engine is seen in its Talk Controller and its path table alone. -/
theorem MixHandled.congr {a b a' b' : State} (h : MixHandled a b) (h1 : a'.tc = a.tc) (h2 : a'.tme = a.tme)
    (h3 : b'.tc = b.tc) (h4 : b'.tme = b.tme) : MixHandled a' b' := by
  rcases h with h | ⟨⟨h5, h6⟩, h7⟩
  · refine .inl ?_
    rw [h4, h]
    exact (handling_tme_congr (by rw [h1]) (by rw [h1]) ⟨by simp [h3], by simp [h3], by simp [h3], by simp [h2]⟩).symm
  · exact .inr ⟨⟨by rw [h3, h1, h5], by rw [h3, h1, h6]⟩, by rw [h4, h2, h7]⟩

/-- R110: a handling is handed over. -/
theorem handling_mixed {b s : State} (h : s.tme = b.tme) : MixHandled b (handling b s) :=
  .inl (handling_tme_congr rfl rfl ⟨by simp, by simp, by simp, by simp [h]⟩)

/-- An event that leaves the Talk Controller and the path table hands nothing over. -/
theorem MixHandled.refl {a b : State} (h1 : b.tc = a.tc) (h2 : b.tme = a.tme) : MixHandled a b :=
  .inr ⟨⟨by rw [h1], by rw [h1]⟩, h2⟩

/-- R98: a new resolution of the ONAIR talks is handed over. -/
theorem resolveOnair_mixed (s : State) : MixHandled s (resolveOnair s) := by
  unfold resolveOnair; simp only []; split
  · exact .refl rfl rfl
  · exact handling_mixed rfl

/-- R86: a creation is handed over. -/
theorem createTalk_mixed (t : Talk) (s : State) : MixHandled s (createTalk t s) :=
  (handling_mixed (by simp [resolveAgain]) : MixHandled s (handling s
    (resolveAgain (fun x => x.toIfb || x.id == t.id) (enterArbitration t (joinTalk t s))))).congr rfl rfl
    (by simp [createTalk]) (by simp [createTalk])

/-- R87: endings are handed over together. -/
theorem endTalks_mixed (ids : List Nat) (s : State) : MixHandled s (endTalks ids s) := by
  unfold endTalks; split
  · exact (handling_mixed (by simp [removeTalks, resolveAgain]) : MixHandled s (handling s (removeTalks ids s))).congr
      rfl rfl (by simp) (by simp)
  · exact .refl rfl rfl

/-- R61: what follows a tally change is handed over. -/
theorem recomputeTally_mixed (u : State) : MixHandled u (recomputeTally u) := by
  unfold recomputeTally; simp only []
  split
  · exact (resolveOnair_mixed (driveAll (raise .tallyChange
        (if newFault u.tt.roots (retrace u).tt.roots then raise .traceFault (retrace u) else retrace u)))).congr
      (by split <;> simp [driveAll, retrace]) (by split <;> simp [driveAll, retrace]) rfl rfl
  · refine .refl ?_ ?_ <;> split <;> simp [retrace]

/-- R104: a new IFB table is handed over. -/
theorem writeIfb_mixed (n : Nat) (v : Option Ifb) (s : State) : MixHandled s (writeIfb n v s) := by
  unfold writeIfb; simp only []
  generalize hs : resolveAgain Talk.toIfb _ = x
  have hx : x.tme = s.tme := by rw [← hs]; rfl
  exact (handling_mixed hx : MixHandled s (handling s x)).congr rfl rfl (by simp) (by simp)

/-- R92: the loss of a key's talk writes that key, or nothing. -/
theorem loseTalk_writes (p k : Nat) (s : State) : loseTalk p k s = s ∨ ∃ v, loseTalk p k s = s.setKey p k v := by
  unfold loseTalk; simp only []
  split
  · exact .inr ⟨_, rfl⟩
  · exact .inr ⟨_, rfl⟩
  · exact .inr ⟨_, rfl⟩
  · exact .inl rfl

/-- R99: the keys and the refusals of forced endings leave what a handling reads. -/
theorem forcedEnding_kept (t : Talk) (s : State) : SameMix s (forcedEnding t s) := by
  unfold forcedEnding
  split
  · rename_i p k _
    rcases loseTalk_writes p k s with h | ⟨v, h⟩ <;> rw [h] <;> constructor <;> simp
  · exact ⟨rfl, rfl, rfl, rfl⟩

/-- R99: the keys and the refusals of forced endings leave what an event handed over. -/
theorem MixHandled.forced {s x : State} (h : MixHandled s x) (t : Talk) : MixHandled s (forcedEnding t x) := by
  obtain ⟨k1, k2, k3, k4⟩ := forcedEnding_kept t x
  rcases h with h | ⟨⟨h5, h6⟩, h7⟩
  · exact .inl ((k4.trans h).trans (handling_tme_congr (b := s) (b' := s) (s := { x with tme := s.tme })
      (s' := { forcedEnding t x with tme := s.tme }) rfl rfl ⟨k1, k2, k3, rfl⟩).symm)
  · exact .inr ⟨⟨k2.trans h5, by rw [k1, h6]⟩, k4.trans h7⟩

/-- R99: all of them. -/
theorem MixHandled.foldl_forced {s : State} (ts : List Talk) : ∀ {x : State}, MixHandled s x →
    MixHandled s (ts.foldl (fun y t => forcedEnding t y) x) := by
  induction ts with
  | nil => exact fun h => h
  | cons t ts ih => exact fun h => ih (h.forced t)

/-- R117: the announcement leaves what an event handed over. -/
theorem MixHandled.announced {s x : State} (h : MixHandled s x) : MixHandled s (announceInterrupters s x) :=
  h.congr rfl rfl (by simp) (by simp)

/-- R97: a new resolution keeps the number of talks. -/
theorem resolveAgain_length (named : Talk → Bool) (s : State) :
    (resolveAgain named s).tc.talks.length = s.tc.talks.length := by simp [resolveAgain]

/-- R98: a recount changes reservations alone. -/
theorem recount_contributions (doms : List Domain) (s : State) : SameContributions s (recount doms s) := by
  refine ⟨rfl, ?_⟩
  simp only [recount, List.map_map]
  refine List.map_congr_left fun t _ => ?_
  simp only [Function.comp]
  split
  · split <;> rfl
  · rfl

/-- R87: talks that end leave the talk set shorter. -/
theorem removeTalks_shorter {ended : List Nat} {s : State} {t : Talk} (h : t ∈ s.tc.talks) (he : ended.contains t.id) :
    (removeTalks ended s).tc.talks.length < s.tc.talks.length := by
  unfold removeTalks; rw [resolveAgain_length]
  exact List.length_filter_lt_length_iff_exists.2 ⟨t, h, by simpa using he⟩

/-- R99: the talks that end are among those asked about. -/
theorem overflowing_mem {t : Talk} : ∀ {ts : List Talk} {n : Nat}, t ∈ overflowing ts n → t ∈ ts
  | [], _, h => by simp [overflowing] at h
  | u :: ts, n, h => by
    unfold overflowing at h
    split at h
    · cases h
    · rcases List.mem_cons.1 h with h | h
      · exact h ▸ .head _
      · exact .tail _ (overflowing_mem h)

/-- R98, R99: a camera change is handed over, the forced endings and the new listeners together. -/
theorem cameraChange_mixed (c : Nat) (doms : List Domain) (s : State) : MixHandled s (cameraChange c doms s) := by
  unfold cameraChange; simp only []
  refine MixHandled.foldl_forced _ ?_
  generalize he : overflowing _ _ = ended
  have hm : ∀ t ∈ ended, t ∈ (recount doms s).tc.talks := fun t ht => by
    rw [← he] at ht; have := overflowing_mem ht; simp at this; exact this.1
  refine MixHandled.announced ?_
  cases ended with
  | nil =>
    simp only [List.isEmpty_nil, if_true]
    split
    · rename_i h
      exact .inr ⟨⟨rfl, by rw [h]; exact (recount_contributions doms s).2⟩, rfl⟩
    · exact handling_mixed rfl
  | cons t ts =>
    have hl := removeTalks_shorter (ended := (t :: ts).map (·.id)) (hm t (.head _)) (by simp)
    simp only [List.isEmpty_cons, Bool.false_eq_true, if_false]
    rw [if_neg fun h => Nat.ne_of_lt hl ((resolveAgain_length _ _).symm.trans (congrArg List.length h))]
    exact handling_mixed rfl

end Sys2Proof.Machine
end

