-- ==== Sys2Proof/Laws/Effects.lean ====
section
/-! SUPPORT. What each shared operation does, said once: tables, the link, a recomputation of the tallies, a window's writes, a
panel's transaction and the events of the key event queue.  Later proofs cite these lemmas and do not unfold the operations. -/

namespace Sys2Proof.Machine

/-! ### Tables -/

/-- A value that is found is listed. -/
theorem lookup_mem {α : Type} {es : List (Nat × α)} {k : Nat} {v : α} (h : lookup es k = some v) : (k, v) ∈ es := by
  induction es with
  | nil => simp [lookup] at h
  | cons e es ih =>
    unfold lookup at h; split at h
    · rename_i hk; cases h; subst hk; simp
    · simp [ih h]

/-- In a list of rising numbers, a listed value is found. -/
theorem mem_lookup {α : Type} {es : List (Nat × α)} {k : Nat} {v : α} (ha : ascending es = true) (h : (k, v) ∈ es) : lookup es k = some v := by
  induction es with
  | nil => simp at h
  | cons e es ih =>
    rw [ascending_cons] at ha
    rcases List.mem_cons.1 h with h | h
    · subst h; simp [lookup]
    · have := ha.1 _ h; unfold lookup; rw [if_neg (by simp at this; omega)]; exact ih ha.2 h

/-- A number that is not listed holds the start value. -/
theorem get_of_not_mem {α : Type} (t : Table α) (a : α) (x : Nat) (h : x ∉ t.keys) : t.get a x = a := by
  unfold Table.get Table.find?
  cases hf : lookup t.entries x with
  | none => rfl
  | some v => exact absurd (List.mem_map.2 ⟨(x, v), lookup_mem hf, rfl⟩) h

/-! ### Frames and the link -/

/-- R180: bytes followed by their CRC check. -/
theorem crcChecks_withCrc (bs : List Byte) : crcChecks (withCrc bs) = true := by
  unfold crcChecks withCrc; simp [be16]

/-- R181: bytes without a start byte leave the receiver hunting. -/
theorem fromStart_nil (b : List Byte) (h : (0xC3 : Byte) ∉ b) : fromStart b = [] := by
  induction b with
  | nil => rfl
  | cons x xs ih => simp at h; simp [fromStart, Ne.symm h.1, ih (by simpa using h.2)]

/-- R181: a frame of section 11.2 is judged good. -/
theorem judgeBytes_hostFrame (k t : Byte) (p : List Byte) (h : p.length ≤ 240) :
    judgeBytes (hostFrame k t p) = .good ⟨k, t, p⟩ [] := by
  have hl : (byte p.length).toNat = p.length := by simp [byte]; omega
  unfold judgeBytes hostFrame
  simp only [fromStart, if_true]
  have h5 : (withCrc (byte p.length :: k :: t :: p)) = byte p.length :: (k :: t :: p ++ be16 (crc16 (byte p.length :: k :: t :: p)).toNat) := rfl
  rw [h5]; simp only [hl]
  rw [if_neg (by omega), if_neg (by simp [be16])]
  rw [← h5]
  have hlen : (withCrc (byte p.length :: k :: t :: p)).length = p.length + 5 := by simp [withCrc, be16]
  rw [List.take_of_length_le (by omega), crcChecks_withCrc, List.drop_of_length_le (by omega)]
  simp [withCrc]

/-- R187, R188: raising a flag changes the link alone. -/
theorem raise_eq (f : Flag) (s : State) : raise f s = { s with hlc := s.hlc.raised f } := by
  have := raise_hlc f s
  rw [← this]
  unfold raise setFlag queueMessage; split <;> (try split) <;> (try split) <;> rfl

/-- R187: handing over a state source changes the link alone. -/
theorem handOver_eq (f : Flag) (a b) (s : State) : handOver f a b s = { s with hlc := s.hlc.handed f a b } := by
  have := handOver_hlc f a b s
  cases s; simp at *; unfold handOver setFlag queueMessage at *; grind

/-! ### The recomputation of the tallies (R55 to R61) -/

/-- R55: each root after a recomputation. -/
theorem root_retrace (s : State) (r : Nat) : (retrace s).root r = (s.root r).after (s.traceRoot (s.root r)) := by
  unfold State.root retrace
  rw [Table.get_mapValues]; rfl

/-- R55: a result leaves the enable and the configuration. -/
theorem after_kept (r : Root) (e) : (r.after e).enabled = r.enabled ∧ (r.after e).config = r.config := by
  cases e with
  | none => exact ⟨rfl, rfl⟩
  | some x => cases x <;> exact ⟨rfl, rfl⟩

/-- R43, R55: a root record after a trace is one whose results are those of that trace. -/
theorem rootTraced_after {s t : State} (h : ∀ r, t.traceRoot r = s.traceRoot r) (r : Root) :
    RootTraced t (r.after (s.traceRoot r)) := by
  have k := after_kept r (s.traceRoot r)
  rw [← h r] at k ⊢
  constructor
  · intro ho
    rw [k.1, k.2] at ho
    have : t.traceRoot r = none := by unfold State.traceRoot; rcases ho with ho | ho <;> simp [ho]
    rw [this]; exact ⟨rfl, rfl⟩
  all_goals
    intro c
    intros
    rename_i he hc ht
    rw [k.1] at he; rw [k.2] at hc
    have : t.traceRoot r = some (t.trace c.kind) := by unfold State.traceRoot; simp [he, hc]
    rw [this, ht]; exact ⟨rfl, rfl⟩

/-- R56: whether a recomputation finds a new trace fault. -/
theorem newFault_iff (s : State) (h : ascending s.tt.roots.entries = true) :
    newFault s.tt.roots (retrace s).tt.roots = true ↔ ∃ r, ((retrace s).root r).fault ≠ none ∧ ((retrace s).root r).fault ≠ (s.root r).fault := by
  have ha : ascending (retrace s).tt.roots.entries = true := Table.ascending_mapValues _ _ h
  unfold newFault; simp only [List.any_eq_true, Bool.and_eq_true, bne_iff_ne]
  constructor
  · rintro ⟨e, he, h1, h2⟩
    refine ⟨e.1, ?_⟩
    have : (retrace s).root e.1 = e.2 := by
      unfold State.root Table.get Table.find?; rw [mem_lookup ha (k := e.1) (v := e.2) he]; rfl
    rw [this]; exact ⟨by intro hn; rw [hn] at h1; simp at h1, h2⟩
  · rintro ⟨r, h1, h2⟩
    cases hf : lookup (retrace s).tt.roots.entries r with
    | none => 
      have : (retrace s).root r = Root.start := by unfold State.root Table.get Table.find?; rw [hf]; rfl
      rw [this] at h1; exact absurd rfl h1
    | some v =>
      have : (retrace s).root r = v := by unfold State.root Table.get Table.find?; rw [hf]; rfl
      rw [this] at h1 h2
      refine ⟨(r, v), lookup_mem hf, ?_, h2⟩
      cases hv : v.fault with
      | none => exact absurd hv h1
      | some _ => rfl

/-- Whether two colour tables differ. -/
theorem coloursDiffer_iff (old new : Table ColourSet) : coloursDiffer old new = true ↔ ∃ x, new.get ColourSet.none x ≠ old.get ColourSet.none x := by
  unfold coloursDiffer; simp only [List.any_eq_true, bne_iff_ne, List.mem_append]
  constructor
  · rintro ⟨x, _, h⟩; exact ⟨x, Ne.symm h⟩
  · rintro ⟨x, h⟩
    refine ⟨x, ?_, Ne.symm h⟩
    by_contra hn; simp only [not_or] at hn
    rw [get_of_not_mem _ _ _ hn.1, get_of_not_mem _ _ _ hn.2] at h; exact h rfl

/-- R61: whether a recomputation changes a colour set. -/
theorem retrace_differs_iff (s : State) : (coloursDiffer s.tt.coloursA (retrace s).tt.coloursA || coloursDiffer s.tt.coloursB (retrace s).tt.coloursB) = true ↔
    ∃ dom x, (retrace s).colours dom x ≠ s.colours dom x := by
  rw [Bool.or_eq_true, coloursDiffer_iff, coloursDiffer_iff]
  constructor
  · rintro (⟨x, h⟩ | ⟨x, h⟩)
    · exact ⟨.a, x, h⟩
    · exact ⟨.b, x, h⟩
  · rintro ⟨dom, x, h⟩
    cases dom
    · exact .inl ⟨x, h⟩
    · exact .inr ⟨x, h⟩

/-- A trace reads the destinations and the ties. -/
theorem traceFrom_congr {s t : State} (h1 : t.rc.dests = s.rc.dests) (h2 : t.tt.ties = s.tt.ties) (l : Level) :
    ∀ n v d, t.traceFrom l n v d = s.traceFrom l n v d := by
  intro n
  induction n with
  | zero => intro v d; unfold State.traceFrom State.levelAt State.dest State.tie?; rw [h1, h2]
  | succ n ih => intro v d; unfold State.traceFrom State.levelAt State.dest State.tie?; rw [h1, h2]; simp only [ih]

/-- The trace of a root reads the destinations, the ties, the mixers and the input maps. -/
theorem traceRoot_congr {s t : State} (h1 : t.rc.dests = s.rc.dests) (h2 : t.tt.ties = s.tt.ties) (h3 : t.tt.mixers = s.tt.mixers)
    (h4 : t.tt.inputMap1 = s.tt.inputMap1) (h5 : t.tt.inputMap2 = s.tt.inputMap2) (r : Root) : t.traceRoot r = s.traceRoot r := by
  unfold State.traceRoot; congr 2; funext c
  unfold State.trace State.mixer State.mapEntry
  rw [h3, h4, h5]
  cases c.kind <;> simp [traceFrom_congr h1 h2]

/-- R58: a recomputation over its own results gives them again. -/
theorem recomputed_of {s t : State} (hr : t.rc.dests = s.rc.dests) (ht : t.tt = (retrace s).tt) : Recomputed t := by
  have tr : ∀ r, t.traceRoot r = s.traceRoot r := fun r => traceRoot_congr hr (by rw [ht]; rfl) (by rw [ht]; rfl) (by rw [ht]; rfl) (by rw [ht]; rfl) r
  constructor
  · intro r
    have e1 : t.root r = (retrace s).root r := by unfold State.root; rw [ht]
    rw [e1, root_retrace]; exact rootTraced_after tr _
  · have hb : ∀ dom, t.buildColours dom = s.buildColours dom := by
      intro dom; unfold State.buildColours
      rw [ht]
      have : (retrace s).tt.roots.values = s.tt.roots.values.map (fun r => r.after (s.traceRoot r)) := by
        simp [retrace, Table.values, Table.mapValues]
      rw [this, List.foldl_map]
      congr 1; funext tb r
      unfold addRoot
      have k := after_kept r (s.traceRoot r)
      have : t.traceRoot (r.after (s.traceRoot r)) = s.traceRoot r := by
        rw [tr]; unfold State.traceRoot at *; rw [k.1, k.2]
      rw [this, k.2]
    rw [hb, hb, ht]; exact ⟨rfl, rfl⟩

/-- A recomputation leaves the router. -/
theorem recomputeTally_cases (s : State) :
    (recomputeTally s).tt = (retrace s).tt ∧ (recomputeTally s).rc = s.rc := by
  constructor
  · unfold recomputeTally; simp only []; split <;> split <;> simp [tallyChange]
  · simp

/-- R68: a drive reads the outputs, the cameras, the calls and the colours. -/
theorem driveOf_congr {s t : State} (h1 : ∀ n, (t.output n).config = (s.output n).config ∧ (t.output n).fault = (s.output n).fault)
   (h2 : t.tou.cameras = s.tou.cameras) (h3 : t.tou.holders = s.tou.holders) (h4 : t.tt = s.tt) (n : Nat) : t.driveOf n = s.driveOf n := by
  have hc : ∀ c, t.calls n c = s.calls n c := by
    intro c; unfold State.calls State.camera? State.callCount State.colours; rw [h2, h3, h4]
  unfold State.driveOf State.colours; rw [(h1 n).1, (h1 n).2, h4]
  have : t.calls n = s.calls n := funext hc
  rw [this]

/-- R69: each output after a re-evaluation. -/
theorem output_driveAll (s : State) (n : Nat) : (driveAll s).output n = { s.output n with drive := s.driveOf n } := by
  unfold State.output driveAll
  simp only []
  unfold Table.get
  rw [Table.find?_mapValues]
  cases h : s.tou.outputs.find? n with
  | some v => simp
  | none => 
    have : s.output n = Output.start := by unfold State.output Table.get; rw [h]; rfl
    simp [State.driveOf, this]; rfl

/-- R98: the two outcomes of a new resolution. -/
theorem resolveOnair_eq (s : State) : resolveOnair s = s ∨ resolveOnair s = handling s (resolveAgain (fun t => t.target == .onair) s) := by
  unfold resolveOnair; simp only []; split <;> simp

/-- R110, R112: a handling changes the path table and the link alone. -/
theorem handling_eq (b s : State) : handling b s = { s with
    hlc := s.hlc.handed .pathStarved s.tme.pathStarved (handling b s).tme.pathStarved, tme := (handling b s).tme } := by
  have key : ∀ (f : Flag) (x y : Bool) (z : State), handOver f x y z = { z with hlc := z.hlc.handed f x y } := by
    intro f x y z; rw [← handOver_hlc]
    unfold handOver setFlag queueMessage; split
    · rfl
    · split
      · split
        · split
          · rfl
          · split <;> rfl
        · rfl
      · rfl
  unfold handling evaluateStarved; simp only []
  rw [key]; rfl

/-- R61: what follows a tally change. -/
theorem tallyChange_eq (s : State) : ∃ tk : List Talk, SameTalks tk s.tc.talks ∧
    (tallyChange s = { driveAll s with
      tc := { s.tc with talks := tk }
      tme := (tallyChange s).tme
      hlc := s.hlc.handed .pathStarved s.tme.pathStarved (tallyChange s).tme.pathStarved }) ∧
    (tk = s.tc.talks → (tallyChange s).tme = s.tme) ∧
    (∀ x ∈ tk, x.target = .onair → x.listeners = s.listenersOf x) := by
  let d := driveAll s
  let r := resolveAgain (fun t => t.target == .onair) d
  have hl : ∀ x, d.listenersOf x = s.listenersOf x := by intro x; rfl
  have hb : ∀ t : Talk, ∀ ls, s.listenersOf { t with listeners := ls } = s.listenersOf t := by intro t ls; rfl
  have hsame : SameTalks r.tc.talks s.tc.talks := by
    simp only [r, d, resolveAgain, SameTalks, List.map_map]
    apply List.map_congr_left; intro t _; simp only [Function.comp]; split <;> rfl
  have hlis : ∀ x ∈ r.tc.talks, x.target = .onair → x.listeners = s.listenersOf x := by
    intro x hx ht
    simp only [r, resolveAgain, List.mem_map] at hx
    obtain ⟨y, hy, rfl⟩ := hx
    split
    · exact hl y
    · rename_i h1; rw [if_neg h1] at ht; simp [ht] at h1
  refine ⟨r.tc.talks, hsame, ?_, ?_, hlis⟩
  · unfold tallyChange resolveOnair; simp only []
    split
    · rename_i h
      have : r.tc.talks = s.tc.talks := h
      rw [this]; simp [HostLink.handed]; rfl
    · rw [handling_eq]; rfl
  · intro h
    unfold tallyChange resolveOnair; simp only []
    have : (resolveAgain (fun t => t.target == .onair) (driveAll s)).tc.talks = (driveAll s).tc.talks := h
    rw [if_pos this]; rfl

/-- R176: a re-derivation over a state with the same panel bus. -/
theorem relamped_tc (u w : State) (h : w.pbc = u.pbc) : Relamped u (relamp w) := by
  have := relamp_relamped w
  constructor
  · rw [this.bus, h]
  · intro p hp; exact this.undeclared p (by unfold State.panel? at *; rw [h]; exact hp)
  · intro p v hv; exact this.declared p v (by unfold State.panel? at *; rw [h]; exact hv)

/-- R56 to R58, R61, R69, R98, R176: a recomputation with the lamps that relamp_follows it. -/
theorem relamp_recomputeTally (u : State) (ha : ascending u.tt.roots.entries = true) : Retraced u (relamp (recomputeTally u)) := by
  have hlamp := relamped_tc u (recomputeTally u) (by simp)
  have hc := recomputeTally_cases u
  have hmix : MixHandled u (relamp (recomputeTally u)) := (recomputeTally_mixed u).congr rfl rfl (by simp) (by simp)
  have hcol : ∀ dom x, (relamp (recomputeTally u)).colours dom x = (retrace u).colours dom x := by
    intro dom x; unfold State.colours; simp [hc.1]
  have hroot : ∀ r, (relamp (recomputeTally u)).root r = (retrace u).root r := by
    intro r; unfold State.root; simp [hc.1]
  have hre : Recomputed (relamp (recomputeTally u)) := recomputed_of (s := u) (by simp) (by simp [hc.1])
  have hf := newFault_iff u ha
  have hd := retrace_differs_iff u
  -- the first flag
  let a : State := if newFault u.tt.roots (retrace u).tt.roots then raise .traceFault (retrace u) else retrace u
  have haeq : a = { retrace u with hlc := a.hlc } := by simp only [a]; split <;> first | rfl | rw [raise_eq]
  have hflag : RaisedIf .traceFault (∃ r, ((retrace u).root r).fault ≠ none ∧ ((retrace u).root r).fault ≠ (u.root r).fault) u.hlc a.hlc := by
    rw [← hf]; simp only [a]; constructor
    · intro h; rw [if_pos h, raise_hlc]; rfl
    · intro h; rw [if_neg h]; rfl
  by_cases hdiff : (coloursDiffer u.tt.coloursA (retrace u).tt.coloursA || coloursDiffer u.tt.coloursB (retrace u).tt.coloursB) = true
  · have e : recomputeTally u = tallyChange (raise .tallyChange a) := by
      unfold recomputeTally; simp only [hdiff, if_true]; first | done | rfl
    obtain ⟨tk, h1, h2, h3, h4⟩ := tallyChange_eq (raise .tallyChange a)
    rw [← e] at h2 h3
    rw [raise_eq, haeq] at h1 h2 h3 h4
    simp only [] at h1 h2 h3 h4
    have outs : ∀ n, (relamp (recomputeTally u)).output n = { u.output n with drive := (retrace u).driveOf n } := by
      intro n
      have : (relamp (recomputeTally u)).output n = (driveAll (retrace u)).output n := by
        show (recomputeTally u).output n = _
        rw [h2]; rfl
      rw [this, output_driveAll]; rfl
    have same : SameOutputs u (relamp (recomputeTally u)) := fun n => by rw [outs]; exact ⟨rfl, rfl⟩
    have htou : (relamp (recomputeTally u)).tou = { u.tou with outputs := (relamp (recomputeTally u)).tou.outputs } := by
      show (recomputeTally u).tou = { u.tou with outputs := (recomputeTally u).tou.outputs }
      rw [h2]; rfl
    have htc : (relamp (recomputeTally u)).tc = { u.tc with talks := tk } := by
      show (recomputeTally u).tc = _
      rw [h2]; rfl
    refine ⟨hlamp, by simp, by simp [hc.1, retrace], fun r => by rw [hroot, root_retrace]; exact after_kept _ _, hre,
      ⟨by simp, by simp, ⟨htou, same⟩, by rw [htc]; exact ⟨rfl, h1⟩⟩, fun _ => ⟨?_, ?_⟩, ?_, ?_, hmix, ?_, by simp⟩
    · intro n; rw [outs]
      exact (driveOf_congr (s := retrace u) (t := relamp (recomputeTally u)) (fun m => by rw [outs]; exact ⟨rfl, rfl⟩) (by rw [htou]; rfl) (by rw [htou]; rfl) (by simp [hc.1]) n).symm
    · intro x hx ht
      rw [htc] at hx
      rw [h4 x hx ht]
      unfold State.listenersOf State.targetPorts; rw [ht]
      simp only []
      cases x.domain with
      | none => rfl
      | some d =>
        have hcam : (relamp (recomputeTally u)).tou.cameras = u.tou.cameras := by rw [htou]
        have hcols : ∀ y, (relamp (recomputeTally u)).colours d y = (retrace u).colours d y := hcol d
        simp only [State.onairPorts, hcam, hcols]; rfl
    · intro hno
      obtain ⟨dom, x, h⟩ := hd.1 hdiff
      rw [← hcol] at h; exact absurd (hno dom x) h
    · intro h; rw [htc] at h
      have := h3 h
      show (recomputeTally u).tme = u.tme
      rw [this]; rfl
    · refine ⟨a.hlc, a.hlc.raised .tallyChange, ?_, ⟨fun _ => rfl, fun h => ?_⟩, ?_⟩
      · simp only [hroot]; exact hflag
      · exact absurd (by simpa only [hcol] using hd.1 hdiff) h
      · show (recomputeTally u).hlc = _
        rw [h2]; rfl
  · have e : recomputeTally u = a := by
      unfold recomputeTally; simp only [hdiff]; rfl
    have e2 : relamp (recomputeTally u) = relamp { retrace u with hlc := a.hlc } := by rw [e]; rw [← haeq]
    have hno : ∀ dom x, (relamp (recomputeTally u)).colours dom x = u.colours dom x := by
      intro dom x; by_contra h; exact hdiff (hd.2 ⟨dom, x, by rw [← hcol]; exact h⟩)
    refine ⟨hlamp, by simp, by simp [hc.1, retrace], fun r => by rw [hroot, root_retrace]; exact after_kept _ _, hre,
      ⟨by simp, by simp, by rw [e2]; exact ⟨rfl, fun n => ⟨rfl, rfl⟩⟩, by rw [e2]; exact ⟨rfl, rfl⟩⟩, ?_, ?_, ?_, hmix, ?_, by simp⟩
    · rintro ⟨dom, x, h⟩; exact absurd (hno dom x) h
    · intro _; rw [e2]; exact ⟨rfl, rfl, rfl⟩
    · intro _; rw [e2]; rfl
    · refine ⟨a.hlc, a.hlc, ?_, ⟨?_, fun _ => rfl⟩, ?_⟩
      · simp only [hroot]; exact hflag
      · rintro ⟨dom, x, h⟩; exact absurd (hno dom x) h
      · rw [e2]; simp [HostLink.handed]

/-! ### The writes of a window (R17) -/

/-- One level of a per-level record written. -/
theorem PerLevel.get_put {α} (p : PerLevel α) (v : α) (l k : Level) : (p.put v l).get k = if k = l then v else p.get k := by
  cases l <;> cases k <;> rfl

/-- One level of a destination written. -/
theorem levelAt_setLevel (s : State) (d e : Nat) (l k : Level) (v : LevelState) :
    (s.setLevel d l v).levelAt e k = if e = d ∧ k = l then v else s.levelAt e k := by
  unfold State.levelAt State.setLevel
  by_cases h : e = d
  · subst h; rw [State.dest_setDest_self, PerLevel.get_put]; simp
  · rw [State.dest_setDest_ne _ h]; simp [h]

/-- A device record holds no level. -/
theorem levelAt_setDevice (s : State) (n : Nat) (v : Device) (d : Nat) (l : Level) : (s.setDevice n v).levelAt d l = s.levelAt d l := rfl

/-- R17: one level after one answer. -/
theorem levelAt_applyWrite (s : State) (w : Write) (d : Nat) (l : Level) :
    (applyWrite s w).levelAt d l = if d = w.dest ∧ l = w.level then
      (match s.levelAt d l with
       | .notFitted => .notFitted
       | .fitted x _ => if w.state = .acknowledged then .fitted w.source false else .fitted x true) else s.levelAt d l := by
  unfold applyWrite
  by_cases h : d = w.dest ∧ l = w.level
  · obtain ⟨rfl, rfl⟩ := h
    cases hv : s.levelAt w.dest w.level with
    | notFitted => simp [hv]
    | fitted x f =>
      simp only [and_self, if_true]
      split
      · rw [levelAt_setLevel]; simp
      · split
        · split <;> simp [levelAt_setDevice, levelAt_setLevel]
        · simp [levelAt_setLevel]
  · rw [if_neg h]
    split
    · rfl
    · split
      · rw [levelAt_setLevel, if_neg h]
      · simp only []; split
        · split <;> simp only [levelAt_setDevice, levelAt_setLevel, if_neg h]
        · rw [levelAt_setLevel, if_neg h]

/-- R17: one level after all the answers. -/
theorem levels_fold (ws : List Write) (s : State) (d : Nat) (l : Level) :
    (ws.foldl applyWrite s).levelAt d l = closedLevel ws d l (s.levelAt d l) := by
  induction ws generalizing s with
  | nil => rfl
  | cons w ws ih =>
    rw [List.foldl_cons, ih, levelAt_applyWrite]
    unfold closedLevel
    by_cases h : d = w.dest ∧ l = w.level
    · have hb : (w.dest == d && w.level == l) = true := by simp [h]
      rw [if_pos h, List.filter_cons, if_pos hb]
      rfl
    · have hb : ¬ (w.dest == d && w.level == l) = true := by simp; intro h1 h2; exact h ⟨h1.symm, h2.symm⟩
      rw [if_neg h, List.filter_cons, if_neg hb]

/-! ### Takes and salvos -/

/-- R167: the counts of pending firings that state `s` would hold over another table of them. -/
def State.countsOver (s : State) (fs : Table (Table Nat)) (p n : Nat) : Nat :=
  { s with fd := { s.fd with firings := fs } }.pendingFirings p n

/-- R28, R167: the end of a firing issues its reply, or lowers its count of pending firings. -/
theorem endFiring_eq (f : Firing) (s : State) : ∃ fs, endFiring f s = { s with
    hlc := { s.hlc with outbound := s.hlc.outbound ++ (match f.origin with
      | .system tag => [{ cls := .deferred, tag := tag, payload := ReplyCode.done.byte :: countsBytes f.counts }]
      | .panel _ _ => []) }
    fd := { s.fd with firings := fs } } ∧
    ∀ p n, s.countsOver fs p n = s.pendingFirings p n - if (TakeGroup.firedBy p n ⟨some f, []⟩) = true then 1 else 0 := by
  have fired : ∀ p n, TakeGroup.firedBy p n ⟨some f, []⟩ =
      (match f.origin with | .panel q _ => q == p && f.salvo == n | .system _ => false) := fun p n => rfl
  unfold endFiring
  cases hf : f.origin with
  | system tag =>
    refine ⟨s.fd.firings, rfl, fun p n => ?_⟩
    rw [fired, hf]; rfl
  | panel q k =>
    refine ⟨(s.setPendingFirings q f.salvo (s.pendingFirings q f.salvo - 1)).fd.firings, by simp [State.setPendingFirings], fun p n => ?_⟩
    rw [fired, hf]
    show (s.setPendingFirings q f.salvo (s.pendingFirings q f.salvo - 1)).pendingFirings p n = _
    by_cases h : p = q ∧ n = f.salvo
    · rw [h.1, h.2]; simp
    · rw [State.pendingFirings_setPendingFirings_ne _ h]
      simp only [Bool.and_eq_true, beq_iff_eq]
      rw [if_neg fun h' => h ⟨h'.1.symm, h'.2.symm⟩, Nat.sub_zero]

/-- R25, R28: the end of a group that supersession has emptied. -/
theorem endSuperseded_eq (d : Nat) (mask : LevelMask) (g : TakeGroup) (s : State)
    (h : (g.strip d mask).entries.isEmpty = true) : ∃ fs, endSuperseded g (g.strip d mask) s = { s with
      hlc := { s.hlc with outbound := s.hlc.outbound ++ supersededReplies d mask g }, fd := { s.fd with firings := fs } } ∧
      ∀ p n, s.countsOver fs p n = s.pendingFirings p n - endedFirings p n d mask [g] := by
  have hc : ∀ p n, endedFirings p n d mask [g] = if g.firedBy p n = true then 1 else 0 := by
    intro p n; unfold endedFirings count; rw [List.filter_cons, h, Bool.true_and]; split <;> rfl
  unfold endSuperseded supersededReplies
  rw [if_pos h]
  cases hf : g.firing with
  | some f =>
    have hs : (g.strip d mask).firing = some { f with counts := f.counts.supersede (g.entries.length - (g.strip d mask).entries.length) } := by
      simp [TakeGroup.strip, hf]
    rw [hs]
    obtain ⟨fs, h1, h2⟩ := endFiring_eq { f with counts := f.counts.supersede (g.entries.length - (g.strip d mask).entries.length) } s
    refine ⟨fs, h1, fun p n => ?_⟩
    rw [h2, hc]; unfold TakeGroup.firedBy; rw [hf]
  | none =>
    have hs : (g.strip d mask).firing = none := by simp [TakeGroup.strip, hf]
    have hz : ∀ p n, endedFirings p n d mask [g] = 0 := by intro p n; rw [hc]; unfold TakeGroup.firedBy; rw [hf]; rfl
    rw [hs]
    cases g.entries with
    | nil => exact ⟨s.fd.firings, by simp, fun p n => by rw [hz]; rfl⟩
    | cons e es =>
      simp only []
      cases e.origin with
      | system tag => exact ⟨s.fd.firings, rfl, fun p n => by rw [hz]; rfl⟩
      | panel p k => exact ⟨s.fd.firings, by simp, fun p n => by rw [hz]; rfl⟩

/-- R25, R28: the ends of all the groups that supersession has emptied, in queue order. -/
theorem foldl_endSuperseded (d : Nat) (mask : LevelMask) (gs : List TakeGroup) (s : State)  : ∃ fs,
    (gs.filter fun g => (g.strip d mask).entries.isEmpty).foldl (fun x g => endSuperseded g (g.strip d mask) x) s = { s with
      hlc := { s.hlc with outbound := s.hlc.outbound ++ gs.flatMap (supersededReplies d mask) }, fd := { s.fd with firings := fs } } ∧
    ∀ p n, s.countsOver fs p n = s.pendingFirings p n - endedFirings p n d mask gs := by
  have hcons : ∀ p n g (gs : List TakeGroup), endedFirings p n d mask (g :: gs) = endedFirings p n d mask [g] + endedFirings p n d mask gs := by
    intro p n g gs; unfold endedFirings count; rw [List.filter_cons, List.filter_cons]; split
    · simp; omega
    · simp
  induction gs generalizing s with
  | nil => exact ⟨s.fd.firings, by simp, fun p n => rfl⟩
  | cons g gs ih =>
    rw [List.filter_cons, List.flatMap_cons]
    by_cases h : (g.strip d mask).entries.isEmpty = true
    · rw [if_pos h, List.foldl_cons]
      obtain ⟨fs, h1, c1⟩ := endSuperseded_eq d mask g s h
      obtain ⟨fs2, h2, c2⟩ := ih (endSuperseded g (g.strip d mask) s)
      rw [h1] at c2
      refine ⟨fs2, ?_, fun p n => ?_⟩
      · rw [h2, h1]; simp
      · have := c2 p n
        have e := c1 p n
        simp only [State.countsOver, State.pendingFirings] at *
        rw [hcons, this, e]; omega
    · rw [if_neg h]
      obtain ⟨fs2, h2, c2⟩ := ih s
      have hn : supersededReplies d mask g = [] := by unfold supersededReplies; rw [if_neg h]
      refine ⟨fs2, ?_, fun p n => ?_⟩
      · rw [h2, hn]; rfl
      · rw [hcons, c2]
        have : endedFirings p n d mask [g] = 0 := by
          unfold endedFirings count; rw [List.filter_cons, if_neg (by simp at h; simp [h])]; rfl
        omega

/-- R24, R25, R28: supersession by an accepted entry. -/
theorem supersede_eq (d : Nat) (mask : LevelMask) (s : State) : ∃ fs, supersede d mask s = { s with
    hlc := { s.hlc with outbound := s.hlc.outbound ++ s.rc.queue.flatMap (supersededReplies d mask) }
    rc := { s.rc with queue := supersededQueue d mask s.rc.queue }
    fd := { s.fd with firings := fs } } ∧
    ∀ p n, s.countsOver fs p n = s.pendingFirings p n - endedFirings p n d mask s.rc.queue := by
  obtain ⟨fs, h, c⟩ := foldl_endSuperseded d mask s.rc.queue { s with rc := { s.rc with queue := supersededQueue d mask s.rc.queue } }
  exact ⟨fs, h, c⟩

/-- R27 step 4, R28: the acceptance of the passing entries of a firing. -/
theorem acceptEntries_eq (es own : List Entry) (s : State) : ∃ fs, acceptEntries es own s =
    ((acceptedEntries es (own, s.rc.queue, [])).1, { s with
      hlc := { s.hlc with outbound := s.hlc.outbound ++ (acceptedEntries es (own, s.rc.queue, [])).2.2 }
      rc := { s.rc with queue := (acceptedEntries es (own, s.rc.queue, [])).2.1 }
      fd := { s.fd with firings := fs } }) ∧
    ∀ p n, s.countsOver fs p n = s.pendingFirings p n - acceptedFirings p n es s.rc.queue := by
  have gen : ∀ (es : List Entry) (own : List Entry) (q : List TakeGroup) (ms : List Message),
      acceptedEntries es (own, q, ms) = ((acceptedEntries es (own, q, [])).1, (acceptedEntries es (own, q, [])).2.1, ms ++ (acceptedEntries es (own, q, [])).2.2) := by
    intro es
    induction es with
    | nil => intro own q ms; simp [acceptedEntries]
    | cons e es ih =>
      intro own q ms
      simp only [acceptedEntries]
      rw [ih, ih _ _ ([] ++ _)]; simp
  induction es generalizing own s with
  | nil => exact ⟨s.fd.firings, by simp [acceptEntries, acceptedEntries], fun p n => rfl⟩
  | cons e es ih =>
    obtain ⟨fs, h, c⟩ := supersede_eq e.dest e.mask s
    obtain ⟨fs2, h2, c2⟩ := ih (stripEntries e.dest e.mask own ++ [e]) (supersede e.dest e.mask s)
    rw [h] at c2
    refine ⟨fs2, ?_, fun p n => ?_⟩
    · unfold acceptEntries
      rw [h2, h]
      simp only [acceptedEntries]
      rw [gen es _ _ ([] ++ _)]; simp
    · have a := c2 p n
      have b := c p n
      simp only [State.countsOver, State.pendingFirings, acceptedFirings] at *
      rw [a, b]; omega

/-! ### Talks -/

/-- R87: the talks that are left when some have ended. -/
theorem endTalks_talks (ids : List Nat) (s : State) : SameTalks (endTalks ids s).tc.talks (s.tc.talks.filter fun t => !ids.contains t.id) := by
  unfold endTalks; split
  · simp only [announceInterrupters_tc, handling_tc, removeTalks, resolveAgain, SameTalks, List.map_map]
    apply List.map_congr_left; intro t _; simp only [Function.comp]; split <;> rfl
  · rename_i h
    simp at h
    have : (s.tc.talks.filter fun t => !ids.contains t.id) = s.tc.talks := by
      rw [List.filter_eq_self]; intro t ht; simp; exact h t ht
    rw [this]; rfl

/-! ### Panels -/

/-- R171: a refusal of an action of a declared panel. -/
theorem keyRefusal_refused {p k : Nat} {v : Panel} {s : State} (why : Reason) (h : s.panel? p = some v) : KeyRefused p k v why s (keyRefusal p k why s) := by
  unfold keyRefusal; rw [h]; simp only [raise_eq]
  refine ⟨State.panel?_setPanel_self _ _ _, fun q hq => State.panel?_setPanel_ne _ hq _, rfl⟩

/-- Whether a declared panel is in service. -/
theorem inService_iff {s : State} {p : Nat} {v : Panel} (h : s.panel? p = some v) : s.inService p = true ↔ (v.state = .online ∨ v.state = .degraded) := by
  unfold State.inService State.panelState?; rw [h]; simp

/-- One lamp cell written. -/
theorem Panel.lamp_setLamp (v : Panel) (k j : Nat) (c : LampCell) : (v.setLamp k c).lamp j = if j = k then c else v.lamp j := by
  unfold Panel.lamp Panel.setLamp
  by_cases h : j = k
  · subst h; simp
  · simp [h, Table.get_set_ne _ _ h]

/-- R146: the sent values of the keys `ks` forgotten. -/
theorem Panel.forget_lamps (ks : List Nat) (v : Panel) (j : Nat) :
   (ks.foldl (fun x k => x.setLamp k { x.lamp k with sent := none }) v = { v with lamps := (ks.foldl (fun x k => x.setLamp k { x.lamp k with sent := none }) v).lamps }) ∧
   (ks.foldl (fun x k => x.setLamp k { x.lamp k with sent := none }) v).lamp j = if j ∈ ks then ⟨(v.lamp j).desired, none⟩ else v.lamp j := by
  induction ks generalizing v with
  | nil => simp
  | cons k ks ih =>
    rw [List.foldl_cons]
    refine ⟨(ih (v.setLamp k { v.lamp k with sent := none })).1, ?_⟩
    rw [(ih _).2, Panel.lamp_setLamp]
    by_cases h : j = k
    · subst h; simp
    · simp [h]

/-- R148: the entries of a POLL acknowledged. -/
theorem Panel.acknowledge_lamps (es : List (Nat × Lamp)) (v : Panel) (hn : (es.map Prod.fst).Nodup) :
    v.acknowledge es = { v with lamps := (v.acknowledge es).lamps } ∧
    (∀ k, ((v.acknowledge es).lamp k).desired = (v.lamp k).desired) ∧ (∀ e ∈ es, ((v.acknowledge es).lamp e.1).sent = some e.2) ∧
    (∀ k, (∀ e ∈ es, e.1 ≠ k) → ((v.acknowledge es).lamp k).sent = (v.lamp k).sent) := by
  induction es generalizing v with
  | nil => exact ⟨rfl, fun _ => rfl, by simp, fun _ _ => rfl⟩
  | cons e es ih =>
    have hn' := List.nodup_cons.1 hn
    obtain ⟨h1, h2, h3, h4⟩ := ih (v.setLamp e.1 { v.lamp e.1 with sent := some e.2 }) hn'.2
    unfold Panel.acknowledge at *
    rw [List.foldl_cons]
    refine ⟨h1, ?_, ?_, ?_⟩
    · intro k; rw [h2, Panel.lamp_setLamp]; split
      · rename_i h; rw [h]
      · rfl
    · intro f hf
      rcases List.mem_cons.1 hf with rfl | hf
      · rw [h4, Panel.lamp_setLamp, if_pos rfl]
        intro g hg h; exact hn'.1 (List.mem_map.2 ⟨g, hg, h⟩)
      · exact h3 f hf
    · intro k hk; rw [h4 k (fun g hg => hk g (by simp [hg])), Panel.lamp_setLamp, if_neg (fun h => hk e (by simp) h.symm)]

/-- R150: whether every lamp is known. -/
theorem Panel.allKnown_iff (v : Panel) : v.allKnown = true ↔ ∀ k, 1 ≤ k → k ≤ 64 → (v.lamp k).sent ≠ none := by
  unfold Panel.allKnown
  simp only [List.all_eq_true, mem_numbers, within, Bool.and_eq_true, decide_eq_true_eq, Option.isSome_iff_ne_none]
  grind

/-- R152, R156: what follows a change of a panel state. -/
theorem panelStateChanged_cases (s : State) : ∃ e, panelStateChanged s = { s with hlc := (s.hlc.raised .panelState).handed .panelErrors s.pbc.panelErrors e, pbc := { s.pbc with panelErrors := e } } ∧ (e = true ↔ ∃ x ∈ s.pbc.panels.entries, x.2.state = .degraded) := by
  refine ⟨s.pbc.panels.values.any fun v => v.state == .degraded, ?_, ?_⟩
  · unfold panelStateChanged evaluatePanelErrors
    simp only [handOver_eq, raise_eq]
  · simp [Table.values]

/-- R152, R156: a change of a panel state is reported. -/
theorem panelStateChanged_reported (s : State) : PanelStateReported s.pbc.panelErrors s.hlc (panelStateChanged s) := by
  obtain ⟨e, h, h2⟩ := panelStateChanged_cases s
  rw [h]; exact ⟨h2, rfl⟩

/-- R152, R156: the report changes the link and the source alone. -/
theorem panelStateChanged_eq (s : State) : panelStateChanged s = { s with hlc := (panelStateChanged s).hlc, pbc := { s.pbc with panelErrors := (panelStateChanged s).pbc.panelErrors } } := by
  obtain ⟨e, h, h2⟩ := panelStateChanged_cases s
  rw [h]

/-- R139: the judgement of a frame whose CRC checks. -/
theorem judgeFrame_eq (pr : Bool) (p keys : Nat) (a k : Byte) (content : List Byte) :
    judgeFrame pr p keys (withCrc (a :: k :: content)) = match answerOf pr keys k content with
      | none => .bad .framing
      | some x => if a.toNat = p then .valid x else .bad .wrongAddress := by
  unfold judgeFrame
  rw [if_pos (crcChecks_withCrc _)]
  have content_only (xs : List Byte) (x y : Byte) : (xs ++ [x, y]).take ((xs ++ [x, y]).length - 2) = xs := by simp
  unfold withCrc be16
  rw [List.cons_append, List.cons_append]
  dsimp only
  cases h : answerOf pr keys k content <;> rw [content_only, h]

/-- R197: the event records of a REPLY are read as they are written. -/
theorem eventsOf_records (keys : Nat) (hk : keys ≤ 64) (es : List PanelAction) (h : ∀ a ∈ es, a.reportable keys) :
    eventsOf keys (es.flatMap PanelAction.record) = some es := by
  induction es with
  | nil => rfl
  | cons e es ih =>
    have ih := ih (fun a ha => h a (by simp [ha]))
    have h1 := h e (by simp)
    have key : ∃ a b c, e.record = [a, b, c] ∧ eventOf keys a b c = some e := by
      cases e with
      | press k => 
        obtain ⟨h1, h2⟩ := h1
        refine ⟨_, _, _, rfl, ?_⟩
        have : (byte k).toNat = k := by simp [byte]; omega
        simp [eventOf, this, within, h1, h2]
      | release k => 
        obtain ⟨h1, h2⟩ := h1
        refine ⟨_, _, _, rfl, ?_⟩
        have : (byte k).toNat = k := by simp [byte]; omega
        simp [eventOf, this, within, h1, h2]
      | knob d =>
        obtain ⟨h1, h2⟩ := h1
        refine ⟨_, _, _, rfl, ?_⟩
        simp only [eventOf, show (3 : Byte).toNat = 3 from rfl, knobDelta]
        congr 2
        have : (BitVec.truncate 7 (BitVec.ofInt 8 d)) = BitVec.ofInt 7 d := by
          apply BitVec.eq_of_toNat_eq; simp [BitVec.toNat_ofInt]; omega
        rw [this, BitVec.toInt_ofInt]
        simp [Int.bmod]; omega
      | busState b i =>
        obtain ⟨h1, h2⟩ := h1
        refine ⟨_, _, _, rfl, ?_⟩
        have : (byte b).toNat = b := by simp [byte]; omega
        have h' : (byte i).toNat = i := by simp [byte]; omega
        simp [eventOf, this, h']
    obtain ⟨a, b, c, he, hv⟩ := key
    simp [he, eventsOf, hv, ih]

/-- The length of event records. -/
theorem records_length (es : List PanelAction) : (es.flatMap PanelAction.record).length = 3 * es.length := by
  induction es with
  | nil => rfl
  | cons e es ih => simp [ih]; cases e <;> simp [PanelAction.record] <;> omega

/-- R136: a frame that arrives ends the transaction. -/
theorem transactionEnds_frame {s : State} {x : Transaction} (h : s.pbc.transaction = some x) (hd : x.discard = false) (a k : Byte) (content : List Byte)
   {u : State} (hu : u = outcome x (judgeFrame x.probe x.panel (s.keyCountOf x.panel) (withCrc (a :: k :: content))) { s with pbc := { s.pbc with transaction := none } }) :
   TransactionEnds (.panelFrameReceived (panelFrame a k content)) s x u := by
  refine ⟨relamp u, ?_, ⟨?_, relamp_relamped u⟩⟩
  · show Host.Outcome.next (transmit (receivePanelFrame (panelFrame a k content) s)) = _
    simp only [receivePanelFrame, panelFrame, if_true, endTransaction, h, hd]
    rw [transmit_eq, ← hu]; rfl
  · rfl

/-! ### The key event queue -/

/-- R164: an event that is taken is handled. -/
theorem takeEvent_taken {e : KeyEvent} {s s1 : State} (h : Taken e s s1) (f : State → State) : takeEvent e f s = f s1 := by
  rcases h with ⟨h, rfl⟩ | ⟨rest, h, rfl⟩ <;> simp [takeEvent, h]

/-- R164: a taking removes an event and nothing else. -/
theorem taken_eq {e : KeyEvent} {s s1 : State} (h : Taken e s s1) : s1 = { s with pbc := { s.pbc with events := s1.pbc.events } } := by
  rcases h with ⟨h, rfl⟩ | ⟨rest, h, rfl⟩ <;> rfl

/-- R176: the lamps relamp_follows an event. -/
theorem relamp_follows (u : State) : LampsFollow u (relamp u) := ⟨rfl, relamp_relamped u⟩

/-- R165: a press that is taken. -/
theorem press_ends {p k : Nat} {s s1 : State} (h : Taken ⟨p, .press k⟩ s s1) : EventEnds (.keyPress p k) s (handlePress p k s1) := by
  refine ⟨relamp (handlePress p k s1), ?_, relamp_follows _⟩
  show Host.Outcome.next (transmit (takeEvent _ _ s)) = _
  rw [takeEvent_taken h, transmit_eq]

/-- R170: a release that is taken. -/
theorem release_ends {p k : Nat} {s s1 : State} (h : Taken ⟨p, .release k⟩ s s1) : EventEnds (.keyRelease p k) s (handleRelease p k s1) := by
  refine ⟨relamp (handleRelease p k s1), ?_, relamp_follows _⟩
  show Host.Outcome.next (transmit (takeEvent _ _ s)) = _
  rw [takeEvent_taken h, transmit_eq]

/-- R165, R166: a press that captures a function carries it out. -/
theorem captured_press {p k : Nat} {v : Panel} {f : KeyFunction} {s s1 : State} (ht : Taken ⟨p, .press k⟩ s s1) (hc : Captures p k v f s) :
   handlePress p k s1 = carryOut p k f.action s1 := by
  have hq := taken_eq ht
  have h1 : (s1.key p k).state = .idle := by rw [hq]; exact hc.idle
  have hp : s1.panel? p = some v := by rw [hq]; exact hc.panel
  have hb : s1.binding p v.page k = s.binding p v.page k := by rw [hq]; rfl
  have hf : ∀ q, s1.function? q = s.function? q := by intros; rw [hq]; rfl
  unfold handlePress
  rw [if_pos h1, hp]
  simp only [State.usedFunction, hb, hf, if_neg hc.bound.1, hc.bound.2, (inService_iff hp).2 hc.service]
  have : f.allows v = true := by
    unfold KeyFunction.allows
    clear hq
    rcases hc.domain with hd | ⟨h1, h2⟩ | ⟨h1, h2⟩ <;> simp [hc.level, *]
  simp [this]

end Sys2Proof.Machine
end

