-- ==== Sys2Proof/Laws/Rules.lean ====
section
/-! SUPPORT. What the deciding functions of the model decide, in the words of Safety.lean: one lemma for each, which later
proofs cite and do not unfold the function. -/

namespace Sys2Proof.Machine

/-! ### Lists put in order -/

/-- A value takes its place behind those it does not come before, up to the first that it comes before. -/
theorem insertOrdered_split {α : Type} (before : α → α → Bool) (a : α) (bs : List α) : ∃ xs ys, bs = xs ++ ys ∧
    insertOrdered before a bs = xs ++ a :: ys ∧ (∀ x ∈ xs, before a x = false) ∧ ∀ y, ys.head? = some y → before a y = true := by
  induction bs with
  | nil => exact ⟨[], [], rfl, rfl, by simp, by simp⟩
  | cons b bs ih =>
    unfold insertOrdered
    by_cases h : before a b = true
    · rw [if_pos h]; exact ⟨[], b :: bs, rfl, rfl, by simp, by simpa using h⟩
    · rw [if_neg h]
      obtain ⟨xs, ys, h1, h2, h3, h4⟩ := ih
      exact ⟨b :: xs, ys, by rw [h1]; rfl, by rw [h2]; rfl, by simpa [h] using h3, h4⟩

theorem mem_insertOrdered {α : Type} (before : α → α → Bool) (a x : α) (bs : List α) : x ∈ insertOrdered before a bs ↔ x = a ∨ x ∈ bs := by
  obtain ⟨xs, ys, h1, h2, -, -⟩ := insertOrdered_split before a bs
  rw [h2, h1]; simp [or_left_comm]

theorem nodup_insertOrdered {α : Type} (before : α → α → Bool) {a : α} {bs : List α} (hn : bs.Nodup) (ha : a ∉ bs) : (insertOrdered before a bs).Nodup := by
  obtain ⟨xs, ys, h1, h2, -, -⟩ := insertOrdered_split before a bs
  rw [h2]; subst h1
  rw [List.nodup_middle]; exact List.nodup_cons.2 ⟨ha, hn⟩

/-- Putting a list in order keeps its members, and repeats none. -/
theorem inOrder_spec {α : Type} (before : α → α → Bool) (as : List α) : (∀ x, x ∈ inOrder before as ↔ x ∈ as) ∧ (as.Nodup → (inOrder before as).Nodup) := by
  induction as with
  | nil => simp [inOrder]
  | cons a as ih =>
    have : inOrder before (a :: as) = insertOrdered before a (inOrder before as) := rfl
    rw [this]
    refine ⟨fun x => by rw [mem_insertOrdered, ih.1]; simp, fun h => ?_⟩
    obtain ⟨h1, h2⟩ := List.nodup_cons.1 h
    exact nodup_insertOrdered _ (ih.2 h2) (by rwa [ih.1])

/-- A list put in order by a test that decides an order stands in it. -/
theorem pairwise_inOrder_of {α : Type} {before : α → α → Bool} {R : α → α → Prop} (hb : ∀ a b, before a b = true ↔ R a b)
    (asym : ∀ a b, R a b → ¬R b a) (trans : ∀ a b c, R a b → ¬R c b → ¬R c a) (as : List α) :
    (inOrder before as).Pairwise fun a b => ¬R b a := by
  induction as with
  | nil => exact List.Pairwise.nil
  | cons a as ih =>
    have e : inOrder before (a :: as) = insertOrdered before a (inOrder before as) := rfl
    obtain ⟨xs, ys, h1, h2, h3, h4⟩ := insertOrdered_split before a (inOrder before as)
    rw [e, h2]; rw [h1] at ih
    obtain ⟨i1, i2, i3⟩ := List.pairwise_append.1 ih
    refine List.pairwise_append.2 ⟨i1, List.pairwise_cons.2 ⟨fun z hz => ?_, i2⟩, fun x hx z hz => ?_⟩
    · cases ys with
      | nil => simp at hz
      | cons y ys =>
        have hy := (hb a y).1 (h4 y rfl)
        rcases List.mem_cons.1 hz with rfl | hz
        · exact asym a z hy
        · exact trans a y z hy ((List.pairwise_cons.1 i2).1 z hz)
    · rcases List.mem_cons.1 hz with rfl | hz
      · rw [← hb, h3 x hx]; simp
      · exact i3 x hx z hz

/-- Leaving out repeats keeps the members. -/
theorem withoutRepeats_spec {α : Type} [DecidableEq α] (as : List α) : (∀ x, x ∈ withoutRepeats as ↔ x ∈ as) ∧ (withoutRepeats as).Nodup := by
  induction as with
  | nil => simp [withoutRepeats]
  | cons a as ih =>
    have : withoutRepeats (a :: as) = if (withoutRepeats as).contains a then withoutRepeats as else a :: withoutRepeats as := rfl
    rw [this]
    by_cases h : a ∈ withoutRepeats as
    · simp only [List.contains_iff_mem, h, if_true]
      exact ⟨fun x => by rw [ih.1]; constructor
                         · exact fun h => List.mem_cons_of_mem _ h
                         · intro hx; rcases List.mem_cons.1 hx with rfl | hx
                           · exact (ih.1 _).1 h
                           · exact hx, ih.2⟩
    · simp only [List.contains_iff_mem, h, if_false]
      exact ⟨fun x => by simp [ih.1], List.nodup_cons.2 ⟨h, ih.2⟩⟩

/-! ### Masks, colours, calls and lamps -/

theorem mem_list (m : LevelMask) (l : Level) : l ∈ m.list ↔ m.has l = true := by
  unfold LevelMask.list levels; cases l <;> simp

/-- Two colour sets share a colour. -/
theorem ColourSet.meets_iff (a b : ColourSet) : a.meets b = true ↔ ∃ c, a.has c = true ∧ b.has c = true := by
  constructor
  · intro h
    simp [ColourSet.meets] at h
    rcases h with (h | h) | h
    · exact ⟨.red, h⟩
    · exact ⟨.green, h⟩
    · exact ⟨.amber, h⟩
  · rintro ⟨c, h⟩; cases c <;> simp_all [ColourSet.meets, ColourSet.has]

/-- R68: a camera calls an output. -/
theorem State.calls_iff (s : State) (n c : Nat) : s.calls n c = true ↔ s.calledBy n c := by
  unfold State.calls State.calledBy State.callCount count
  cases s.camera? c with
  | none => simp
  | some v => simp [List.length_pos_iff_exists_mem, and_assoc]

/-- R174: the fitted levels of a mask carry a source. -/
theorem State.carries_iff (s : State) (d : Nat) (m : LevelMask) (x : Nat) : s.carries d m x = true ↔ s.carried d m x := by
  unfold State.carries State.carried
  simp only [Bool.and_eq_true, Bool.not_eq_true', List.isEmpty_eq_false_iff_exists_mem, List.mem_filter, mem_list, bne_iff_ne,
    List.all_eq_true, and_imp, ne_eq]
  refine and_congr Iff.rfl ⟨fun h l y f h1 h2 => ?_, fun h l h1 h2 => ?_⟩
  · have := h l h1 (by simp [h2]); simpa [h2] using this
  · split
    · rename_i y f e; simpa using h l y f h1 e
    · rfl

/-- R174: a talk lamp flashes. -/
theorem State.talkFlashes_iff (s : State) (t : Talk) : s.talkFlashes t = true ↔ s.flashes t := by
  unfold State.talkFlashes State.flashes
  rw [Bool.or_eq_true]
  refine or_congr ?_ ?_
  · simp only [List.any_eq_true, Bool.and_eq_true, Bool.not_eq_true', List.contains_iff_mem]
    refine exists_congr fun x => and_congr Iff.rfl (and_congr ?_ Iff.rfl)
    unfold Path.isAdmitted; split <;> simp [*]
  · cases t.target with
    | ifb n => cases h : s.ifb? n <;> simp [h]
    | _ => simp

/-- R165, R174: the level check and the domain check. -/
theorem KeyFunction.allows_iff (f : KeyFunction) (v : Panel) : f.allows v = true ↔ PassesChecks f v := by
  unfold KeyFunction.allows PassesChecks
  cases f.domain <;> cases v.domain <;> simp

/-! ### Arbitration, listeners and the path table -/

/-- R113: the order of a pending list. -/
theorem pendingBefore_iff (s : State) (a b : Nat) : s.pendingBefore a b = true ↔ s.waitsBefore a b := by
  unfold State.pendingBefore State.waitsBefore
  cases h1 : s.talk? a <;> cases h2 : s.talk? b <;> simp
  rename_i x y
  by_cases h : x.priority = y.priority
  · by_cases h' : x.talker = y.talker
    · simp [h, h']
    · simp [h, h']
  · simp [h]

/-- R97: the ports that a target names. -/
theorem mem_targetPorts (s : State) (t : Talk) (q : Nat) : q ∈ s.targetPorts t ↔ s.targets t q := by
  unfold State.targetPorts State.targets
  cases t.target with
  | port a => simp
  | group g => simp
  | ifb n =>
    cases h : s.ifb? n with
    | none => simp [h]
    | some i => simp [h]; exact fun _ => eq_comm
  | camera c => simp [State.cameraPort]; cases h : s.camera? c <;> simp
  | onair =>
    cases t.domain with
    | none => simp
    | some d =>
      simp only [State.onairPorts, List.mem_filterMap, Table.values, List.mem_map, Option.some.injEq, exists_eq_left']
      constructor
      · rintro ⟨v, ⟨e, he, rfl⟩, h⟩
        split at h
        · rename_i hc; exact ⟨e, he, hc.1, h, hc.2⟩
        · cases h
      · rintro ⟨e, he, h1, h2, h3⟩
        exact ⟨e.2, ⟨e, he, rfl⟩, by rw [if_pos ⟨h1, h3⟩, h2]⟩

theorem isAdmitted_iff (p : Path) : p.isAdmitted = (p.admission != .starved) := by
  unfold Path.isAdmitted; split <;> simp [*]

theorem oldestCreation_eq (s : State) (p : Path) (h : p.kind = .talk) : s.oldestCreation p = s.placeOf p := by
  unfold State.oldestCreation State.placeOf; rw [h]
  cases p.talks with
  | nil => rfl
  | cons id rest => simp only [List.head?_cons, Option.bind_some]; cases s.talk? id <;> rfl

theorem placeOf_program (s : State) (p : Path) (n : Nat) (h : p.kind = .program n) : s.placeOf p = n := by
  simp [State.placeOf, h]

/-- R108, R109: the order of consideration. -/
theorem candidateBefore_iff (s : State) (p q : Path) : candidateBefore s p q = true ↔ s.goesBefore p q := by
  have key : ∀ a b : Nat, (if p.priority != q.priority then decide (q.priority < p.priority)
      else if a != b then decide (a < b) else if p.listener != q.listener then decide (p.listener < q.listener)
      else decide (p.talker < q.talker)) = true ↔ q.priority < p.priority ∨ (p.priority = q.priority ∧
        (a < b ∨ (a = b ∧ (p.listener < q.listener ∨ (p.listener = q.listener ∧ p.talker < q.talker))))) := by
    intro a b
    by_cases h1 : p.priority = q.priority
    · by_cases h3 : a = b
      · by_cases h4 : p.listener = q.listener <;> simp [h1, h3, h4]
      · simp [h1, h3]
    · simp [h1]
  unfold candidateBefore State.goesBefore
  cases hp : p.kind with
  | talk => cases hq : q.kind with
    | talk => rw [← oldestCreation_eq s p hp, ← oldestCreation_eq s q hq]; simp only [hp, hq]; exact key _ _
    | program n => rw [← oldestCreation_eq s p hp, placeOf_program s q n hq]; simp only [hp, hq]; exact key _ _
  | program m => cases hq : q.kind with
    | talk => rw [placeOf_program s p m hp, ← oldestCreation_eq s q hq]; simp only [hp, hq]; exact key _ _
    | program n => rw [placeOf_program s p m hp, placeOf_program s q n hq]; simp only [hp, hq]; exact key _ _

/-- R108, R109: paths put in the order of consideration stand in it. -/
theorem pairwise_inOrder (s : State) (ps : List Path) : (inOrder (candidateBefore s) ps).Pairwise fun p q => ¬s.goesBefore q p :=
  pairwise_inOrder_of (candidateBefore_iff s) (fun p q h g => by unfold State.goesBefore at h g; omega)
    (fun p q r h g k => g (by unfold State.goesBefore at h k ⊢; omega)) ps

/-! ### Takes, and the talks of a path -/

/-- Masks that name the same levels are equal. -/
theorem LevelMask.ext_has {m n : LevelMask} (h : ∀ l, LevelMask.has m l = true ↔ LevelMask.has n l = true) : m = n := by
  obtain ⟨a, b, c, d⟩ := m; obtain ⟨a', b', c', d'⟩ := n
  have h1 := h .vid; have h2 := h .aud1; have h3 := h .aud2; have h4 := h .aux
  simp only [LevelMask.has, PerLevel.get, Bool.coe_iff_coe] at h1 h2 h3 h4
  simp [h1, h2, h3, h4]

/-- The levels that are kept. -/
theorem LevelMask.has_keep (m : LevelMask) (f : Level → Bool) (l : Level) : LevelMask.has (m.keep f) l = (LevelMask.has m l && f l) := by
  cases l <;> rfl

/-- Whether a mask names no level. -/
theorem LevelMask.isEmpty_iff (m : LevelMask) : m.isEmpty = true ↔ ∀ l, LevelMask.has m l = false := by
  obtain ⟨a, b, c, d⟩ := m
  constructor
  · intro h l; cases a <;> cases b <;> cases c <;> cases d <;> simp [LevelMask.isEmpty] at h; cases l <;> rfl
  · intro h; have h1 := h .vid; have h2 := h .aud1; have h3 := h .aud2; have h4 := h .aux
    simp [LevelMask.has, PerLevel.get] at h1 h2 h3 h4; simp [LevelMask.isEmpty, *]

/-- Whether a level of a mask satisfies a condition. -/
theorem LevelMask.any_iff (m : LevelMask) (f : Level → Bool) : m.list.any f = true ↔ ∃ l, LevelMask.has m l = true ∧ f l = true := by
  unfold LevelMask.list; simp only [List.any_eq_true, List.mem_filter]
  constructor
  · rintro ⟨l, ⟨_, h⟩, h2⟩; exact ⟨l, h, h2⟩
  · rintro ⟨l, h, h2⟩; exact ⟨l, ⟨by cases l <;> decide, h⟩, h2⟩

/-- R40: the levels of a done mask. -/
theorem doneMask_iff (writes : List Write) (x : Drawn) (l : Level) : LevelMask.has (doneMask writes x) l = true ↔ x.acknowledged writes l := by
  unfold doneMask Drawn.acknowledged; rw [LevelMask.has_keep]; simp [and_assoc]

/-- R102: the highest level is that of some talk, and none is above it. -/
theorem highestLevel_spec (ts : List Talk) (h : ts ≠ []) : (∃ x ∈ ts, x.level = highestLevel ts) ∧ ∀ x ∈ ts, x.level ≤ highestLevel ts := by
  induction ts with
  | nil => exact absurd rfl h
  | cons t us ih =>
    cases us with
    | nil => simp [highestLevel]
    | cons u vs =>
      obtain ⟨⟨x, hx, he⟩, hle⟩ := ih (by simp)
      have e : highestLevel (t :: u :: vs) = max t.level (highestLevel (u :: vs)) := rfl
      rw [e]
      refine ⟨?_, ?_⟩
      · rcases le_total t.level (highestLevel (u :: vs)) with h | h
        · exact ⟨x, List.mem_cons_of_mem _ hx, by rw [he, max_eq_right h]⟩
        · exact ⟨t, by simp, by rw [max_eq_left h]⟩
      · intro y hy; rcases List.mem_cons.1 hy with rfl | hy
        · exact le_max_left _ _
        · exact le_trans (hle y hy) (le_max_right _ _)

/-- R102: the highest priority is that of some talk, and none is above it. -/
theorem highestPriority_spec (ts : List Talk) (h : ts ≠ []) : (∃ x ∈ ts, x.priority = highestPriority ts) ∧ ∀ x ∈ ts, x.priority ≤ highestPriority ts := by
  induction ts with
  | nil => exact absurd rfl h
  | cons t us ih =>
    have e : highestPriority (t :: us) = max t.priority (highestPriority us) := rfl
    cases us with
    | nil => simp [highestPriority]
    | cons u vs =>
      obtain ⟨⟨x, hx, he⟩, hle⟩ := ih (by simp)
      rw [e]
      refine ⟨?_, ?_⟩
      · rcases le_total t.priority (highestPriority (u :: vs)) with h | h
        · exact ⟨x, List.mem_cons_of_mem _ hx, by rw [he, max_eq_right h]⟩
        · exact ⟨t, by simp, by rw [max_eq_left h]⟩
      · intro y hy; rcases List.mem_cons.1 hy with rfl | hy
        · exact le_max_left _ _
        · exact le_trans (hle y hy) (le_max_right _ _)

/-- R101: the order of the path table. -/
theorem tableBefore_iff (p q : Path) : tableBefore p q = true ↔ ListedBefore p q := by
  unfold tableBefore ListedBefore Path.isTalk
  by_cases h1 : p.listener = q.listener <;> by_cases h2 : p.talker = q.talker <;> simp [h1, h2]

/-- R12: the device that covers a level. -/
theorem deviceOf?_eq (s : State) (d : Nat) (l : Level) : s.deviceOf? d l = s.rc.devices.entries.find? (fun e => e.2.level == l && decide (e.2.first ≤ d) && decide (d ≤ e.2.last)) := rfl

/-- R22: the mask of an offered entry, trimmed. -/
theorem State.trims.eq {s : State} {e : Entry} {mask : LevelMask} (h : s.trims e mask) : s.trimmed e.dest e.mask = mask := by
  apply LevelMask.ext_has; intro l
  rw [h.2 l]; unfold State.trimmed; rw [LevelMask.has_keep, Bool.and_eq_true]
  unfold State.coveredBy; rw [deviceOf?_eq, Option.isSome_iff_exists]
  simp

/-- R22: the trimmed mask of an entry in range. -/
theorem State.trims_trimmed {s : State} {e : Entry} (h : (1 ≤ e.dest ∧ e.dest ≤ 256) ∧ e.source ≤ 256) :
    s.trims e (s.trimmed e.dest e.mask) := by
  refine ⟨h, fun l => ?_⟩
  unfold State.trimmed State.coveredBy; rw [LevelMask.has_keep, Bool.and_eq_true, deviceOf?_eq, Option.isSome_iff_exists]
  simp

/-! ### The flags of an event -/

/-- The flags of a change of the talks are seen in the IFBs and the path table alone. -/
theorem TalkReported.congr {s s' t t' : State} {h h2 : HostLink} (ht : TalkReported s t h h2) (h1 : s'.tc.ifbs = s.tc.ifbs)
    (h3 : s'.tme = s.tme) (h4 : t'.tc.ifbs = t.tc.ifbs) (h5 : t'.tme = t.tme) : TalkReported s' t' h h2 := by
  unfold TalkReported State.interrupter State.ifb? at *; rw [h1, h3, h4, h5]; exact ht

/-- R95: the flags of the endings of a panel's talks. -/
theorem dropPanelTalks_reported (p : Nat) (s : State) : TalkReported s (dropPanelTalks p s) s.hlc (dropPanelTalks p s).hlc :=
  (endTalks_reported _ s).congr rfl rfl rfl rfl

/-- R151, R152: the flags of the loss of a panel. -/
theorem losePanel_reported (p : Nat) (v : Panel) (s : State) : ∃ h, TalkReported s (losePanel p v s) s.hlc h ∧
    PanelStateReported s.pbc.panelErrors h (losePanel p v s) := by
  unfold losePanel; simp only []
  generalize hs : ((s.setPanel p { v with state := .lost, missed := 0, page := false }).setContext p Context.start) = s1
  have e1 : s1.hlc = s.hlc := by rw [← hs]; rfl
  have e2 : s1.tc = s.tc := by rw [← hs]; rfl
  have e3 : s1.tme = s.tme := by rw [← hs]; rfl
  have e4 : s1.pbc.panelErrors = s.pbc.panelErrors := by rw [← hs]; rfl
  refine ⟨(staleBridge p (dropPanelCalls p (dropPanelTalks p s1))).hlc, ?_, ?_⟩
  · have := dropPanelTalks_reported p s1
    rw [e1] at this
    simp only [staleBridge_hlc, dropPanelCalls_hlc]
    refine this.congr (by rw [e2]) e3.symm ?_ ?_ <;> rw [panelStateChanged_eq] <;> simp
  · have := panelStateChanged_reported (staleBridge p (dropPanelCalls p (dropPanelTalks p s1)))
    simpa [e4] using this

/-- R135, R152: the flags of the removal of a panel. -/
theorem removePanel_reported (p : Nat) (v : Panel) (s : State) : ∃ h, TalkReported s (removePanel p v s) s.hlc h ∧
    (v.state = .absent → (removePanel p v s).hlc = h ∧ (removePanel p v s).pbc.panelErrors = s.pbc.panelErrors) ∧
    (v.state ≠ .absent → PanelStateReported s.pbc.panelErrors h (removePanel p v s)) := by
  unfold removePanel; simp only []
  generalize hs : (dropHeld p _) = s1
  have e1 : s1.hlc = s.hlc := by rw [← hs]; simp [dropHeld, clearProtects]
  have e2 : s1.tc = s.tc := by rw [← hs]; simp [dropHeld, clearProtects]
  have e3 : s1.tme = s.tme := by rw [← hs]; simp [dropHeld, clearProtects]
  have e4 : s1.pbc.panelErrors = s.pbc.panelErrors := by rw [← hs]; simp [dropHeld, clearProtects]
  have key : TalkReported s (staleBridge p (dropPanelCalls p (dropPanelTalks p s1))) s.hlc (staleBridge p (dropPanelCalls p (dropPanelTalks p s1))).hlc := by
    have := dropPanelTalks_reported p s1
    rw [e1] at this
    simp only [staleBridge_hlc, dropPanelCalls_hlc]
    exact this.congr (by rw [e2]) e3.symm (by simp) (by simp)
  refine ⟨(staleBridge p (dropPanelCalls p (dropPanelTalks p s1))).hlc, ?_, fun h => ?_, fun h => ?_⟩
  · split
    · exact key
    · refine key.congr rfl rfl ?_ ?_ <;> rw [panelStateChanged_eq]
  · rw [if_pos h]; exact ⟨rfl, by simp [e4]⟩
  · rw [if_neg h]
    have := panelStateChanged_reported (staleBridge p (dropPanelCalls p (dropPanelTalks p s1)))
    simpa [e4] using this

end Sys2Proof.Machine
end

