-- ==== Sys2Proof/Laws/TalkEvents.lean ====
section
/-! SUPPORT. What the creation and the ending of talks do to the talk set, the creation counter and the IFBs, and what a handling
keeps of the path table's records and order, in the words of Safety.lean. -/

namespace Sys2Proof.Machine

/-! ### Talk events -/

/-- The talk of an id among talks that are the same, their listeners apart. -/
theorem talk?_same {s t : State} (h : SameTalks t.tc.talks s.tc.talks) (id : Nat) :
    (t.talk? id).map Talk.bare = (s.talk? id).map Talk.bare := by
  unfold State.talk? SameTalks at *
  generalize t.tc.talks = ts at h; generalize s.tc.talks = us at h
  have key : ∀ l : List Talk, (l.find? fun t => t.id == id).map Talk.bare = (l.map Talk.bare).find? fun t => t.id == id := by
    intro l; rw [List.find?_map]; rfl
  rw [key, key, h]

/-- The priority of a talk does not depend on the listeners. -/
theorem priorityOf_same {s t : State} (h : SameTalks t.tc.talks s.tc.talks) (id : Nat) : t.priorityOf id = s.priorityOf id := by
  have := talk?_same h id
  unfold State.priorityOf
  cases h1 : t.talk? id <;> cases h2 : s.talk? id <;> rw [h1, h2] at this <;> simp [Talk.bare] at this ⊢
  exact this.2.2.2.2.1

/-- R116: the arbitration after endings does not depend on the listeners. -/
theorem withoutTalks_same {s t : State} (h : SameTalks t.tc.talks s.tc.talks) (ended : List Nat) (i : Ifb) : t.withoutTalks ended i = s.withoutTalks ended i := by
  unfold State.withoutTalks; simp only [priorityOf_same h]

/-- R113: the order of a pending list does not depend on the listeners. -/
theorem pendingBefore_same {s t : State} (h : SameTalks t.tc.talks s.tc.talks) : t.pendingBefore = s.pendingBefore := by
  funext a b
  have ha := talk?_same h a; have hb := talk?_same h b
  unfold State.pendingBefore
  cases h1 : t.talk? a <;> cases h2 : s.talk? a <;> rw [h1, h2] at ha <;> simp [Talk.bare] at ha ⊢
  cases h3 : t.talk? b <;> cases h4 : s.talk? b <;> rw [h3, h4] at hb <;> simp [Talk.bare] at hb ⊢
  simp [ha, hb]

/-- R114: the arbitration of an arrival does not depend on the listeners. -/
theorem arbitrate_same {s t : State} (h : SameTalks t.tc.talks s.tc.talks) (i : Ifb) (id p : Nat) : t.arbitrate i id p = s.arbitrate i id p := by
  unfold State.arbitrate State.enterPending; rw [pendingBefore_same h]

/-- R87, R116: ended talks leave the arbitration of the IFBs. -/
theorem ifbsLeft_endTalks (ids : List Nat) (s : State) : IfbsLeft ids s (endTalks ids s) := by
  unfold endTalks
  constructor
  · rintro ⟨x, hx, hi⟩
    rw [if_pos (by simp; exact ⟨x, hx, hi⟩)]
    simp only [announceInterrupters_tc, handling_tc]
    have : ∀ i, (announceInterrupters s (handling s (removeTalks ids s))).withoutTalks ids i =
       ({ s with tc := { s.tc with talks := s.tc.talks.filter fun t => !ids.contains t.id } } : State).withoutTalks ids i := by
      intro i; apply withoutTalks_same
      simp only [announceInterrupters_tc, handling_tc, removeTalks, resolveAgain, SameTalks, List.map_map]
      apply List.map_congr_left; intro t _; simp only [Function.comp]; split <;> rfl
    simp only [this]; rfl
  · intro h
    rw [if_neg (by simp; exact h)]

/-- R116: the endings are seen in the talks and the IFBs alone. -/
theorem IfbsLeft.congr {ids : List Nat} {s t s' t' : State} (h : IfbsLeft ids s t) (h1 : s'.tc.talks = s.tc.talks) (h1' : s'.tc.ifbs = s.tc.ifbs)
   (h2 : t'.tc.talks = t.tc.talks) (h3 : t'.tc.ifbs = t.tc.ifbs) : IfbsLeft ids s' t' := by
  unfold IfbsLeft at *; rw [h1, h1', h3]
  have : ∀ i, t'.withoutTalks ids i = t.withoutTalks ids i := fun i => withoutTalks_same (by rw [h2]; rfl) _ _
  simp only [this]; exact h

/-- R84: the talks numbered anew from n on. -/
theorem renumber_eq (n : Nat) (ts : List Talk) : renumberTalks n ts = (ts.zipIdx n).map fun e => { e.1 with creation := e.2 } := by
  induction ts generalizing n with
  | nil => rfl
  | cons t ts ih => simp [renumberTalks, ih]

/-- R98: the talks resolved again are the same, their listeners apart. -/
theorem resolveAgain_same (f : Talk → Bool) (s : State) : SameTalks (resolveAgain f s).tc.talks s.tc.talks := by
  unfold resolveAgain SameTalks; simp only [List.map_map]
  apply List.map_congr_left; intro t _; simp only [Function.comp]; split <;> rfl

/-- R114: a talk that enters an arbitration changes the IFBs alone. -/
theorem enterArbitration_talks (t : Talk) (s : State) : (enterArbitration t s).tc = { s.tc with ifbs := (enterArbitration t s).tc.ifbs } := by
  unfold enterArbitration; split <;> (try split) <;> rfl

/-- R84, R86, R114: what the creation of a talk does to the talks, the creation counter and the IFBs. -/
theorem createTalk_joined (x : Talk) (s : State) : TalkJoined x s.tc.talks s.tc.counter (createTalk x s).tc.talks (createTalk x s).tc.counter ∧
   IfbJoined x s (createTalk x s) ∧ (createTalk x s).tc = { s.tc with talks := (createTalk x s).tc.talks, ifbs := (createTalk x s).tc.ifbs, counter := (createTalk x s).tc.counter } := by
  let j := joinTalk x s
  let e := enterArbitration x j
  have htc : (createTalk x s).tc = (resolveAgain (fun y => y.toIfb || y.id == x.id) e).tc := by simp only [createTalk, announceInterrupters_tc, handling_tc]; rfl
  have he : e.tc = { j.tc with ifbs := e.tc.ifbs } := enterArbitration_talks x j
  have hs : SameTalks (createTalk x s).tc.talks j.tc.talks := by
    rw [htc]; have := resolveAgain_same (fun y => y.toIfb || y.id == x.id) e
    rw [show e.tc.talks = j.tc.talks by rw [he]] at this; exact this
  have hc : (createTalk x s).tc.counter = j.tc.counter := by rw [htc]; show e.tc.counter = _; rw [he]
  have hi : (createTalk x s).tc.ifbs = e.tc.ifbs := by rw [htc]; rfl
  have hj : j.tc = { s.tc with talks := j.tc.talks, counter := j.tc.counter } := by
    show (joinTalk x s).tc = _; unfold j joinTalk; split <;> rfl
  refine ⟨⟨?_, ?_⟩, ?_, ?_⟩
  · intro h; rw [hc]
    have : j = { s with tc := { s.tc with talks := s.tc.talks ++ [x], counter := s.tc.counter + 1 } } := by show joinTalk x s = _; unfold joinTalk; rw [if_pos (show s.tc.counter < Config.lastNumber from h)]
    rw [this] at hs ⊢; exact ⟨hs, rfl⟩
  · intro h; rw [hc]
    have : j = { s with tc := { s.tc with talks := renumberTalks 1 (s.tc.talks ++ [x]), counter := s.tc.talks.length + 2 } } := by show joinTalk x s = _; unfold joinTalk; rw [if_neg (show ¬ s.tc.counter < Config.lastNumber from Nat.not_lt.2 h)]
    rw [this] at hs ⊢; simp only [renumber_eq] at hs; exact ⟨hs, rfl⟩
  · intro n
    have h1 : (createTalk x s).ifb? n = e.ifb? n := by unfold State.ifb?; rw [hi]
    have hjs : ∀ m, j.ifb? m = s.ifb? m := by intro m; unfold State.ifb?; rw [hj]
    rw [h1]
    simp only [arbitrate_same hs]
    show (enterArbitration x j).ifb? n = _
    unfold enterArbitration
    cases hx : x.target with
    | ifb m =>
      dsimp only
      rw [hjs]
      by_cases hm : m = n
      · subst hm
        cases hv : s.ifb? m with
        | none => simp [hjs, hv]
        | some i => simp [State.ifb?, Table.find?_put_self]
      · have : ¬ Target.ifb m = Target.ifb n := by intro h; injection h; contradiction
        rw [if_neg this]
        cases hv : s.ifb? m with
        | none => simp [hjs]
        | some i => 
          simp only [State.ifb?]; rw [Table.find?_put_ne _ (Ne.symm hm)]; exact hjs n
    | _ => simp [hjs]
  · have key : ∀ a b : TalkController, a.ports = b.ports → a.groups = b.groups → a.keys = b.keys →
        a = { b with talks := a.talks, ifbs := a.ifbs, counter := a.counter } := by
      intro a b h1 h2 h3; cases a; cases b; dsimp only at *; subst h1 h2 h3; rfl
    apply key
    all_goals rw [htc]
    · show e.tc.ports = _; rw [he]; show j.tc.ports = _; rw [hj]
    · show e.tc.groups = _; rw [he]; show j.tc.groups = _; rw [hj]
    · show e.tc.keys = _; rw [he]; show j.tc.keys = _; rw [hj]

/-! ### The path table of a handling -/

/-- A path without its admission. -/
def Path.unplaced (p : Path) : Path := { p with admission := .starved }

/-- A changed admission leaves the rest of the paths. -/
theorem changePath_unplaced (ps : List Path) (p : Path) (a : Admission) : (changePath ps p a).map Path.unplaced = ps.map Path.unplaced := by
  unfold changePath; rw [List.map_map]; apply List.map_congr_left; intro q _; simp only [Function.comp]; split <;> rfl

/-- R101: new admission numbers leave the rest of the paths. -/
theorem renumberPaths_unplaced (ps : List Path) : (renumberPaths ps).map Path.unplaced = ps.map Path.unplaced := by
  unfold renumberPaths; rw [List.map_map]; apply List.map_congr_left; intro q _; simp only [Function.comp]; split <;> (try split) <;> rfl

/-- R106: an admission leaves the rest of the paths. -/
theorem enterPath_unplaced (p : Path) (a : Admissions) : (enterPath p a).paths.map Path.unplaced = a.paths.map Path.unplaced := by
  unfold enterPath; simp only []; split
  · exact changePath_unplaced _ _ _
  · exact (renumberPaths_unplaced _).trans (changePath_unplaced _ _ _)

/-- R109: a re-admission leaves the rest of the paths. -/
theorem readmit_unplaced (a : Admissions) (p : Path) : (readmit a p).paths.map Path.unplaced = a.paths.map Path.unplaced := by
  unfold readmit; split
  · exact enterPath_unplaced _ _
  · rfl

/-- R107: an offer leaves the rest of the paths. -/
theorem offer_unplaced (a : Admissions) (p : Path) : (offer a p).paths.map Path.unplaced = a.paths.map Path.unplaced := by
  unfold offer; split
  · exact enterPath_unplaced _ _
  · split
    · split
      · exact (enterPath_unplaced _ _).trans (changePath_unplaced _ _ _)
      · rfl
    · rfl

/-- What leaves the rest of the paths leaves it when repeated. -/
theorem foldl_unplaced (f : Admissions → Path → Admissions) (h : ∀ a p, (f a p).paths.map Path.unplaced = a.paths.map Path.unplaced)
    (ps : List Path) : ∀ a, (ps.foldl f a).paths.map Path.unplaced = a.paths.map Path.unplaced := by
  induction ps with
  | nil => exact fun _ => rfl
  | cons p ps ih => exact fun a => (ih (f a p)).trans (h a p)

/-- R106 to R109: admission changes the admissions of the paths alone. -/
theorem admissions_unplaced (s : State) (now : List (Path × Standing)) :
    (admissions s now).paths.map Path.unplaced = (now.map Prod.fst).map Path.unplaced := by
  unfold admissions; simp only []
  rw [foldl_unplaced _ offer_unplaced]
  split
  · rw [foldl_unplaced _ readmit_unplaced]
  · rfl

/-- R110: the paths of a handling are those of its standings, their admissions apart. -/
theorem handling_unplaced (b s : State) : (handling b s).tme.paths.map Path.unplaced = (b.standings s).map fun x => x.1.unplaced := by
  have : (handling b s).tme.paths.map Path.unplaced = (admissions s (b.standings s)).paths.map Path.unplaced := by
    simp only [handling, evaluateStarved, recompute, handOver_tme, List.map_map]
    apply List.map_congr_left; intro p _; simp only [Function.comp]
    unfold State.withCoefficient; split <;> rfl
  rw [this, admissions_unplaced, List.map_map]; rfl

/-- R101: no two paths stand each before the other. -/
theorem ListedBefore.asymm (p q : Path) : ListedBefore p q → ¬ListedBefore q p := by
  unfold ListedBefore; rintro (h | ⟨h, h2 | ⟨h2, h3, h4⟩⟩) (g | ⟨g, g2 | ⟨g2, g3, g4⟩⟩) <;> first | omega | contradiction

/-- R101: what does not come before a path comes before none that stands before it. -/
theorem ListedBefore.trans (p q r : Path) : ListedBefore p q → ¬ListedBefore r q → ¬ListedBefore r p := by
  unfold ListedBefore
  intro h1 h2 h3; apply h2
  by_cases hr : r.kind = .talk
  · have : ¬ r.kind ≠ .talk := fun h => h hr
    rcases h3 with h3 | ⟨h3, h3 | ⟨_, h, _⟩⟩
    · rcases h1 with h1 | ⟨h1, _⟩ <;> left <;> omega
    · rcases h1 with h1 | ⟨h1, h1 | ⟨h1, _⟩⟩
      · left; omega
      · right; exact ⟨by omega, .inl (by omega)⟩
      · right; exact ⟨by omega, .inl (by omega)⟩
    · exact absurd hr h
  · rcases h3 with h3 | ⟨h3, h3 | ⟨h3, _, h5⟩⟩
    · rcases h1 with h1 | ⟨h1, _⟩ <;> left <;> omega
    · rcases h1 with h1 | ⟨h1, h1 | ⟨h1, _⟩⟩
      · left; omega
      · right; exact ⟨by omega, .inl (by omega)⟩
      · right; exact ⟨by omega, .inl (by omega)⟩
    · rcases h1 with h1 | ⟨h1, h1 | ⟨h1, h6, _⟩⟩
      · left; omega
      · right; exact ⟨by omega, .inl (by omega)⟩
      · exact absurd h5 h6

/-- R101: the path table stands in its order. -/
theorem handling_listed (b s : State) : (handling b s).tme.paths.Pairwise fun p q => ¬ListedBefore q p := by
  have h : ((b.standings s).map fun x => x.1.unplaced).Pairwise fun p q => ¬ListedBefore q p := by
    rw [List.pairwise_map]
    exact pairwise_inOrder_of (R := fun x y : Path × Standing => ListedBefore x.1 y.1) (fun x y => tableBefore_iff x.1 y.1) (fun x y => ListedBefore.asymm x.1 y.1)
      (fun x y z => ListedBefore.trans x.1 y.1 z.1) _
  rw [← handling_unplaced, List.pairwise_map] at h
  exact h

/-- R84: the talks of the ids of some talks of the talk set are these talks. -/
theorem talksOf_contributors {s : State} (hn : (s.tc.talks.map fun x => x.id).Nodup) (f : Talk → Bool) :
    s.talksOf ((s.tc.talks.filter f).map fun x => x.id) = s.tc.talks.filter f := by
  have key : ∀ us : List Talk, (∀ x ∈ us, s.talk? x.id = some x) → s.talksOf (us.map fun x => x.id) = us := by
    intro us; induction us with
    | nil => intro _; rfl
    | cons u us ih =>
      intro h; unfold State.talksOf at *; rw [List.map_cons, List.filterMap_cons_some (h u (.head _)), ih fun x hx => h x (.tail _ hx)]
  refine key _ fun x hx => ?_
  have hx := (List.mem_filter.1 hx).1
  unfold State.talk?
  generalize s.tc.talks = ts at hn hx
  induction ts with
  | nil => cases hx
  | cons t ts ih =>
    rw [List.map_cons, List.nodup_cons] at hn
    rcases List.mem_cons.1 hx with rfl | hx
    · simp
    · have : t.id ≠ x.id := fun e => hn.1 (e ▸ List.mem_map.2 ⟨x, hx, rfl⟩)
      rw [List.find?_cons_of_neg (by simpa using this)]; exact ih hn.2 hx

/-- R102: a TALK path of a handling, its contributing talks, its level and its priority. -/
theorem mem_standings {b s : State} {x : Path × Standing} (h : x ∈ b.standings s) (hk : x.1.kind = .talk) :
   (x.1.talker, x.1.listener) ∈ s.talkPairs ∧ x.1.talks = s.contributors x.1.talker x.1.listener ∧
    x.1.level = highestLevel (s.talksOf x.1.talks) ∧ x.1.priority = highestPriority (s.talksOf x.1.talks) := by
  unfold State.standings at h; rw [(inOrder_spec _ _).1, List.mem_append] at h
  rcases h with h | h
  · obtain ⟨⟨a, c⟩, hp, rfl⟩ := List.mem_map.1 h
    have : ∃ adm, (b.pairStanding s (a, c)).1 = s.talkPath a c adm := by
      unfold State.pairStanding; simp only []; split
      · exact ⟨_, rfl⟩
      · split
        · exact ⟨_, rfl⟩
        · exact ⟨_, rfl⟩
    obtain ⟨adm, e⟩ := this
    rw [e]; exact ⟨hp, rfl, rfl, rfl⟩
  · obtain ⟨e, he, rfl⟩ := List.mem_map.1 h
    unfold State.programStanding at hk; simp only [] at hk
    split at hk
    · cases hk
    · rename_i old ho
      have := List.find?_some ho
      simp only [Path.same, programPath, Bool.and_eq_true, beq_iff_eq] at this
      rw [hk] at this; cases this.1.1

end Sys2Proof.Machine
end

