-- ==== Sys2Proof/WellFormed.lean ====
section
/-! DEFINITION. Which commands are well formed: the ranges that spec/00_scope.md (4.1) and Chapters 8, 10 and 11 give to
what a line, a port or a pin can bring.  The meanings do not rest on these checks: a command out of range is judged by
the rule that owns it. -/

namespace Sys2Proof

/-- Both ends included (spec/00_scope.md, 4.1). -/
def inRange (lo hi n : Nat) : Bool := decide (lo ≤ n) && decide (n ≤ hi)

/-- R180: a payload holds 0..240 bytes. -/
def payloadFits (payload : List Byte) : Bool := decide (payload.length ≤ 240)

/-- spec/00_scope.md, 4.1: panel 1..32 and key 1..64. -/
def keyExists (panel key : Nat) : Bool := inRange 1 32 panel && inRange 1 64 key

/-- Whether a command is well formed. -/
def Instr.wellFormed : Instr → Bool
  | .powerOn => true
  | .hostFrameReceived bytes => !bytes.isEmpty
  | .hostBadLength bytes => !bytes.isEmpty
  | .hostFrameTimeout => true
  | .unknownRequest _ _ payload => payloadFits payload
  | .transmissionEnd => true
  | .setDestDomain _ payload => payloadFits payload
  | .protect _ payload => payloadFits payload
  | .unprotect _ payload => payloadFits payload
  | .protectAll _ payload => payloadFits payload
  | .releaseAll _ payload => payloadFits payload
  | .setFabric _ payload => payloadFits payload
  | .fabricRetry _ payload => payloadFits payload
  | .readbackCompletion device sources => inRange 1 8 device && inRange 1 256 sources.length
  | .readbackFailure device => inRange 1 8 device
  | .getRoute _ payload => payloadFits payload
  | .take _ payload => payloadFits payload
  | .salvoStore _ payload => payloadFits payload
  | .salvoFire _ payload => payloadFits payload
  | .setFrameFamily _ payload => payloadFits payload
  | .referencePulse _ => true
  | .lossTimerExpiry => true
  | .flywheelPoint => true
  | .crosspointAnswer _ dest _ _ => inRange 1 256 dest
  | .windowExpiry => true
  | .setRoot _ payload => payloadFits payload
  | .setMixer _ payload => payloadFits payload
  | .mixerState _ payload => payloadFits payload
  | .setMixerMap _ payload => payloadFits payload
  | .setTie _ payload => payloadFits payload
  | .clearTie _ payload => payloadFits payload
  | .getTally _ payload => payloadFits payload
  | .setCamera _ payload => payloadFits payload
  | .setOutput _ payload => payloadFits payload
  | .lampClear _ payload => payloadFits payload
  | .flashClockHalf => true
  | .loadSample output _ => inRange 1 48 output
  | .overcurrentDetection output => inRange 1 48 output
  | .setPort _ payload => payloadFits payload
  | .setGroup _ payload => payloadFits payload
  | .talkOn _ payload => payloadFits payload
  | .talkOff _ payload => payloadFits payload
  | .autoTimerExpiry panel key => keyExists panel key
  | .getPaths _ payload => payloadFits payload
  | .setIfb _ payload => payloadFits payload
  | .getIfb _ payload => payloadFits payload
  | .setPanel _ payload => payloadFits payload && payload.length != 1
  | .setPanelUndeclared _ payload => payload.length == 1
  | .setCountMode _ payload => payloadFits payload
  | .countsSnapshot _ payload => payloadFits payload
  | .getPanel _ payload => payloadFits payload
  | .getCounts _ payload => payloadFits payload
  | .panelFrameReceived bytes => bytes.head? == some 0x5A
  | .transactionTimeout => true
  | .emptyCycleEnd => true
  | .countTransfer => true
  | .keyPress panel key => keyExists panel key
  | .keyRelease panel key => keyExists panel key
  | .knob panel delta => inRange 1 32 panel && decide (-64 ≤ delta) && decide (delta ≤ 63)
  | .busState panel bus input => inRange 1 32 panel && inRange 0 255 bus && inRange 0 255 input
  | .setFunction _ payload => payloadFits payload
  | .setBinding _ payload => payloadFits payload
  | .setLamp _ payload => payloadFits payload
  | .getSystemKeys _ payload => payloadFits payload
  | .setEvents _ payload => payloadFits payload
  | .restartAll _ payload => payload == [0]
  | .restartPanels _ payload => payload == [1]
  | .restartTalk _ payload => payload == [2]
  | .ident _ payload => payloadFits payload
  | .getStatus _ payload => payloadFits payload
  | .discardedReadbackAnswer device _ => inRange 1 8 device

end Sys2Proof
end

