-- ==== Sys2Proof/Tests/Slice0.lean ====
section
/-! SUPPORT. The model's own tests: ill-formed commands that the checks of WellFormed.lean refuse, small tests of one
command each with expected values taken from spec/, and for every statement with hypotheses a witness that meets them. -/

namespace Sys2Proof.Tests

open Sys2Proof Sys2Proof.Machine

/-! ### Small states -/

/-- The state that a command leaves. -/
def after (c : Instr) (s : State) : State := match exec c s with
  | .next t => t
  | .fault _ => s
  | .refused _ => s

/-- The payload of the message in transmission: the code and the data of the reply on an idle link. -/
def replied (s : State) : List Byte := (s.hlc.sending.map fun m => m.payload).getD []

/-- A state with other records in the Route Controller. -/
def withRc (f : RouteController → RouteController) (s : State) : State := { s with rc := f s.rc }

/-- A state with other records in the Tally Tracer. -/
def withTt (f : TallyTracer → TallyTracer) (s : State) : State := { s with tt := f s.tt }

/-- A state with other records in the Tally Output Unit. -/
def withTou (f : TallyOutputs → TallyOutputs) (s : State) : State := { s with tou := f s.tou }

/-- A state with other records in the Talk Controller. -/
def withTc (f : TalkController → TalkController) (s : State) : State := { s with tc := f s.tc }

/-- A state with other records in the Panel Bus Controller. -/
def withPbc (f : PanelBus → PanelBus) (s : State) : State := { s with pbc := f s.pbc }

/-- A state with other records in the Function Dispatcher. -/
def withFd (f : FunctionDispatcher → FunctionDispatcher) (s : State) : State := { s with fd := f s.fd }

/-- A destination of domain SHARED that is not protected, fitted on VID alone at a source. -/
def onVid (x : Nat) : Destination := ⟨.shared, ⟨.fitted x false, .notFitted, .notFitted, .notFitted⟩, .none⟩

/-- Device 1 on VID covers destinations 1..4 in a phase. -/
def covering (phase : DevicePhase) : Table Device := ⟨[(1, ⟨.vid, 1, 4, 5, phase⟩)]⟩

/-- Reset, then an ONLINE device with destinations 1..4 at sources 1..4. -/
def fitted : State := withRc
  (fun r => { r with devices := covering .online, dests := ⟨[(1, onVid 1), (2, onVid 2), (3, onVid 3), (4, onVid 4)]⟩ })
  State.reset

/-- Reset, then an ONLINE device whose destinations 1..4 read the sources given and a tie map, for traces. -/
def tied (sources : List Nat) (ties : List (Nat × Nat)) : State :=
  withTt (fun t => { t with ties := ⟨ties⟩ })
    (withRc (fun r => { r with devices := covering .online, dests := ⟨(numbers 1 4).zip (sources.map onVid)⟩ }) State.reset)

/-- An open window 1 over `fitted`: a host take of destination 1 to source 9 whose write waits for its answer. -/
def switching : State := withRc
  (fun r => { r with
    windows := 1
    window := some ⟨1, [⟨none, [⟨⟨1, ⟨true, false, false, false⟩, 9, .system 5, false⟩, none, ⟨true, false, false, false⟩⟩]⟩],
      [⟨1, 1, .vid, 9, .sent⟩]⟩ }) fitted

/-- A panel record of a state, with 8 keys, port 2, domain A and access level 1. -/
def aPanel (state : PanelState) : Panel :=
  ⟨.control, 1, .a, some 2, state, some 8, 0, false, false, none, 0, 0, .none, ⟨[]⟩, 1⟩

/-- Reset, then panel 1 declared in a state. -/
def panelled (state : PanelState) : State := withPbc (fun b => { b with panels := ⟨[(1, aPanel state)]⟩ }) State.reset

/-- Panel 1 ONLINE, port 2 NORMAL, and key 3 of panel 1 bound to function 7. -/
def keyed (a : FunctionAction) : State :=
  withFd (fun f => { f with functions := ⟨[(7, ⟨a, 1, .any⟩)]⟩, bindings := ⟨[(1, ⟨⟨[(3, 7)]⟩, ⟨[]⟩⟩)]⟩ })
    (withTc (fun t => { t with ports := ⟨[(2, { Port.start with role := .normal }), (4, { Port.start with role := .normal })]⟩ })
      (panelled .online))

/-- A talk of a system slot to port 4. -/
def slotTalk (slot id : Nat) : Talk := ⟨id, 2, .port 4, 0, 3, .system slot, none, id, 1, [4]⟩

/-- A talk of key 3 of panel 1 to port 4. -/
def keyTalk (id : Nat) : Talk := ⟨id, 2, .port 4, 0, 3, .panel 1 3, some .a, id, 1, [4]⟩

/-- Reset with one camera, one lit and monitored output and a fault state of it. -/
def lit (fault : LampFaultState) : State := withTou
  (fun t => { t with outputs := ⟨[(1, ⟨some ⟨.forceOn, 0, .a, ⟨true, false, false⟩, true⟩, .on, fault⟩)]⟩ }) State.reset

/-- Panel 1 in a state, with a transaction in flight. -/
def waiting (state : PanelState) (x : Transaction) : State := withPbc (fun b => { b with transaction := some x }) (panelled state)

/-- A POLL of panel 1 with no lamp entry. -/
def aPoll : Transaction := ⟨false, 1, false, [], false, .control⟩

/-- A PROBE of address 1. -/
def aProbe : Transaction := ⟨true, 1, false, [], false, .control⟩

/-- IFB 1 with talk 1 of priority 3 as its interrupter and talk 2 of priority 2 pending. -/
def arbitrated : State := withTc
  (fun t => { t with
    talks := [{ slotTalk 1 1 with target := .ifb 1 }, { slotTalk 2 2 with target := .ifb 1, priority := 2 }]
    ifbs := ⟨[(1, ⟨5, 6, some (-20), false, some 1, 3, [2]⟩)]⟩
    ports := ⟨[(2, { Port.start with role := .normal }), (5, { Port.start with role := .ifbOutput }),
      (6, { Port.start with role := .programInput })]⟩
    counter := 3 }) State.reset

/-! ### Ill-formed commands -/

theorem test_wf_empty_frame : (Instr.hostFrameReceived []).wellFormed = false := by decide
theorem test_wf_empty_bad_length : (Instr.hostBadLength []).wellFormed = false := by decide
theorem test_wf_payload_241 : (Instr.take 0 (List.replicate 241 0)).wellFormed = false := by decide +kernel
theorem test_wf_payload_240 : (Instr.unknownRequest 0xFF 0 (List.replicate 240 0)).wellFormed = true := by decide +kernel
theorem test_wf_readback_device : (Instr.readbackCompletion 9 [0]).wellFormed = false := by decide
theorem test_wf_readback_empty : (Instr.readbackCompletion 1 []).wellFormed = false := by decide
theorem test_wf_readback_long : (Instr.readbackCompletion 1 (List.replicate 257 0)).wellFormed = false := by decide +kernel
theorem test_wf_failure_device : (Instr.readbackFailure 0).wellFormed = false := by decide
theorem test_wf_discarded_device : (Instr.discardedReadbackAnswer 9 []).wellFormed = false := by decide
theorem test_wf_answer_destination : (Instr.crosspointAnswer 1 257 .vid true).wellFormed = false := by decide
theorem test_wf_sample_output : (Instr.loadSample 49 true).wellFormed = false := by decide
theorem test_wf_overcurrent_output : (Instr.overcurrentDetection 0).wellFormed = false := by decide
theorem test_wf_timer_panel : (Instr.autoTimerExpiry 33 1).wellFormed = false := by decide
theorem test_wf_press_key : (Instr.keyPress 1 65).wellFormed = false := by decide
theorem test_wf_release_key : (Instr.keyRelease 1 0).wellFormed = false := by decide
theorem test_wf_knob_low : (Instr.knob 1 (-65)).wellFormed = false := by decide
theorem test_wf_knob_high : (Instr.knob 1 64).wellFormed = false := by decide
theorem test_wf_knob_panel : (Instr.knob 0 0).wellFormed = false := by decide
theorem test_wf_bus_state_bus : (Instr.busState 1 256 0).wellFormed = false := by decide
theorem test_wf_bus_state_input : (Instr.busState 1 0 256).wellFormed = false := by decide
theorem test_wf_panel_frame_start : (Instr.panelFrameReceived [0x5B, 1]).wellFormed = false := by decide
theorem test_wf_set_panel : (Instr.setPanel 0 [1]).wellFormed = false := by decide
theorem test_wf_set_panel_undeclared : (Instr.setPanelUndeclared 0 [1, 0, 0, 0, 0]).wellFormed = false := by decide
theorem test_wf_restart_all : (Instr.restartAll 0 [1]).wellFormed = false := by decide
theorem test_wf_restart_panels : (Instr.restartPanels 0 [2]).wellFormed = false := by decide
theorem test_wf_restart_talk : (Instr.restartTalk 0 []).wellFormed = false := by decide

/-! ### The host link (R180 to R192, section 11.5) -/

-- R180 names the polynomial, the initial value and that nothing is reflected; the check value of that CRC for "123456789".
theorem test_crc_check_value : crc16 [0x31, 0x32, 0x33, 0x34, 0x35, 0x36, 0x37, 0x38, 0x39] = 0x29B1#16 := by decide +kernel

-- Section 11.5: header and payload of TAKE(20, VID, 5) with tag 5, 12 bytes with the CRC.
theorem test_frame_of_section_11_5 : (hostFrame 0x20 5 [0, 20, 1, 0, 5, 0]).take 10 = [0xC3, 6, 0x20, 5, 0, 20, 1, 0, 5, 0] ∧
    (hostFrame 0x20 5 [0, 20, 1, 0, 5, 0]).length = 12 := by decide

theorem test_powerOn : after .powerOn fitted = State.reset := by decide
theorem test_hostFrameReceived :
    (after (.hostFrameReceived (hostFrame 0x11 7 [0, 1])) State.reset).hlc.waiting = [⟨0x11, 7, [0, 1]⟩] := by decide +kernel
-- R181: a frame with a wrong CRC byte is dropped.
theorem test_hostFrameReceived_bad_crc :
    (after (.hostFrameReceived ((hostFrame 0x11 7 [0, 1]).dropLast ++ [0])) State.reset).hlc.waiting = [] := by decide +kernel
-- R181: a length of 241 drops the frame at once.
theorem test_hostBadLength : (after (.hostBadLength [0xC3, 241]) State.reset).hlc.collected = [] := by decide
theorem test_hostFrameTimeout :
    (after .hostFrameTimeout { State.reset with hlc := { HostLink.start with collected := [0xC3, 2, 0x11] } }).hlc.collected = [] := by
  decide
-- R182: the code of UNKNOWN is 14.
theorem test_unknownRequest : replied (after (.unknownRequest 0x7F 1 []) State.reset) = [14] := by decide
theorem test_unknownRequest_known : after (.unknownRequest 0x20 1 []) State.reset = State.reset := by decide
-- R185, R186: a reply frees its place when it begins.
theorem test_transmissionEnd :
    (after .transmissionEnd (after (.protect 2 [0, 1]) (after (.ident 1 []) State.reset))).hlc.executed = [] := by decide
-- R189: bits 14 and 15 of the enables name no flag.
theorem test_setEvents : (after (.setEvents 1 [0, 8, 0, 1, 2, 0, 0]) State.reset).hlc.edges = ⟨.rise, .fall, .both, .rise, .rise⟩ := by
  decide
theorem test_setEvents_enables : (after (.setEvents 1 [0, 8, 0, 1, 2, 0, 0]) State.reset).flagEnabled .refLost = true := by decide
-- R192: vendor code 0x0E4A and part code 0x0A50.
theorem test_ident : (replied (after (.ident 1 []) State.reset)).take 5 = [0, 0x0E, 0x4A, 0x0A, 0x50] := by rfl
theorem test_getStatus : (replied (after (.getStatus 1 []) State.reset)).take 3 = [0, 3, 1] := by decide
theorem test_restartAll : (after (.restartAll 1 [0]) fitted).rc.dests = ⟨[]⟩ := by decide
-- R191: the frame family stands.
theorem test_restartAll_family :
    (after (.restartAll 1 [0]) { State.reset with stu := { SwitchTiming.start with family := .f25 } }).stu.family = .f25 := by decide
theorem test_restartPanels : (after (.restartPanels 1 [1]) (panelled .online)).panelState? 1 = some .absent := by decide
-- R110, R117: a camera talk ends with an interrupter of another talker; the path that the next interrupter gains is new.
theorem test_restartPanels_meets_admission :
    ((after (.restartPanels 1 [1]) (withTc (fun t => { t with
        talks := [⟨1, 2, .camera 1, 0, 0, .panel 1 4, some .a, 1, 1, [5]⟩, ⟨2, 3, .ifb 1, 0, 3, .panel 1 3, some .a, 2, 1, [5]⟩,
          ⟨3, 2, .ifb 1, 0, 2, .system 1, none, 3, 1, []⟩]
        ifbs := ⟨[(1, ⟨5, 6, none, false, some 2, 3, [3]⟩)]⟩ })
      { State.reset with tme := { TalkMix.start with
          counter := 9
          paths := [⟨.talk, 2, 5, [1], 0, 0, .admitted 1 .off⟩, ⟨.talk, 3, 5, [2], 0, 3, .admitted 2 .off⟩,
            ⟨.program 1, 6, 5, [], 0, 8, .admitted 3 .off⟩] } })).tme.paths.filter
        Path.isTalk).map (fun p => (p.talks, p.number)) = [([3], 9)] := by decide
theorem test_restartTalk : (after (.restartTalk 1 [2]) (withTc (fun t => { t with talks := [slotTalk 1 1], counter := 2 })
    State.reset)).tc = TalkController.start := by decide

/-! ### Destinations and fabric devices (Chapter 1) -/

theorem test_setDestDomain : ((after (.setDestDomain 1 [1, 0, 1]) State.reset).dest 256).domain = .b := by decide
theorem test_protect : ((after (.protect 1 [0, 2]) fitted).dest 2).protect = .systemLock := by decide
-- R7: destination 0 is out of range, code 7.
theorem test_protect_range : replied (after (.protect 1 [0, 0]) fitted) = [7] := by decide
theorem test_unprotect : ((after (.unprotect 1 [1, 0]) State.reset).dest 256).protect = .none := by decide
theorem test_protectAll : replied (after (.protectAll 1 []) fitted) = [0] ∧ lockedBy (.panel 3) = .systemLock := by decide
theorem test_releaseAll : ((after (.releaseAll 1 []) fitted).dest 256).protect = .none := by decide +kernel
theorem test_setFabric : (after (.setFabric 1 [2, 1, 0, 5, 0, 5, 9]) State.reset).device? 2 =
    some ⟨.aud1, 5, 5, 9, .readback .startUp true⟩ := by decide
-- R12: an address that is taken is BAD_ARG.
theorem test_setFabric_taken : replied (after (.setFabric 1 [2, 1, 0, 5, 0, 5, 5]) fitted) = [7] := by decide
theorem test_fabricRetry : ((after (.fabricRetry 1 [1]) fitted).device? 1).map (fun v => v.phase) = some (.readback .retry true) := by
  decide
theorem test_fabricRetry_unmapped : replied (after (.fabricRetry 1 [8]) fitted) = [9] := by decide
-- R16: a returned source of 257 is written as 0 and FAULTED.
theorem test_readbackCompletion :
    let t := after (.readbackCompletion 1 [5, 257, 0, 256]) (withRc (fun r => { r with devices := covering (.readback .startUp true) }) fitted)
    t.levelAt 1 .vid = .fitted 5 false ∧ t.levelAt 2 .vid = .fitted 0 true ∧ t.levelAt 4 .vid = .fitted 256 false := by decide
theorem test_readbackFailure :
    let t := after (.readbackFailure 1) (withRc (fun r => { r with devices := covering (.readback .retry true) }) fitted)
    t.levelAt 4 .vid = .fitted 0 true ∧ (t.device? 1).map (fun v => v.phase) = some .failed := by decide
theorem test_discardedReadbackAnswer : after (.discardedReadbackAnswer 1 [1, 2]) fitted = fitted := by decide
-- R20: code OK, domain SHARED, protect state NONE, and VID: source 2, no fault mark, device 1.
theorem test_getRoute : (replied (after (.getRoute 1 [0, 0, 2]) fitted)).take 7 = [0, 2, 0, 0, 2, 0, 1] := by decide

/-! ### Takes and timing (Chapter 2) -/

-- R22: the mask is trimmed to the levels that a device covers.
theorem test_take : (after (.take 5 [0, 1, 3, 0, 9, 0]) fitted).rc.queue =
    [⟨none, [⟨1, ⟨true, false, false, false⟩, 9, .system 5, false⟩]⟩] := by decide
-- R25, section 11.5: the superseded take is answered code 2 with its own tag.
theorem test_take_supersedes : (after (.take 6 [0, 1, 1, 0, 8, 0]) (after (.take 5 [0, 1, 1, 0, 9, 0]) fitted)).hlc.sending =
    some ⟨.deferred, 5, [2]⟩ := by decide
theorem test_salvoStore : (after (.salvoStore 1 [16, 1, 0, 3, 1, 0, 7]) State.reset).salvo 16 =
    [⟨3, ⟨true, false, false, false⟩, 7⟩] := by decide
-- R27: a firing with no passing entry ends at once with DONE and its counts.
theorem test_salvoFire : replied (after (.salvoFire 1 [2, 0]) State.reset) = [1, 0, 0, 0, 0, 0] := by decide
theorem test_setFrameFamily : (after (.setFrameFamily 1 [0]) State.reset).stu.family = .f25 := by decide
-- R32, section 2.4.1: in LOST a first pulse becomes the candidate and a second one period behind it relocks.
theorem test_referencePulse_candidate : (after (.referencePulse 1000) State.reset).stu.candidate = some 1000 := by decide
theorem test_referencePulse_relocks :
    (after (.referencePulse 21000) { State.reset with stu := { SwitchTiming.start with family := .f50, candidate := some 1000 } }).stu.reference =
      .locked := by decide
theorem test_lossTimerExpiry :
    (after .lossTimerExpiry { State.reset with stu := { SwitchTiming.start with reference := .locked, lastPulse := some 5 } }).stu.reference =
      .lost := by decide
-- R31, R34: in LOST a flywheel point is a switch point and draws the queue.
theorem test_flywheelPoint : (after .flywheelPoint (after (.take 5 [0, 1, 1, 0, 9, 0]) fitted)).rc.window.map (fun w => w.writes) =
    some [⟨1, 1, .vid, 9, .sent⟩] := by decide
-- R39, R41, section 11.5: the window that writes the take is answered DONE with done mask 0x01.
theorem test_crosspointAnswer :
    let t := after (.crosspointAnswer 1 1 .vid true) switching
    t.levelAt 1 .vid = .fitted 9 false ∧ t.hlc.sending = some ⟨.deferred, 5, [1, 1]⟩ := by decide
theorem test_crosspointAnswer_late : after (.crosspointAnswer 7 1 .vid true) switching = switching := by decide
-- R17, R38, R41: at the expiry an unanswered write counts as refused: the level is FAULTED, the reply is FABRIC_FAULT (13).
theorem test_windowExpiry :
    let t := after .windowExpiry switching
    t.levelAt 1 .vid = .fitted 1 true ∧ t.hlc.sending = some ⟨.deferred, 5, [13, 0]⟩ := by decide

/-! ### Tally (Chapters 3 and 4) -/

-- R54: the first two chains of its table, with destinations 1 and 2 for 200 and 201.
theorem test_trace_terminal : (tied [41, 9, 3, 4] [(41, 2)]).trace (.dest 1 .vid) = .terminal 9 := by decide
theorem test_trace_loop : (tied [41, 42, 3, 4] [(41, 2), (42, 1)]).trace (.dest 1 .vid) = .fault .loop 2 := by decide
-- R54: the third chain, five destinations that each read a tie source.
theorem test_trace_depth : (withRc (fun r => { r with dests := ⟨(numbers 1 5).map fun d => (d, onVid (40 + d))⟩ })
    (tied [] [(41, 2), (42, 3), (43, 4), (44, 5), (45, 6)])).trace (.dest 1 .vid) = .fault .depth 5 := by decide
-- R54: without the last tie the trace ends at the source after four hops.
theorem test_trace_four_hops : (withRc (fun r => { r with dests := ⟨(numbers 1 5).map fun d => (d, onVid (40 + d))⟩ })
    (tied [] [(41, 2), (42, 3), (43, 4), (44, 5)])).trace (.dest 1 .vid) = .terminal 45 := by decide
theorem test_setRoot : (after (.setRoot 1 [3, 1, 0, 1, 0, 0, 2]) fitted).colours .a 2 = ⟨false, true, false⟩ := by decide
theorem test_setMixer : (after (.setMixer 1 [2, 32]) State.reset).mixer 2 =
    ⟨.bridge 32, ⟨(numbers 1 8).map fun b => (b, ⟨0, true⟩)⟩⟩ := by decide
theorem test_mixerState : ((after (.mixerState 1 [1, 1, 8, 48]) State.reset).mixer 1).bus 8 = ⟨48, false⟩ := by decide
theorem test_setMixerMap : (after (.setMixerMap 1 [2, 1, 48, 1, 0]) State.reset).mapEntry 2 48 = some 256 := by decide
theorem test_setTie : (after (.setTie 1 [0, 41, 0, 2]) State.reset).tie? 41 = some 2 := by decide
theorem test_clearTie : (after (.clearTie 1 [0, 41]) (tied [] [(41, 2)])).tt.ties = ⟨[]⟩ := by decide
theorem test_getTally : (replied (after (.getTally 1 [4]) (tied [] [(41, 2)]))) = [0, 1, 0, 41, 0, 2] := by decide
theorem test_setCamera : (after (.setCamera 1 [24, 1, 0, 9, 0, 48]) State.reset).camera? 24 = some ⟨.b, 9, none, some 48⟩ := by decide
-- R68: FORCE_ON drives the output ON.
theorem test_setOutput : ((after (.setOutput 1 [1, 1, 0, 0, 0, 1, 0]) State.reset).output 1).drive = .on := by decide
theorem test_lampClear : ((after (.lampClear 1 [1]) (lit .short)).output 1).fault = .ok := by decide
theorem test_flashClockHalf : (after .flashClockHalf State.reset).tou.flashLit = !State.reset.tou.flashLit := by decide
-- R73: a sample without current makes the lit output OPEN, and one with current makes it OK.
theorem test_loadSample_open : ((after (.loadSample 1 false) (lit .ok)).output 1).fault = .openLoad := by decide
theorem test_loadSample_ok : ((after (.loadSample 1 true) (lit .openLoad)).output 1).fault = .ok := by decide
-- R68, R74: SHORT switches the output off.
theorem test_overcurrentDetection :
    (after (.overcurrentDetection 1) (lit .ok)).output 1 = ⟨some ⟨.forceOn, 0, .a, ⟨true, false, false⟩, true⟩, .off, .short⟩ := by
  decide

/-! ### Talk (Chapters 5 to 7) -/

-- A role that is NORMAL, T -24, V -120, Dm -60, C -40 and no Ct.
theorem test_setPort : (after (.setPort 1 [64, 1, 0xE8, 0x88, 0xC4, 0xD8, 0x80]) State.reset).port 64 =
    ⟨.normal, -24, -120, -60, some (-40), none⟩ := by decide
theorem test_setGroup : (after (.setGroup 1 [16, 2, 4, 2]) (keyed .pageToggle)).group 16 = [2, 4] := by decide
theorem test_talkOn : ((after (.talkOn 1 [8, 2, 1, 4, 0, 3]) (keyed .pageToggle)).tc.talks.map fun t => (t.id, t.origin, t.listeners)) =
    [(1, .system 8, [4])] := by decide
-- R93: a talker port that is not NORMAL is NO_PORT, code 11.
theorem test_talkOn_no_port : replied (after (.talkOn 1 [8, 5, 1, 4, 0, 3]) (keyed .pageToggle)) = [11] := by decide
theorem test_talkOff : (after (.talkOff 1 [8]) (withTc (fun t => { t with talks := [slotTalk 8 1] }) State.reset)).tc.talks = [] := by
  decide
-- R117: the talk that takes the place of an interrupter of the same talker port keeps the path's admission.
theorem test_talkOff_succession : ((after (.talkOff 1 [1]) { arbitrated with tme := { TalkMix.start with
    counter := 9, paths := [⟨.talk, 2, 5, [1], 0, 3, .admitted 1 (.steps (-12))⟩] } }).tme.paths.filter Path.isTalk).map
      (fun p => (p.talks, p.number)) = [([2], 1)] := by decide
theorem test_autoTimerExpiry : ((after (.autoTimerExpiry 1 3) ((keyed .pageToggle).setKey 1 3 ⟨.held, some .auto, some 1, true⟩)).key 1 3).state =
    .heldLong := by decide
theorem test_getPaths : replied (after (.getPaths 1 [3, 16]) (withTc (fun t => { t with groups := ⟨[(16, [2, 4])]⟩ }) State.reset)) =
    [0, 2, 2, 4] := by decide
theorem test_setIfb : (after (.setIfb 1 [16, 5, 6, 0x80, 1]) (withTc
    (fun t => { t with ports := ⟨[(5, { Port.start with role := .ifbOutput }), (6, { Port.start with role := .programInput })]⟩ })
    State.reset)).ifb? 16 = some ⟨5, 6, none, true, none, 0, []⟩ := by decide
theorem test_getIfb : (replied (after (.getIfb 1 [16]) State.reset)).take 1 = [0] := by decide

/-- Section 7.7: ports 3, 5, 7 and 9, and the active talk of port 9. -/
def standard (ceiling talkerCeiling : Option Int) : State := withTc
  (fun t => { t with
    ports := ⟨[(3, ⟨.normal, 4, 0, 0, none, none⟩), (5, ⟨.normal, -2, 0, 0, none, talkerCeiling⟩),
      (9, ⟨.normal, 0, -16, -20, ceiling, none⟩)]⟩
    talks := [⟨1, 9, .port 3, 0, 0, .system 1, none, 1, 1, [3]⟩] }) State.reset

-- Section 7.7, the standard case.
theorem test_coefficient_standard : talkCoefficient (standard (some (-12)) (some 4)) 2 3 9 0 = .steps (-38) ∧
    talkCoefficient (standard (some (-12)) (some 4)) 2 5 9 12 = .steps (-34) := by decide
-- Section 7.7.1, the four ceiling cases.
theorem test_coefficient_ceilings : talkCoefficient (standard none none) 2 5 9 12 = .steps (-32) ∧
    talkCoefficient (standard (some (-12)) none) 2 5 9 12 = .steps (-34) ∧
    talkCoefficient (standard none (some (-30))) 2 5 9 12 = .steps (-32) ∧
    talkCoefficient (standard (some (-12)) (some (-30))) 2 5 9 12 = .steps (-52) := by decide
-- Sections 7.8.1 and 7.8.3, saturation and the OFF boundary.
theorem test_coefficient_limits :
    let s := withTc (fun t => { t with ports := ⟨[(21, ⟨.normal, 24, 0, 0, none, none⟩), (22, ⟨.normal, 0, 0, -12, none, none⟩),
      (40, ⟨.normal, 0, -100, 0, none, none⟩)]⟩ }) State.reset
    talkCoefficient s 1 21 22 12 = .steps 24 ∧ talkCoefficient s 4 21 22 12 = .steps 24 ∧
      talkCoefficient s 2 2 40 (-38) = .steps (-144) ∧ talkCoefficient s 2 2 40 (-39) = .off := by decide

/-! ### Panels and functions (Chapters 8 and 9) -/

theorem test_setPanel : (after (.setPanel 1 [32, 1, 3, 1, 0]) State.reset).panelState? 32 = some .absent := by decide
-- R9: the removal of a panel clears its protects.
theorem test_setPanelUndeclared : ((after (.setPanelUndeclared 1 [1]) ((panelled .online).setProtect 9 (.panel 1))).dest 9).protect =
    .none := by decide +kernel
-- R134: the kind that a SET_PANEL writes does not govern the probe in flight.
theorem test_setPanel_probe_in_flight : (after (.panelFrameReceived (panelFrame 1 0x82 [0, 64, 1]))
    (after (.setPanel 1 [1, 1, 1, 0, 2]) (waiting .absent aProbe))).panelState? 1 = some .joining := by decide +kernel
theorem test_setCountMode : (after (.setCountMode 1 [1, 255]) State.reset).pbc.threshold = 255 := by decide
-- R155: in AUTO a snapshot is BAD_STATE, code 9.
theorem test_countsSnapshot : replied (after (.countsSnapshot 1 []) State.reset) = [9] := by decide
theorem test_getPanel : (replied (after (.getPanel 1 [3, 1]) State.reset)).take 5 = [0, 0xFF, 0xFF, 0xFF, 0xFF] := by decide
theorem test_getCounts : (replied (after (.getCounts 1 []) State.reset)).length = 164 := by decide +kernel
-- R143, R197: a REPLY with a new sequence bit brings its key press.
theorem test_panelFrameReceived :
    (after (.panelFrameReceived (panelFrame 1 0x81 [1, 1, 1, 3, 0])) (waiting .online aPoll)).pbc.events = [⟨1, .press 3⟩] := by decide +kernel
-- R138, R149: an IDENT of the expected kind makes an ABSENT panel JOINING.
theorem test_panelFrameReceived_ident :
    (after (.panelFrameReceived (panelFrame 1 0x82 [0, 64, 1])) (waiting .absent aProbe)).panelState? 1 = some .joining := by decide +kernel
-- R151: the third missed poll in succession loses the panel.
theorem test_transactionTimeout : (after .transactionTimeout (withPbc
    (fun b => { b with panels := ⟨[(1, { aPanel .online with missed := 2 })]⟩ }) (waiting .online aPoll))).panelState? 1 = some .lost := by
  decide
theorem test_emptyCycleEnd : (after .emptyCycleEnd State.reset).pbc.odd = true := by decide
-- R154, R156: a window of 8 errors degrades an ONLINE panel.
theorem test_countTransfer : (after .countTransfer (withPbc
    (fun b => { b with panels := ⟨[(1, { aPanel .online with errors := 8 })]⟩ }) State.reset)).panelState? 1 = some .degraded := by decide
theorem test_keyPress : ((after (.keyPress 1 3) (keyed .pageToggle)).panel? 1).map (fun v => v.page) = some true := by decide
-- R165, R171: a NULL binding is refused UNBOUND.
theorem test_keyPress_unbound : ((after (.keyPress 1 4) (keyed .pageToggle)).panel? 1).map (fun v => v.lastRefusal) =
    some (some (4, .unbound)) := by decide
theorem test_keyRelease : (after (.keyRelease 1 3) ((keyed .pageToggle).setHeld 1 3 (some (.systemKey 9)))).fd.systemKeys =
    [⟨1, 3, 9, true⟩] := by decide
-- R81: the listen volume is held to -120..0.
theorem test_knob : ((after (.knob 1 63) (keyed .pageToggle)).port 2).volume = 0 := by decide
theorem test_busState : ((after (.busState 1 8 48) ((keyed .pageToggle).setMixer 1 ⟨.bridge 1, ⟨[]⟩⟩)).mixer 1).bus 8 = ⟨48, false⟩ := by
  decide
theorem test_setFunction : (after (.setFunction 1 [1, 0xFF, 7, 24, 3, 2]) State.reset).function? 511 = some ⟨.call 24, 3, .any⟩ := by
  decide
theorem test_setBinding : (after (.setBinding 1 [1, 1, 64, 0, 7]) (keyed .pageToggle)).binding 1 true 64 = 7 := by decide
-- R162: a panel that is not declared is BAD_STATE, code 9.
theorem test_setBinding_undeclared : replied (after (.setBinding 1 [2, 1, 64, 0, 7]) (keyed .pageToggle)) = [9] := by decide
theorem test_setLamp : (after (.setLamp 1 [1, 64, 0x0B]) State.reset).hostLamp 1 64 = .lit .amber true := by decide
theorem test_getSystemKeys : replied (after (.getSystemKeys 1 []) (withFd (fun f => { f with systemKeys := [⟨1, 3, 9, true⟩] })
    State.reset)) = [0, 1, 1, 3, 9, 1] := by decide

/-! ### The step -/

theorem test_step_takes_the_front : step { State.reset with pending := [.emptyCycleEnd, .powerOn] } =
    exec .emptyCycleEnd { State.reset with pending := [.powerOn] } := by rfl
theorem test_step_idles : step State.reset = .next State.reset := by rfl

/-! ### Witnesses

Each theorem below gives, for the statement that its name ends with, states and operands that meet the hypotheses of its
clauses, at the ends of their ranges where they name a range. -/

/-- A request that finds a settled link, no request waiting and a place free, which leaves the state as it finds it. -/
def Ready (r : Request) (s : State) : Prop := Settled s ∧ InTurn r s s

theorem ready {r : Request} {s : State} (h : s.hlc = HostLink.start) : Ready r s := by
  refine ⟨fun _ => ?_, .inl ⟨?_, ?_, rfl⟩⟩ <;> simp [State.requestRoom, h, HostLink.start, Config.requestPlaces]

theorem calm {s : State} (h : s.hlc = HostLink.start) : Settled s := fun _ => by simp [h, HostLink.start]

/-- A state over another link. -/
def linked (h : HostLink) (s : State) : State := { s with hlc := h }

/-- A link with a message in transmission. -/
def busy : HostLink := { HostLink.start with sending := some ⟨.overflow, 9, [6]⟩ }

/-- A link with a number of deferred replies owed. -/
def owing (n : Nat) : HostLink := { HostLink.start with owed := n }

/-- An idle link with a number of requests waiting. -/
def asked (n : Nat) : HostLink := { HostLink.start with waiting := List.replicate n ⟨0x11, 7, [0, 1]⟩ }

theorem owing_ready {r : Request} {s : State} {n : Nat} (h : s.hlc = owing n) : Ready r s := by
  refine ⟨fun _ => ?_, .inl ⟨?_, ?_, rfl⟩⟩ <;> simp [State.requestRoom, h, owing, HostLink.start, Config.requestPlaces]

theorem witness_EveryCommandCompletes : State.reset.pending = [] := by rfl

/-- A request in its turn behind an older one that is executed, and one that waits at the head. -/
theorem witness_InTurn :
    InTurn ⟨0x11, 7, [0, 1]⟩ (linked (asked 2) fitted) (linked (asked 1) fitted) ∧ Settled (linked (asked 2) fitted) ∧
      InTurn ⟨0xA2, 1, []⟩ (linked busy fitted) (linked busy fitted) ∧ Settled (linked busy fitted) :=
  ⟨.inr ⟨_, rfl, rfl⟩, fun _ => ⟨rfl, rfl⟩, .inl ⟨rfl, rfl, rfl⟩, fun h => by cases h⟩

theorem witness_RestartAllScope : InTurn ⟨0xA1, 1, [0]⟩ fitted fitted ∧ fitted.hlc.sending = none ∧
    InTurn ⟨0xA1, 1, [0]⟩ (linked busy fitted) (linked busy fitted) ∧
    (linked busy fitted).hlc.sending = some ⟨.overflow, 9, [6]⟩ :=
  ⟨.inl ⟨rfl, rfl, rfl⟩, rfl, .inl ⟨rfl, rfl, rfl⟩, rfl⟩

theorem witness_RestartPanelsScope :
    let s := withTc (fun t => { t with talks := [slotTalk 1 1, keyTalk 2] }) (waiting .online aPoll)
    Ready ⟨0xA1, 1, [1]⟩ s ∧ (s.tc.talks.map fun t => t.id).Nodup ∧ s.pbc.transaction = some aPoll ∧
      s.panel? 1 = some (aPanel .online) ∧ s.panel? 2 = none :=
  ⟨ready rfl, by decide, rfl, rfl, rfl⟩

theorem arbitrated_ifb {n : Nat} {i : Ifb} (h : arbitrated.ifb? n = some i) : n = 1 ∧ i = ⟨5, 6, some (-20), false, some 1, 3, [2]⟩ := by
  have e : arbitrated.ifb? n = if 1 = n then some ⟨5, 6, some (-20), false, some 1, 3, [2]⟩ else none := rfl
  rw [e] at h
  split at h
  · exact ⟨(by assumption : 1 = n).symm, (Option.some.inj h).symm⟩
  · cases h

theorem arbitrated_bounded : TalkSetBounded arbitrated :=
  ⟨by decide, by decide, by decide, by decide, by decide, by decide, by decide⟩

theorem arbitrated_inOrder : IfbArbitrated arbitrated where
  idle n i h c := by obtain ⟨rfl, rfl⟩ := arbitrated_ifb h; cases c
  current n i c h e := by
    obtain ⟨rfl, rfl⟩ := arbitrated_ifb h
    obtain rfl : 1 = c := Option.some.inj e
    exact ⟨_, rfl, by decide⟩
  pending n i c h e := by
    obtain ⟨rfl, rfl⟩ := arbitrated_ifb h
    obtain rfl : c = 2 := by simpa using e
    exact ⟨by decide, _, rfl, by decide⟩
  room n i h := by obtain ⟨rfl, rfl⟩ := arbitrated_ifb h; decide
  order n i h := by obtain ⟨rfl, rfl⟩ := arbitrated_ifb h; simp
  complete t m n e p := by
    have h : t = { slotTalk 1 1 with target := .ifb 1 } ∨ t = { slotTalk 2 2 with target := .ifb 1, priority := 2 } := by
      simpa [arbitrated, withTc] using m
    rcases h with rfl | rfl <;> cases e <;> exact ⟨_, rfl, by decide⟩
  preempted n i c h _ e := by
    obtain ⟨rfl, rfl⟩ := arbitrated_ifb h
    obtain rfl : c = 2 := by simpa using e
    decide

theorem witness_RestartTalkScope : Ready ⟨0xA1, 1, [2]⟩ arbitrated ∧ IfbArbitrated arbitrated ∧ arbitrated.tc.talks ≠ [] :=
  ⟨ready rfl, arbitrated_inOrder, by decide⟩

theorem witness_GoodFrameIsQueued : (List.replicate 240 (0 : Byte)).length ≤ 240 ∧
    (linked (asked 7) State.reset).hlc.collected = [] ∧ Settled (linked (asked 7) State.reset) ∧
    (linked (asked 7) State.reset).hlc.executed.length + (linked (asked 7) State.reset).hlc.waiting.length < 8 :=
  ⟨by rw [List.length_replicate], rfl, fun _ => ⟨rfl, rfl⟩, by decide⟩

/-- A link with 8 requests and a number of overflow replies waiting behind a message in transmission. -/
def full (n : Nat) : HostLink := { busy with waiting := (asked 8).waiting, outbound := List.replicate n ⟨.overflow, 9, [6]⟩ }

theorem witness_FramesTurnedAway :
    (∀ n, (full n).collected = [] ∧ 8 ≤ (full n).executed.length + (full n).waiting.length ∧ Settled (linked (full n) State.reset)) ∧
    count (fun m => m.cls == .overflow) (full 6).outbound < 7 ∧ 7 ≤ count (fun m => m.cls == .overflow) (full 7).outbound ∧
    240 < (241 : Byte).toNat ∧
    ((0 : Byte).toNat + 5 ≤ [0x11, 0, 0, (0 : Byte)].length + 1 ∧ crcChecks (([0, 0x11, 0, 0, 0] : List Byte).take 5) = false) ∧
    (0xC3 : Byte) ∉ ([0xC2, 0] : List Byte) ∧ ((0 : Byte).toNat ≤ 240 ∧ [0x11, 0, (0 : Byte)].length < (0 : Byte).toNat + 4) ∧
    ({ HostLink.start with collected := [0xC3, 2] }).collected = 0xC3 :: [2] ∧ HostLink.start.collected = [] :=
  ⟨fun _ => ⟨rfl, by simp [full, busy, asked], fun h => by cases h⟩, by decide, by decide, by decide, by decide +kernel, by decide,
    by decide, rfl, rfl⟩

theorem witness_TransmissionEnds : HostLink.start.sending = none ∧ (busy.sending ≠ none ∧ busy.outbound = []) ∧
    (full 1).sending = some ⟨.overflow, 9, [6]⟩ ∧ (full 1).outbound = ⟨.overflow, 9, [6]⟩ :: [] := by decide

theorem witness_FlagsAreSet : (EdgeSelects.mk .fall .both .rise .rise .rise).of? .panelErrors = some .fall ∧
    (EdgeSelects.mk .fall .both .rise .rise .rise).of? .refLost = some .both := by decide

theorem witness_SetEventsWrites : (16383#16).toNat < 16384 ∧
    Ready ⟨0xA0, 1, be16 (16383#16).toNat ++ edgesBytes ⟨.fall, .both, .rise, .rise, .rise⟩⟩ fitted := ⟨by decide, ready rfl⟩

theorem witness_IdentAnswers : Ready ⟨0xA2, 1, []⟩ fitted := ready rfl

theorem witness_RequestsAreJudgedInTurn : (0x18 : Byte).toNat ∉ requestKinds ∧ Ready ⟨0x18, 1, []⟩ fitted ∧
    (0x17 : Byte).toNat ∈ requestKinds ∧
    (requestCarried (.protect 1 [1]) = some ⟨0x11, 1, [1]⟩ ∧ layoutFits (.protect 1 [1]) = false ∧ Ready ⟨0x11, 1, [1]⟩ fitted) ∧
    (requestCarried (.ident 1 []) = some ⟨0xA2, 1, []⟩ ∧ (asked 7).waiting = ⟨0x11, 7, [0, 1]⟩ :: (asked 6).waiting ∧
      (⟨0x11, 7, [0, 1]⟩ : Request) ≠ ⟨0xA2, 1, []⟩ ∧ (asked 7).executed.length + (asked 7).waiting.length < 8) :=
  ⟨by decide, ready rfl, by decide, ⟨rfl, rfl, ready rfl⟩, by decide⟩

/-! Destinations and devices. -/

theorem witness_SetDestDomainWrites : Ready ⟨0x10, 1, be16 1 ++ [0]⟩ fitted ∧ Ready ⟨0x10, 1, be16 256 ++ [1]⟩ fitted ∧
    Ready ⟨0x10, 1, be16 257 ++ [2]⟩ fitted ∧ (1 ≤ 1 ∧ 1 ≤ 256) ∧ (1 ≤ 256 ∧ 256 ≤ 256) ∧ ¬(1 ≤ 257 ∧ 257 ≤ 256) ∧
    ¬(1 ≤ 0 ∧ 0 ≤ 256) := ⟨ready rfl, ready rfl, ready rfl, by decide⟩

theorem witness_ProtectAndUnprotect :
    Ready ⟨0x11, 1, be16 256⟩ fitted ∧ Ready ⟨0x12, 1, be16 256⟩ fitted ∧ Ready ⟨0x11, 1, be16 257⟩ fitted ∧
    Ready ⟨0x12, 1, be16 0⟩ fitted ∧ (1 ≤ 256 ∧ 256 ≤ 256) ∧ ¬(1 ≤ 257 ∧ 257 ≤ 256) ∧ ¬(1 ≤ 0 ∧ 0 ≤ 256) :=
  ⟨ready rfl, ready rfl, ready rfl, ready rfl, by decide⟩

theorem witness_ProtectAllAndReleaseAll : Ready ⟨0x13, 1, []⟩ fitted ∧ Ready ⟨0x14, 1, []⟩ State.reset := ⟨ready rfl, ready rfl⟩

theorem witness_DomainPermissionAndToggle :
    let s (x : Protect) := (panelled .online).setProtect 9 x
    (panelled .online).panel? 1 = some (aPanel .online) ∧ 1 ≠ 2 ∧ State.reset.domainPasses (.panel 1 0) 9 = false ∧
    (s .none).domainPasses (.panel 1 0) 9 = true ∧ ((s .none).dest 9).protect = .none ∧ ((s (.panel 1)).dest 9).protect = .panel 1 ∧
    ((s (.panel 2)).dest 9).protect = .panel 2 ∧ ((s .startupLock).dest 9).protect = .startupLock := by decide

theorem witness_SetFabricMaps :
    let payload (n : Byte) (first last : Nat) (a : Byte) := [n, levelByte .vid] ++ be16 first ++ be16 last ++ [a]
    let fits (n : Byte) (first last : Nat) (a : Byte) :=
      1 ≤ n.toNat ∧ n.toNat ≤ 8 ∧ 1 ≤ first ∧ first ≤ last ∧ last ≤ 256 ∧ 1 ≤ a.toNat ∧ a.toNat ≤ 63
    let taken (first last : Nat) (a : Byte) := ∃ e ∈ fitted.rc.devices.entries,
      (e.2.level = .vid ∧ e.2.first ≤ last ∧ first ≤ e.2.last) ∨ e.2.address = a.toNat
    (Ready ⟨0x15, 1, payload 8 5 256 63⟩ fitted ∧ fits 8 5 256 63 ∧ fitted.device? 8 = none ∧ ¬taken 5 256 63) ∧
    (Ready ⟨0x15, 1, payload 8 4 256 63⟩ fitted ∧ fits 8 4 256 63 ∧ taken 4 256 63) ∧
    (Ready ⟨0x15, 1, payload 1 5 256 63⟩ fitted ∧ fits 1 5 256 63 ∧ fitted.device? 1 ≠ none) ∧
    Ready ⟨0x15, 1, payload 8 5 257 63⟩ fitted ∧ ¬fits 8 5 257 63 ∧ ¬fits 9 5 256 63 ∧ ¬fits 8 5 256 64 ∧ ¬fits 8 5 4 63 :=
  ⟨⟨ready rfl, by decide⟩, ⟨ready rfl, by decide⟩, ⟨ready rfl, by decide⟩, ready rfl, by decide⟩

theorem witness_FabricRetryBegins :
    (Ready ⟨0x16, 1, [8]⟩ fitted ∧ (1 ≤ (8 : Byte).toNat ∧ (8 : Byte).toNat ≤ 8) ∧ fitted.device? 8 = none) ∧
    (Ready ⟨0x16, 1, [1]⟩ fitted ∧ fitted.device? 1 = some ⟨.vid, 1, 4, 5, .online⟩) ∧
    (Ready ⟨0x16, 1, [1]⟩ (withRc (fun r => { r with devices := covering (.readback .retry false) }) fitted)) ∧
    Ready ⟨0x16, 1, [9]⟩ fitted ∧ ¬(1 ≤ (9 : Byte).toNat ∧ (9 : Byte).toNat ≤ 8) :=
  ⟨⟨ready rfl, by decide⟩, ⟨ready rfl, by decide⟩, ready rfl, ready rfl, by decide⟩

theorem witness_ReadbackEnds :
    let s := withRc (fun r => { r with devices := covering (.readback .startUp true) }) fitted
    (s.device? 1 = some ⟨.vid, 1, 4, 5, .readback .startUp true⟩ ∧ ascending s.tt.roots.entries = true ∧
      ([0, 256, 257, 3] : List Nat).length = 4 + 1 - 1 ∧ ([0, 256, 257] : List Nat).length ≠ 4 + 1 - 1) ∧
    (Settled fitted ∧ ∀ v kind, fitted.device? 1 = some v → v.phase ≠ .readback kind true) :=
  ⟨by decide, calm rfl, fun v kind h => by
    obtain rfl : _ = v := Option.some.inj h
    exact fun e => by cases e⟩

/-! Takes and salvos. -/

/-- Reset, then an ONLINE device that covers every destination on VID. -/
def wide : State := withRc
  (fun r => { r with devices := ⟨[(1, ⟨.vid, 1, 256, 5, .online⟩)]⟩, dests := ⟨[(1, onVid 1), (256, onVid 256)]⟩ }) State.reset

/-- `wide` with a number of single takes of destinations that nothing else takes pending. -/
def queued (n : Nat) : State := withRc
  (fun r => { r with queue := (numbers 1 n).map fun d => ⟨none, [⟨d, ⟨true, false, false, false⟩, 7, .system 5, false⟩]⟩ }) wide

theorem witness_TakeIsOffered :
    let payload (d : Nat) (m : Byte) (x : Nat) (f : Byte) := be16 d ++ [m] ++ be16 x ++ [f]
    let mask (s : State) (m : Byte) (d : Nat) := LevelMask.keep ⟨m.getLsbD 0, m.getLsbD 1, m.getLsbD 2, m.getLsbD 3⟩ fun l =>
      s.rc.devices.entries.any fun e => e.2.covers d l
    let fits (d : Nat) (m : Byte) (x : Nat) (f : Byte) := 1 ≤ d ∧ d ≤ 256 ∧ x ≤ 256 ∧ m.toNat < 16 ∧ f.toNat < 2
    let guarded := (wide.setProtect 256 (.panel 32))
    let reading := withRc (fun r => { r with devices := ⟨[(1, ⟨.vid, 1, 256, 5, .readback .retry true⟩)]⟩ }) wide
    (Ready ⟨0x20, 1, payload 256 15 256 0⟩ (linked (owing 64) wide) ∧ 64 ≤ (linked (owing 64) wide).hlc.owed) ∧
    (Ready ⟨0x20, 1, payload 257 15 256 0⟩ wide ∧ ¬fits 257 15 256 0 ∧ ¬fits 256 16 256 0 ∧ ¬fits 256 15 257 0 ∧ ¬fits 256 15 256 2) ∧
    (Ready ⟨0x20, 1, payload 256 14 256 0⟩ wide ∧ fits 256 14 256 0 ∧ mask wide 14 256 = ⟨false, false, false, false⟩) ∧
    (Ready ⟨0x20, 1, payload 256 15 256 0⟩ guarded ∧ mask guarded 15 256 ≠ ⟨false, false, false, false⟩ ∧
      (guarded.dest 256).protect = .panel 32) ∧
    (Ready ⟨0x20, 1, payload 256 15 256 1⟩ reading ∧ (mask reading 15 256).has .vid = true ∧ reading.readbackAt 256 .vid = true) ∧
    (Ready ⟨0x20, 1, payload 256 15 256 1⟩ (queued 64) ∧ 64 ≤ (queued 64).pendingEntries + (queued 64).drawnEntries) ∧
    (Ready ⟨0x20, 1, payload 256 15 256 1⟩ (linked (owing 63) (queued 63)) ∧ fits 256 15 256 1 ∧
      mask (queued 63) 15 256 = ⟨true, false, false, false⟩ ∧ (∀ l, (queued 63).readbackAt 256 l = false) ∧
      (queued 63).pendingEntries + (queued 63).drawnEntries < 64 ∧ (linked (owing 63) (queued 63)).hlc.owed < 64) :=
  ⟨⟨owing_ready rfl, by decide⟩, ⟨ready rfl, by decide⟩, ⟨ready rfl, by decide⟩, ⟨ready rfl, by decide⟩, ⟨ready rfl, by decide⟩,
    ⟨ready rfl, by decide +kernel⟩, owing_ready rfl, by decide, by decide, fun l => by cases l <;> rfl, by decide +kernel, by decide⟩

/-- The cases of the checks 1 to 5 of R22 at destination 256: out of range, no covered level, denied, protected, busy and
passed. -/
theorem witness_TakeIsOffered_checks :
    let e (o : Origin) (m : LevelMask) : Entry := ⟨256, m, 256, o, false⟩
    let all : LevelMask := ⟨true, true, true, true⟩
    let vid : LevelMask := ⟨true, false, false, false⟩
    let guarded := wide.setProtect 256 (.panel 32)
    let reading := withRc (fun r => { r with devices := ⟨[(1, ⟨.vid, 1, 256, 5, .readback .retry true⟩)]⟩ }) wide
    (¬((1 ≤ 257 ∧ 257 ≤ 256) ∧ 256 ≤ 256) ∧ ¬((1 ≤ 256 ∧ 256 ≤ 256) ∧ 257 ≤ 256)) ∧
    (wide.trims (e (.system 1) ⟨false, true, true, true⟩) ⟨false, false, false, false⟩ ∧
      ∀ l, LevelMask.has ⟨false, false, false, false⟩ l = false) ∧
    (wide.trims (e (.panel 1 1) all) vid ∧ (∃ l, vid.has l = true) ∧ wide.domainPasses (.panel 1 1) 256 = false) ∧
    (guarded.trims (e (.system 1) all) vid ∧ guarded.domainPasses (.system 1) 256 = true ∧
      permission (guarded.dest 256).protect (.system 1) false = some .prot) ∧
    (reading.trims (e (.system 1) all) vid ∧ reading.domainPasses (.system 1) 256 = true ∧
      permission (reading.dest 256).protect (.system 1) false = none ∧ ∃ l, vid.has l = true ∧ reading.readbackAt 256 l = true) ∧
    (wide.trims (e (.system 1) all) vid ∧ wide.domainPasses (.system 1) 256 = true ∧
      permission (wide.dest 256).protect (.system 1) false = none ∧ ∀ l, vid.has l = true → wide.readbackAt 256 l = false) ∧
    wide.coveredBy 256 .vid 1 ⟨.vid, 1, 256, 5, .online⟩ ∧ (switching.rc.window ≠ none ∧ wide.rc.window = none) :=
  ⟨by decide, ⟨State.trims_trimmed (s := wide) (e := ⟨256, ⟨false, true, true, true⟩, 256, .system 1, false⟩) (by decide),
    fun l => by cases l <;> rfl⟩, ⟨State.trims_trimmed (s := wide) (e := ⟨256, ⟨true, true, true, true⟩, 256, .panel 1 1, false⟩) (by decide),
    ⟨.vid, rfl⟩, by decide +kernel⟩, ⟨State.trims_trimmed (e := ⟨256, ⟨true, true, true, true⟩, 256, .system 1, false⟩) (by decide), by decide +kernel⟩,
    ⟨State.trims_trimmed (e := ⟨256, ⟨true, true, true, true⟩, 256, .system 1, false⟩) (by decide), by decide +kernel, by decide +kernel, .vid, rfl, rfl⟩,
    ⟨State.trims_trimmed (e := ⟨256, ⟨true, true, true, true⟩, 256, .system 1, false⟩) (by decide), by decide +kernel, by decide +kernel, fun l _ => by cases l <;> rfl⟩,
    rfl, by decide, rfl⟩

theorem witness_SalvoStoreReplaces :
    let items := List.replicate 32 (256, (15 : Byte), 256)
    let fits (n : Byte) (items : List (Nat × Byte × Nat)) := 1 ≤ n.toNat ∧ n.toNat ≤ 16 ∧ items.length ≤ 32 ∧
      ∀ e ∈ items, 1 ≤ e.1 ∧ e.1 ≤ 256 ∧ e.2.1.toNat < 16 ∧ e.2.2 ≤ 256
    let payload (n : Byte) (items : List (Nat × Byte × Nat)) := n :: counted (items.map fun e => be16 e.1 ++ [e.2.1] ++ be16 e.2.2)
    (Ready ⟨0x21, 1, payload 16 items⟩ fitted ∧ items.length < 256 ∧ (∀ e ∈ items, e.1 < 65536 ∧ e.2.2 < 65536) ∧ fits 16 items) ∧
    Ready ⟨0x21, 1, payload 17 items⟩ fitted ∧ ¬fits 17 items ∧ ¬fits 16 (items ++ [(1, 0, 0)]) ∧ ¬fits 16 [(257, 0, 0)] ∧
      ¬fits 16 [(1, 16, 0)] ∧ fits 1 [] :=
  ⟨⟨ready rfl, by decide +kernel⟩, ready rfl, by decide +kernel⟩

/-- `wide` with salvo 16 stored. -/
def stored (entries : List StoredEntry) (s : State) : State := withRc (fun r => { r with salvos := ⟨[(16, entries)]⟩ }) s

theorem witness_SalvoFireIsOffered :
    let one : StoredEntry := ⟨256, ⟨true, false, false, false⟩, 9⟩
    let other : StoredEntry := ⟨255, ⟨true, false, false, false⟩, 9⟩
    let none : StoredEntry := ⟨256, ⟨false, false, false, false⟩, 9⟩
    let fits (n f : Byte) := 1 ≤ n.toNat ∧ n.toNat ≤ 16 ∧ f.toNat < 2
    let passing (s : State) := s.passing 16 (.system 1) false
    let used (s : State) := s.pendingEntries + s.drawnEntries
    (Ready ⟨0x22, 1, [16, 0]⟩ (linked (owing 64) wide) ∧ 64 ≤ (linked (owing 64) wide).hlc.owed) ∧
    (Ready ⟨0x22, 1, [17, 0]⟩ wide ∧ ¬fits 17 0 ∧ ¬fits 16 2) ∧
    (Ready ⟨0x22, 1, [16, 0]⟩ (stored [none] wide) ∧ fits 16 0 ∧ passing (stored [none] wide) = []) ∧
    (Ready ⟨0x22, 1, [16, 0]⟩ (stored [one, other] (queued 63)) ∧ passing (stored [one, other] (queued 63)) ≠ [] ∧
      64 < used (stored [one, other] (queued 63)) + (passing (stored [one, other] (queued 63))).length) ∧
    (Ready ⟨0x22, 1, [16, 0]⟩ (stored [one, other] (queued 62)) ∧ passing (stored [one, other] (queued 62)) ≠ [] ∧
      used (stored [one, other] (queued 62)) + (passing (stored [one, other] (queued 62))).length ≤ 64) :=
  ⟨⟨owing_ready rfl, by decide⟩, ⟨ready rfl, by decide⟩, ⟨ready rfl, by decide⟩, ⟨ready rfl, by decide +kernel⟩,
    ready rfl, by decide +kernel⟩

theorem witness_FiringCountsAddUp :
    (∃ t, fireSalvo 16 (.system 1) false (stored [⟨256, ⟨true, false, false, false⟩, 9⟩] wide) = .accepted t) ∧
    fireSalvo 16 (.system 1) false wide = .ended ⟨0, 0, 0, 0, 0⟩ ∧
    (TakeGroup.mk (some ⟨.system 1, 16, ⟨0, 0, 0, 0, 0⟩⟩) []).firing = some ⟨.system 1, 16, ⟨0, 0, 0, 0, 0⟩⟩ :=
  ⟨⟨_, rfl⟩, rfl, rfl⟩

/-- The cases of supersession: an entry that loses a level, one that is removed, and groups with and without a firing. -/
theorem witness_FiringCountsAddUp_strip :
    let e (d : Nat) (m : LevelMask) : Entry := ⟨d, m, 9, .system 5, false⟩
    let f : Firing := ⟨.system 1, 16, ⟨0, 0, 0, 0, 0⟩⟩
    let g : TakeGroup := ⟨some f, [e 256 ⟨true, true, false, false⟩, e 256 ⟨true, false, false, false⟩, e 1 ⟨true, false, false, false⟩]⟩
    g.firing = some f ∧ (TakeGroup.mk none g.entries).firing = none ∧
    g.entries.map (Entry.without 256 ⟨true, false, false, false⟩) =
      [e 256 ⟨false, true, false, false⟩, e 256 ⟨false, false, false, false⟩, e 1 ⟨true, false, false, false⟩] := by decide

/-! Timing and the switch window. -/

theorem witness_SwitchPointDrains :
    let e (o : Origin) : Entry := ⟨256, ⟨true, false, false, false⟩, 7, o, false⟩
    let guarded := wide.setProtect 256 (.panel 32)
    switching.rc.window ≠ none ∧ wide.rc.queue = [] ∧ ((queued 64).rc.window = none ∧ (queued 64).rc.queue ≠ []) ∧
    wide.domainPasses (e (.panel 1 1)).origin 256 = false ∧
    (guarded.domainPasses (e (.system 1)).origin 256 = true ∧
      permission (guarded.dest 256).protect (e (.system 1)).origin false = some .prot) ∧
    (wide.domainPasses (e (.system 1)).origin 256 = true ∧ permission (wide.dest 256).protect (e (.system 1)).origin false = none) := by
  decide +kernel

theorem witness_FrameReferenceMoves :
    let lock : SwitchTiming := { SwitchTiming.start with reference := .locked, lastPulse := some 7 }
    let hold : SwitchTiming := { SwitchTiming.start with family := .f50, candidate := some 1000 }
    (lock.reference = .locked ∧ lock.lastPulse = some 7) ∧
    (SwitchTiming.start.reference = .lost ∧ SwitchTiming.start.candidate = none) ∧
    (hold.reference = .lost ∧ hold.candidate = some 1000 ∧
      (99 * 20000 ≤ 100 * (20800 - 1000) ∧ 100 * (20800 - 1000) ≤ 101 * 20000) ∧
      (99 * 20000 ≤ 100 * (21200 - 1000) ∧ 100 * (21200 - 1000) ≤ 101 * 20000) ∧
      ¬(99 * 20000 ≤ 100 * (20799 - 1000) ∧ 100 * (20799 - 1000) ≤ 101 * 20000) ∧
      ¬(99 * 20000 ≤ 100 * (21201 - 1000) ∧ 100 * (21201 - 1000) ≤ 101 * 20000)) := by decide

theorem witness_SetFrameFamilyRestarts : Ready ⟨0x23, 1, [4]⟩ fitted ∧ 3 < (4 : Byte).toNat ∧ Ready ⟨0x23, 1, [3]⟩ fitted ∧
    (3 : Byte) = familyByte .f59_94 ∧ FrameFamily.f59_94 = fitted.stu.family ∧ Ready ⟨0x23, 1, [0]⟩ fitted ∧
    (0 : Byte) = familyByte .f25 ∧ FrameFamily.f25 ≠ fitted.stu.family :=
  ⟨ready rfl, by decide, ready rfl, by decide, rfl, ready rfl, by decide, by decide⟩

/-- The open window of `switching`. -/
def aWindow : Window :=
  ⟨1, [⟨none, [⟨⟨1, ⟨true, false, false, false⟩, 9, .system 5, false⟩, none, ⟨true, false, false, false⟩⟩]⟩],
    [⟨1, 1, .vid, 9, .sent⟩]⟩

theorem witness_WindowCloses : switching.rc.window = some aWindow ∧
    (∃ x ∈ aWindow.writes, x.dest = 1 ∧ x.level = .vid ∧ x.state = .sent) ∧
    ∀ x ∈ aWindow.writes, x.state = .sent → x.dest = 1 ∧ x.level = .vid := by decide

/-- The outcomes of R40 of an entry with two levels: refused at the re-check, every level acknowledged, and one level not. -/
theorem witness_WindowCloses_outcomes :
    let e : Entry := ⟨256, ⟨true, true, false, false⟩, 9, .system 5, false⟩
    let x (r : Option Reason) : Drawn := ⟨e, r, e.mask⟩
    let writes (y : WriteState) : List Write := [⟨1, 256, .vid, 9, .acknowledged⟩, ⟨2, 256, .aud1, 9, y⟩]
    (x (some .prot)).refusal = some .prot ∧ (x none).refusal = none ∧
    (∀ l, e.mask.has l = true ↔ (x none).acknowledged (writes .acknowledged) l) ∧
    ∃ l, e.mask.has l = true ∧ ¬(x none).acknowledged (writes .refused) l := by
  refine ⟨rfl, rfl, fun l => ?_, .aud1, rfl, ?_⟩ <;> unfold Drawn.acknowledged
  · cases l <;> decide
  · decide

theorem witness_AnswersKeepOrMissTheWindow :
    let w : Window := { aWindow with writes := [⟨1, 1, .vid, 9, .sent⟩, ⟨1, 2, .vid, 9, .sent⟩] }
    let s := withRc (fun r => { r with window := some w }) switching
    (Settled s ∧ s.rc.window = some w ∧ (∃ x ∈ w.writes, x.dest = 1 ∧ x.level = .vid ∧ x.state = .sent) ∧
      ∃ x ∈ w.writes, x.state = .sent ∧ ¬(x.dest = 1 ∧ x.level = .vid)) ∧
    (∀ v, s.rc.window = some v → v.number ≠ 2 ∨ ∀ x ∈ v.writes, ¬(x.dest = 1 ∧ x.level = .vid ∧ x.state = .sent)) ∧
    (∀ v, s.rc.window = some v → v.number ≠ 1 ∨ ∀ x ∈ v.writes, ¬(x.dest = 256 ∧ x.level = .vid ∧ x.state = .sent)) ∧
    Settled fitted ∧ fitted.rc.window = none :=
  ⟨⟨calm rfl, by decide⟩, fun v h => by obtain rfl := Option.some.inj h; decide, fun v h => by
    obtain rfl := Option.some.inj h; decide, calm rfl, rfl⟩

/-! Tally. -/

theorem witness_SetRootRetraces :
    let fits (b : Byte) (kind : RootKind) := 1 ≤ b.toNat ∧ b.toNat ≤ 16 ∧ match kind with
      | .dest d _ => 1 ≤ d ∧ d ≤ 256
      | .mixerBus m k => 1 ≤ m ∧ m ≤ 2 ∧ 1 ≤ k ∧ k ≤ 8
    let at_ (b : Byte) (tail : List Byte) : Request := ⟨0x30, 1, [b, 1, 0, 0] ++ tail⟩
    ascending fitted.tt.roots.entries = true ∧
    (Ready (at_ 16 ([0] ++ be16 256 ++ [levelByte .aux])) fitted ∧ fits 16 (.dest 256 .aux)) ∧
    (Ready (at_ 1 ([0] ++ be16 1)) fitted ∧ fits 1 (.dest 1 .vid)) ∧
    (Ready (at_ 16 [1, 2, 8]) fitted ∧ fits 16 (.mixerBus (2 : Byte).toNat (8 : Byte).toNat)) ∧
    Ready (at_ 17 [1, 2, 8]) fitted ∧ ¬fits 17 (.mixerBus 2 8) ∧ ¬fits 16 (.mixerBus 3 8) ∧ ¬fits 16 (.mixerBus 2 9) ∧
      ¬fits 16 (.dest 257 .vid) ∧
    (Ready ⟨0x30, 1, [1, 1, 0, 0, 2]⟩ fitted ∧ Ready ⟨0x30, 1, [1, 2, 2, 3, 0, 0, 1]⟩ fitted ∧
      Ready ⟨0x30, 1, [1, 1, 0, 0, 0, 0, 1, 4]⟩ fitted ∧ 3 < (4 : Byte).toNat) :=
  ⟨rfl, ⟨ready rfl, by decide⟩, ⟨ready rfl, by decide⟩, ⟨ready rfl, by decide⟩, ready rfl, by decide, by decide, by decide,
    by decide, ready rfl, ready rfl, ready rfl, by decide⟩

theorem witness_MapsAndTiesRetrace :
    let pairs : List (Nat × Option Nat) := (48, some 256) :: (numbers 1 47).map fun i => (i, none)
    let fits (m : Byte) (pairs : List (Nat × Option Nat)) := 1 ≤ m.toNat ∧ m.toNat ≤ 2 ∧ 1 ≤ pairs.length ∧ pairs.length ≤ 48 ∧
      (pairs.map Prod.fst).Nodup ∧ ∀ e ∈ pairs, 1 ≤ e.1 ∧ e.1 ≤ 48 ∧ ∀ y ∈ e.2, 1 ≤ y ∧ y ≤ 256
    let map_ (m : Byte) (pairs : List (Nat × Option Nat)) : Request :=
      ⟨0x33, 1, m :: counted (pairs.map fun e => byte e.1 :: be16 (e.2.getD 0xFFFF))⟩
    let s := tied [] ((numbers 1 32).map fun x => (x, 256))
    (Ready (map_ 2 pairs) s ∧ fits 2 pairs ∧ pairs.length < 256 ∧ (∀ e ∈ pairs, e.1 < 256 ∧ ∀ y ∈ e.2, y < 0xFFFF)) ∧
    (Ready (map_ 3 pairs) s ∧ ¬fits 3 pairs ∧ ¬fits 2 [] ∧ ¬fits 2 [(49, none)] ∧ ¬fits 2 [(1, some 257)] ∧ ¬fits 2 [(1, none), (1, none)]) ∧
    ascending s.tt.roots.entries = true ∧
    (Ready ⟨0x34, 1, be16 256 ++ be16 256⟩ s ∧ s.tie? 256 = none ∧ 32 ≤ s.tt.ties.entries.length) ∧
    (Ready ⟨0x34, 1, be16 32 ++ be16 1⟩ s ∧ s.tie? 32 ≠ none) ∧ (Ready ⟨0x34, 1, be16 257 ++ be16 1⟩ s ∧ ¬(1 ≤ 257 ∧ 257 ≤ 256)) ∧
    Ready ⟨0x35, 1, be16 256⟩ s ∧ Ready ⟨0x35, 1, be16 257⟩ s :=
  ⟨⟨ready rfl, by decide +kernel⟩, ⟨ready rfl, by decide +kernel⟩, rfl, ⟨ready rfl, by decide +kernel⟩, ⟨ready rfl, by decide +kernel⟩,
    ⟨ready rfl, by decide⟩, ready rfl, ready rfl⟩

theorem witness_SetMixerMarksStale :
    let s := fitted.setMixer 1 ⟨.bridge 32, ⟨[]⟩⟩
    let fits (m b : Byte) := 1 ≤ m.toNat ∧ m.toNat ≤ 2 ∧ b.toNat ≤ 32
    (Ready ⟨0x31, 1, [2, 31]⟩ s ∧ fits 2 31 ∧ (s.mixer 1).source ≠ .bridge 31 ∧ (s.mixer 2).source ≠ .bridge 31) ∧
    (Ready ⟨0x31, 1, [1, 32]⟩ s ∧ fits 1 32 ∧ (s.mixer 1).source = .bridge 32 ∧ (s.mixer 2).source ≠ .bridge 32) ∧
    (Ready ⟨0x31, 1, [2, 32]⟩ s ∧ fits 2 32 ∧ (32 : Byte) ≠ 0 ∧ (s.mixer (3 - 2)).source = .bridge 32) ∧
    Ready ⟨0x31, 1, [3, 0]⟩ s ∧ ¬fits 3 0 ∧ ¬fits 1 33 :=
  ⟨⟨ready rfl, by decide⟩, ⟨ready rfl, by decide⟩, ⟨ready rfl, by decide⟩, ready rfl, by decide⟩

theorem witness_BusesAreSelected :
    let pairs : List (Nat × Nat) := (numbers 1 8).map fun b => (b, 48)
    let fits (m : Byte) (pairs : List (Nat × Nat)) := 1 ≤ m.toNat ∧ m.toNat ≤ 2 ∧ 1 ≤ pairs.length ∧ pairs.length ≤ 8 ∧
      (pairs.map Prod.fst).Nodup ∧ ∀ e ∈ pairs, 1 ≤ e.1 ∧ e.1 ≤ 8 ∧ e.2 ≤ 48
    let at_ (m : Byte) (pairs : List (Nat × Nat)) : Request := ⟨0x32, 1, m :: counted (pairs.map fun e => [byte e.1, byte e.2])⟩
    let s := (panelled .degraded).setMixer 1 ⟨.bridge 1, ⟨[]⟩⟩
    (Ready (at_ 2 pairs) s ∧ fits 2 pairs ∧ (s.mixer 2).source = .system) ∧
    (Ready (at_ 1 pairs) s ∧ fits 1 pairs ∧ (s.mixer 1).source ≠ .system) ∧
    (Ready (at_ 3 pairs) s ∧ ¬fits 3 pairs ∧ ¬fits 2 [] ∧ ¬fits 2 [(9, 0)] ∧ ¬fits 2 [(8, 49)]) ∧
    (Taken ⟨2, .busState 8 48⟩ s s ∧ ((s.mixer 1).source ≠ .bridge 2 ∧ (s.mixer 2).source ≠ .bridge 2)) ∧
    (Taken ⟨1, .busState 8 48⟩ s s ∧ ascending s.tt.roots.entries = true ∧ (s.mixer 1).source = .bridge 1 ∧ s.inService 1 = true) ∧
    Taken ⟨1, .busState 9 48⟩ s s ∧ (panelled .lost).inService 1 = false :=
  ⟨⟨ready rfl, by decide⟩, ⟨ready rfl, by decide⟩, ⟨ready rfl, by decide⟩, ⟨.inl ⟨rfl, rfl⟩, by decide⟩, ⟨.inl ⟨rfl, rfl⟩, by decide⟩,
    .inl ⟨rfl, rfl⟩, by decide⟩

theorem witness_TracesEnd :
    let s := tied [41, 42, 0, 4] [(41, 2), (42, 1)]
    (((s.mixer 2).bus 8).selection = 0 ∧ ((withTt (fun t => { t with inputMap2 := ⟨[(48, 1)]⟩ })
      (s.setMixer 2 ⟨.system, ⟨[(8, ⟨48, false⟩)]⟩⟩)).mapEntry 2 48 = some 1)) ∧
    s.levelAt 5 .vid = .notFitted ∧ s.levelAt 3 .vid = .fitted 0 false ∧ (s.levelAt 4 .vid = .fitted 4 false ∧ s.tie? 4 = none) ∧
    (s.levelAt 1 .vid = .fitted 41 false ∧ s.tie? 41 = some 2) ∧ (2 = 2 ∨ 2 ∈ ([1] : List Nat)) ∧ ¬(2 = 1 ∨ 2 ∈ ([] : List Nat)) ∧
    s.trace (.dest 4 .vid) = .terminal 4 := by decide

/-- The roots of R55: disabled, not set, and enabled with each of the three ends of a trace. -/
theorem witness_TracesEnd_roots :
    let s := tied [41, 42, 0, 4] [(41, 2), (42, 1)]
    let one (v : Root) := withTt (fun t => { t with roots := ⟨[(16, v)]⟩ }) s
    let on (d : Nat) : Root := ⟨true, some ⟨.b, .amber, .dest d .vid⟩, .noTerminal, none⟩
    ((one ⟨false, some ⟨.a, .red, .dest 4 .vid⟩, .fault, some ⟨.loop, 1⟩⟩).root 16).enabled = false ∧
    ((one ⟨true, none, .noTerminal, none⟩).root 16).config = none ∧
    (∀ d, ((one (on d)).root 16).enabled = true ∧ ((one (on d)).root 16).config = some ⟨.b, .amber, .dest d .vid⟩) ∧
    (one (on 4)).trace (.dest 4 .vid) = .terminal 4 ∧ (one (on 3)).trace (.dest 3 .vid) = .noTerminal ∧
    (one (on 1)).trace (.dest 1 .vid) = .fault .loop 2 := by
  refine ⟨by decide, by decide, fun d => ⟨rfl, rfl⟩, by decide, by decide, by decide⟩

theorem witness_CamerasAndOutputsAreSet :
    let camera (b : Byte) (v : Camera) : Request :=
      ⟨0x40, 1, b :: ([domainByte v.domain] ++ be16 v.source ++ [optionalByte v.port, optionalByte v.output])⟩
    let fits (b : Byte) (x : Camera) := 1 ≤ b.toNat ∧ b.toNat ≤ 24 ∧ 1 ≤ x.source ∧ x.source ≤ 256 ∧ (∀ q ∈ x.port, q ≤ 64) ∧
      ∀ n ∈ x.output, n ≤ 48
    let output (b : Byte) (source : Nat) (mask : Byte) : Request :=
      ⟨0x41, 1, b :: ([0] ++ be16 source ++ [1, mask, yesNo true])⟩
    (Ready (camera 24 ⟨.b, 256, some 64, some 48⟩) (lit .ok) ∧ fits 24 ⟨.b, 256, some 64, some 48⟩) ∧ Ready ⟨0x40, 1, [24]⟩ (lit .ok) ∧
    (Ready (camera 25 ⟨.b, 256, none, none⟩) (lit .ok) ∧ ¬fits 25 ⟨.b, 256, none, none⟩ ∧ ¬fits 24 ⟨.b, 0, none, none⟩ ∧
      ¬fits 24 ⟨.b, 256, some 65, none⟩ ∧ ¬fits 24 ⟨.b, 256, none, some 49⟩) ∧
    (Ready (output 48 256 7) (lit .ok) ∧ (1 ≤ (48 : Byte).toNat ∧ (48 : Byte).toNat ≤ 48) ∧ 256 ≤ 256 ∧ (7 : Byte) ≠ 0 ∧ (7 : Byte).toNat < 8) ∧
    (Ready (output 1 0 1) (lit .openLoad) ∧ ((lit .openLoad).output 1).config.map (fun x => x.monitor) = some true) ∧
    Ready ⟨0x41, 1, [48]⟩ (lit .ok) ∧ Ready (output 49 256 7) (lit .ok) ∧ Ready (output 48 257 7) (lit .ok) ∧ Ready (output 48 256 0) (lit .ok) ∧
    Ready ⟨0x40, 1, [1, 2, 0, 1, 0, 0]⟩ (lit .ok) ∧ Ready ⟨0x41, 1, [1, 3, 0, 1, 2, 8, 2]⟩ (lit .ok) :=
  ⟨⟨ready rfl, by decide⟩, ready rfl, ⟨ready rfl, by decide⟩, ⟨ready rfl, by decide⟩, ⟨ready rfl, by decide⟩, ready rfl, ready rfl,
    ready rfl, ready rfl, ready rfl, ready rfl⟩

theorem witness_LampFaultsAreMonitored :
    (Ready ⟨0x42, 1, [48]⟩ (lit .short) ∧ Ready ⟨0x42, 1, [49]⟩ (lit .short)) ∧ Settled (lit .ok) ∧
    (((lit .ok).output 1).config = some ⟨.forceOn, 0, .a, ⟨true, false, false⟩, true⟩ ∧ ((lit .ok).output 1).drive = .on ∧
      ((lit .ok).output 1).fault = .ok ∧ ((lit .openLoad).output 1).fault = .openLoad ∧ ((lit .ok).output 2).config = none) :=
  ⟨⟨ready rfl, ready rfl⟩, calm rfl, by decide⟩

/-! Ports, groups, talks and IFBs. -/

theorem witness_PortsAndGroupsAreSet :
    let low : Port := ⟨.normal, -24, -120, -60, some (-40), some 24⟩
    let port (b : Byte) (v : Port) : Request := ⟨0x50, 1, [b, roleByte v.role, stepsByte v.trim, stepsByte v.volume, stepsByte v.dim,
      ceilingByte v.ceiling, ceilingByte v.talkerCeiling]⟩
    let fits (b : Byte) (v : Port) := 1 ≤ b.toNat ∧ b.toNat ≤ 64 ∧ (-24 ≤ v.trim ∧ v.trim ≤ 24) ∧ (-120 ≤ v.volume ∧ v.volume ≤ 0) ∧
      (-60 ≤ v.dim ∧ v.dim ≤ 0) ∧ ∀ c ∈ v.ceiling.toList ++ v.talkerCeiling.toList, -40 ≤ c ∧ c ≤ 24
    let group (b : Byte) (ports : List Byte) : Request := ⟨0x51, 1, b :: byte ports.length :: ports⟩
    let s := withTc (fun t => { t with talks := [{ slotTalk 1 1 with target := .group 1 }], groups := ⟨[(1, [4])]⟩ }) (keyed .pageToggle)
    (Ready (port 64 low) s ∧ fits 64 low ∧ low.role ≠ (s.port 64).role ∧
      (∀ x ∈ [low.trim, low.volume, low.dim] ++ low.ceiling.toList ++ low.talkerCeiling.toList, -127 ≤ x ∧ x ≤ 127) ∧
      ¬((∃ t ∈ s.tc.talks, t.talker = 64 ∨ t.target = .port 64) ∨ ∃ e ∈ s.tc.groups.entries, 64 ∈ e.2)) ∧
    (Ready (port 2 { low with role := .unused }) s ∧ Role.unused ≠ (s.port 2).role ∧ ∃ t ∈ s.tc.talks, t.talker = 2) ∧
    (Ready (port 65 low) s ∧ ¬fits 65 low ∧ ¬fits 64 { low with trim := 25 } ∧ ¬fits 64 { low with ceiling := some (-41) }) ∧
    (Ready (group 16 [4, 2]) s ∧ (1 ≤ (16 : Byte).toNat ∧ (16 : Byte).toNat ≤ 16) ∧ (∀ q ∈ ([4, 2] : List Byte), (s.port q.toNat).role = .normal) ∧
      ¬∃ t ∈ s.tc.talks, t.target = .group 16) ∧
    (Ready (group 16 [4, 64]) s ∧ ¬∀ q ∈ ([4, 64] : List Byte), (s.port q.toNat).role = .normal) ∧
    (Ready (group 1 [4, 2]) s ∧ ∃ t ∈ s.tc.talks, t.target = .group 1) ∧
    Ready (group 17 []) s ∧ Ready (group 1 [65]) s ∧ Ready (group 1 [4, 4]) s ∧ ¬([4, 4] : List Byte).Nodup :=
  ⟨⟨ready rfl, by decide⟩, ⟨ready rfl, by decide⟩, ⟨ready rfl, by decide⟩, ⟨ready rfl, by decide⟩, ⟨ready rfl, by decide⟩,
    ⟨ready rfl, by decide⟩, ready rfl, ready rfl, ready rfl, by decide⟩

theorem witness_CoefficientArithmetic :
    let s := standard (some (-12)) (some 4)
    let p : Path := ⟨.talk, 5, 9, [1], 12, 0, .admitted 1 .off⟩
    ((⟨5, 6, none, false, none, 0, []⟩ : Ifb).current = none ∧ (⟨5, 6, some (-60), false, some 1, 7, []⟩ : Ifb).duck = some (-60) ∧
      (⟨5, 6, none, false, some 1, 7, []⟩ : Ifb).duck = none) ∧
    (s.withCoefficient [p] p).admission = .admitted 1 (.steps (-28)) := by decide

theorem witness_SystemTalksBeginAndEnd :
    let s := withTc (fun t => { t with talks := [slotTalk 8 1], counter := 4294967294 }) (keyed .pageToggle)
    let fits (b q : Byte) (x : Int) (prio : Byte) :=
      (1 ≤ b.toNat ∧ b.toNat ≤ 8) ∧ (1 ≤ q.toNat ∧ q.toNat ≤ 64) ∧ (-80 ≤ x ∧ x ≤ 12) ∧ prio.toNat ≤ 7
    let on (b q : Byte) (target : Target) (x : Int) (prio : Byte) : Request :=
      ⟨0x52, 1, [b, q] ++ targetBytes target none ++ [stepsByte x, prio]⟩
    let crowded := withTc (fun t => { t with talks := [{ slotTalk 1 1 with reservation := 512 }] }) (keyed .pageToggle)
    (Ready ⟨0x53, 1, [8]⟩ s ∧ Ready ⟨0x53, 1, [9]⟩ s ∧ ¬(1 ≤ (9 : Byte).toNat ∧ (9 : Byte).toNat ≤ 8)) ∧ s.tc.counter < 4294967295 ∧
    (Ready (on 7 2 (.port 4) (-80) 7) s ∧ fits 7 2 (-80) 7 ∧ (s.port 2).role = .normal ∧ s.targetValid (.port 4) = true ∧
      s.slotTalk? 7 = none ∧ s.tc.talks.length < 96 ∧ totalReservations s.tc.talks + 1 ≤ 512) ∧
    (Ready (on 8 2 (.port 4) 12 0) s ∧ fits 8 2 12 0 ∧ s.slotTalk? 8 ≠ none) ∧
    (Ready (on 8 2 (.port 4) 12 0) crowded ∧ crowded.slotTalk? 8 = none ∧ ¬totalReservations crowded.tc.talks + 1 ≤ 512) ∧
    (Ready (on 9 2 (.port 4) 12 0) s ∧ ¬fits 9 2 12 0 ∧ ¬fits 8 65 12 0 ∧ ¬fits 8 2 13 0 ∧ ¬fits 8 2 (-81) 0 ∧ ¬fits 8 2 12 8) ∧
    (Ready (on 8 64 (.port 4) 12 0) s ∧ (s.port 64).role ≠ .normal) ∧
    (Ready (on 8 2 (.port 64) 12 0) s ∧ s.targetValid (.port 64) = false) :=
  ⟨⟨ready rfl, ready rfl, by decide⟩, by decide, ⟨ready rfl, by decide⟩, ⟨ready rfl, by decide⟩, ⟨ready rfl, by decide⟩,
    ⟨ready rfl, by decide⟩, ⟨ready rfl, by decide⟩, ready rfl, by decide⟩

/-- A new talk over the counter's last number and the one before it, and a slot whose talk holds all of the reservations, which
are free once it has ended. -/
theorem witness_SystemTalksBeginAndEnd_counter :
    let s (n : Nat) := withTc (fun t => { t with talks := [slotTalk 8 1, slotTalk 7 2], counter := n }) (keyed .pageToggle)
    let full := withTc (fun t => { t with talks := [{ slotTalk 8 1 with reservation := 512 }] }) (keyed .pageToggle)
    let on (b : Byte) : Request := ⟨0x52, 1, [b, 2] ++ targetBytes (.port 4) none ++ [stepsByte 0, 7]⟩
    (Ready (on 6) (s 4294967294) ∧ (s 4294967294).tc.counter < 4294967295) ∧
    (Ready (on 6) (s 4294967295) ∧ 4294967295 ≤ (s 4294967295).tc.counter ∧
      ((after (.talkOn 1 (on 6).payload) (s 4294967295)).tc.talks.map fun t => t.creation) = [1, 2, 3] ∧
      (after (.talkOn 1 (on 6).payload) (s 4294967295)).tc.counter = 4) ∧
    (Ready (on 8) full ∧ (full.slotTalk? 8).map (fun t => t.id) = some 1 ∧ 512 < totalReservations full.tc.talks + 1 ∧
      (endSlot 8 full).tc.talks = [] ∧ ((after (.talkOn 1 (on 8).payload) full).tc.talks.map fun t => t.origin) = [.system 8]) ∧
    (∃ x ∈ arbitrated.tc.talks, x.id ∈ [1]) ∧ (∀ x ∈ arbitrated.tc.talks, x.id ∉ [3]) ∧
    (withTc (fun t => { t with ifbs := ⟨[(1, ⟨5, 6, none, false, none, 0, []⟩)]⟩ }) arbitrated).ifb? 1 = some ⟨5, 6, none, false, none, 0, []⟩ :=
  ⟨⟨ready rfl, by decide⟩, ⟨ready rfl, by decide, by decide, by decide⟩, ⟨ready rfl, by decide⟩, by decide, by decide, rfl⟩

theorem witness_IfbsAreConfigured :
    let s := arbitrated
    let set_ (b o p : Byte) (duck : Option Int) (hold : Bool) : Request := ⟨0x60, 1, [b, o, p, ceilingByte duck, yesNo hold]⟩
    let fits (b o p : Byte) (duck : Option Int) := (1 ≤ b.toNat ∧ b.toNat ≤ 16) ∧ (1 ≤ o.toNat ∧ o.toNat ≤ 64) ∧
      (1 ≤ p.toNat ∧ p.toNat ≤ 64) ∧ ∀ d ∈ duck, -60 ≤ d ∧ d ≤ 0
    let ports (s : State) (b o p : Byte) := (s.port o.toNat).role = .ifbOutput ∧ (s.port p.toNat).role = .programInput ∧
      ∀ e ∈ s.tc.ifbs.entries, e.1 ≠ b.toNat → e.2.output ≠ o.toNat
    let free := withTc (fun t => { t with ifbs := ⟨[]⟩ }) s
    (Ready ⟨0x60, 1, [16]⟩ s ∧ ¬∃ t ∈ s.tc.talks, t.target = .ifb 16) ∧ (Ready ⟨0x60, 1, [1]⟩ s ∧ ∃ t ∈ s.tc.talks, t.target = .ifb 1) ∧
    (Ready ⟨0x60, 1, [17]⟩ s ∧ ¬(1 ≤ (17 : Byte).toNat ∧ (17 : Byte).toNat ≤ 16)) ∧
    (Ready (set_ 1 5 6 (some (-60)) true) s ∧ fits 1 5 6 (some (-60)) ∧ ports s 1 5 6 ∧
      s.ifb? 1 = some ⟨5, 6, some (-20), false, some 1, 3, [2]⟩) ∧
    (Ready (set_ 16 5 6 none true) free ∧ fits 16 5 6 none ∧ ports free 16 5 6 ∧ free.ifb? 16 = none) ∧
    (Ready (set_ 16 5 6 none true) s ∧ ¬ports s 16 5 6 ∧ ¬ports s 1 6 5) ∧
    (Ready (set_ 17 5 6 none true) s ∧ ¬fits 17 5 6 none ∧ ¬fits 1 65 6 none ∧ ¬fits 1 5 0 none ∧ ¬fits 1 5 6 (some 1)) ∧
    s.ifb? 1 ≠ none ∧ (Ready (set_ 1 5 6 (some (-20)) false) s ∧ fits 1 5 6 (some (-20)) ∧
      s.ifb? 1 = some ⟨5, 6, some (-20), false, some 1, 3, [2]⟩) :=
  ⟨⟨ready rfl, by decide⟩, ⟨ready rfl, by decide⟩, ⟨ready rfl, by decide⟩, ⟨ready rfl, by decide⟩, ⟨ready rfl, by decide⟩,
    ⟨ready rfl, by decide⟩, ⟨ready rfl, by decide⟩, by decide, ready rfl, by decide⟩

/-- An IFB that moves to another port while talks address it, and one that stops to hold while a higher talk is pending. -/
theorem witness_IfbsAreConfigured_moved :
    let s := withTc (fun t => { t with ports := t.ports.put 7 { Port.start with role := .programInput } }) arbitrated
    let held := withTc (fun t => { t with ifbs := ⟨[(1, ⟨5, 6, none, true, some 2, 2, [1]⟩)]⟩ }) arbitrated
    (Ready ⟨0x60, 1, [1, 5, 7, 0, 0]⟩ s ∧ (s.port 7).role = .programInput ∧ ∃ i, s.ifb? 1 = some i ∧ i.program ≠ 7) ∧
    (Ready ⟨0x60, 1, [1, 5, 6, 0, 0]⟩ held ∧ held.ifb? 1 = some ⟨5, 6, none, true, some 2, 2, [1]⟩ ∧ 2 < held.priorityOf 1) ∧
    (∀ i : Ifb, i = ⟨5, 6, none, false, some 1, 6, [2]⟩ → i.current = some 1 ∧ i.level < 7 ∧ ¬i.level < 6 ∧ 1 ∉ ([2] : List Nat)) :=
  ⟨⟨ready rfl, by decide, _, rfl, by decide⟩, ⟨ready rfl, by decide⟩, fun i h => by subst h; decide⟩

theorem witness_TimersAndKnobsMove :
    let s := (keyed .pageToggle).setKey 1 3 ⟨.held, some .auto, some 1, true⟩
    ((s.key 1 3).state = .held ∧ (s.key 1 3).timer = true) ∧ ¬((s.key 32 64).state = .held ∧ (s.key 32 64).timer = true) ∧
    (Taken ⟨1, .knob (-64)⟩ s s ∧ s.panel? 1 = some (aPanel .online) ∧ (aPanel .online).ownPort = some 2 ∧ s.inService 1 = true ∧
      (s.port 2).role = .normal) ∧
    Taken ⟨2, .knob 63⟩ s s ∧ s.inService 2 = false :=
  ⟨by decide, by decide, ⟨.inl ⟨rfl, rfl⟩, by decide⟩, .inl ⟨rfl, rfl⟩, by decide⟩

/-! Panels. -/

theorem witness_PanelsAreDeclaredAndRemoved :
    let fits (b l q : Byte) := (1 ≤ b.toNat ∧ b.toNat ≤ 32) ∧ l.toNat ≤ 3 ∧ q.toNat ≤ 64
    let set_ (b : Byte) (kind : PanelKind) (l q : Byte) : Request := ⟨0x80, 1, [b, panelKindByte kind, l, domainByte .b, q]⟩
    (Ready (set_ 32 .control 3 64) (panelled .online) ∧ fits 32 3 64 ∧ (panelled .online).panel? 32 = none) ∧
    (Ready (set_ 33 .control 3 64) (panelled .online) ∧ ¬fits 33 3 64 ∧ ¬fits 32 4 64 ∧ ¬fits 32 3 65) ∧
    (Ready (set_ 1 .mixerBridge 3 64) (panelled .joining) ∧ (panelled .joining).panel? 1 = some (aPanel .joining) ∧
      PanelKind.mixerBridge ≠ (aPanel .joining).kind ∧ (aPanel .joining).state ≠ .absent ∧ (aPanel .joining).state ≠ .lost) ∧
    (Ready (set_ 1 .mixerBridge 0 0) (panelled .lost) ∧ (panelled .lost).panel? 1 = some (aPanel .lost)) ∧
    (Ready ⟨0x80, 1, [32]⟩ (panelled .online) ∧ Ready ⟨0x80, 1, [33]⟩ (panelled .online)) ∧
    (Ready ⟨0x80, 1, [1]⟩ (panelled .online) ∧ ((panelled .online).tc.talks.map fun x => x.id).Nodup ∧
      (panelled .online).panel? 1 = some (aPanel .online)) ∧ Ready ⟨0x80, 1, [1, 2, 0, 2, 0]⟩ (panelled .online) :=
  ⟨⟨ready rfl, by decide⟩, ⟨ready rfl, by decide⟩, ⟨ready rfl, by decide⟩, ⟨ready rfl, by decide⟩, ⟨ready rfl, ready rfl⟩,
    ⟨ready rfl, by decide⟩, ready rfl⟩

theorem witness_ErrorCountsAreTransferred :
    let manual := withPbc (fun b => { b with mode := .manual }) (panelled .online)
    let failing := withPbc (fun b => { b with mode := .manual, panels := ⟨[(1, { aPanel .online with errors := 8 })]⟩ }) State.reset
    let judged (s : State) (v : Panel) : PanelState :=
      if v.state = .online ∧ s.pbc.threshold ≤ v.errors then .degraded
      else if v.state = .degraded ∧ v.errors < s.pbc.threshold then .online else v.state
    (Ready ⟨0x81, 1, [countModeByte .manual, 255]⟩ manual ∧ (255 : Byte) ≠ 0) ∧ Ready ⟨0x81, 1, [countModeByte .auto, 0]⟩ manual ∧
    (Ready ⟨0x82, 1, []⟩ (panelled .online) ∧ (panelled .online).pbc.mode = .auto) ∧ (Ready ⟨0x82, 1, []⟩ manual ∧ manual.pbc.mode = .manual) ∧
    (∃ e ∈ failing.pbc.panels.entries, judged failing e.2 ≠ e.2.state) ∧ (∀ e ∈ manual.pbc.panels.entries, judged manual e.2 = e.2.state) ∧
    Ready ⟨0x81, 1, [2, 1]⟩ manual :=
  ⟨⟨ready rfl, by decide⟩, ready rfl, ⟨ready rfl, rfl⟩, ⟨ready rfl, rfl⟩, by decide, by decide, ready rfl⟩

theorem witness_PanelsAnswer :
    let es : List PanelAction := [.press 1, .release 8, .knob (-64), .knob 63, .busState 255 255, .press 8, .press 8, .release 1]
    let poll : Transaction := { aPoll with entries := [(64, .off)] }
    (waiting .online poll).pbc.transaction = some poll ∧ (waiting .online poll).panel? 1 = some (aPanel .online) ∧
    (poll.entries.map Prod.fst).Nodup ∧ es.length ≤ 8 ∧ (∀ a ∈ es, a.reportable 8) ∧
    ((waiting .joining poll).panel? 1 = some (aPanel .joining)) ∧
    ((waiting .absent aProbe).pbc.transaction = some aProbe ∧ (waiting .absent aProbe).panel? 1 = some (aPanel .absent) ∧
      (1 ≤ (64 : Byte).toNat ∧ (64 : Byte).toNat ≤ 64) ∧ ((0 : Byte).getLsbD 0 = true ↔ aProbe.kind = .mixerBridge)) :=
  ⟨rfl, rfl, by decide, by decide, by simp [PanelAction.reportable], rfl, rfl, rfl, by decide⟩

theorem witness_PanelErrorsAreCounted :
    (BadAnswer aPoll (some 8) .timeout .transactionTimeout ∧ BadAnswer aProbe none .crc (.panelFrameReceived [0x5A, 1, 0x82, 0]) ∧
      BadAnswer aPoll (some 8) .framing (.panelFrameReceived [0x5A, 0xFF, 0xFF])) ∧
    (BadAnswer aPoll (some 8) .framing (.panelFrameReceived (panelFrame 1 0x82 [0, 1, 0])) ∧
      BadAnswer aPoll (some 8) .framing (.panelFrameReceived (panelFrame 1 0x81 [0])) ∧
      BadAnswer aPoll (some 8) .framing (.panelFrameReceived (panelFrame 1 0x81 (0 :: 9 :: List.replicate 27 0))) ∧
      BadAnswer aPoll (some 8) .framing (.panelFrameReceived (panelFrame 1 0x81 (replyContent 0 [(5, 0, 0)]))) ∧
      BadAnswer aPoll (some 8) .framing (.panelFrameReceived (panelFrame 1 0x81 (replyContent 0 [(3, 64, 0), (1, 9, 0)]))) ∧
      BadAnswer aPoll (some 8) .wrongAddress (.panelFrameReceived (panelFrame 2 0x81 (replyContent 0 [(2, 8, 0), (4, 255, 255)])))) ∧
    (BadAnswer aProbe none .framing (.panelFrameReceived (panelFrame 1 0x82 [0, 1])) ∧
      BadAnswer aProbe none .framing (.panelFrameReceived (panelFrame 1 0x82 [0, 65, 0])) ∧
      BadAnswer aProbe none .wrongAddress (.panelFrameReceived (panelFrame 2 0x82 [0, 64, 0]))) ∧
    ((waiting .online aPoll).panel? 1 = some (aPanel .online) ∧ (aPanel .online).keyCount = some 8 ∧
      (aPanel .online).missed + 1 < 3 ∧ 3 ≤ { aPanel .online with missed := 2 }.missed + 1) ∧
    ¬((1 : Byte).getLsbD 0 = true ↔ aProbe.kind = .mixerBridge) ∧
    ((waiting .online { aPoll with discard := true }).pbc.transaction = some { aPoll with discard := true } ∧
      State.reset.pbc.transaction = none) := by
  refine ⟨⟨.timedOut rfl, .crc _ (by decide +kernel), .truncated _ (by decide +kernel) (by decide)⟩,
    ⟨.kind _ _ _ (by decide), .replyShort _ _ rfl (by decide), .replyLength _ _ _ _ rfl (.inl (by decide)),
      .replyEvent _ _ _ rfl (by decide) ⟨(5, 0, 0), by simp, .inl (by decide)⟩,
      .replyEvent _ _ _ rfl (by decide) ⟨(1, 9, 0), by simp, .inr ⟨.inl rfl, by simp⟩⟩,
      .replyAddress _ _ _ rfl (by decide) (by simp [MalformedEvent]) (by decide)⟩,
    ⟨.identLength _ _ rfl (by decide), .identKeys _ _ _ _ rfl (by decide), .identAddress _ _ _ _ rfl (by decide) (by decide)⟩,
    ?_, by decide, rfl, rfl⟩
  decide

/-- A bus with panel 32 DEGRADED, panel 1 LOST and every other address undeclared, at the end of an EVEN cycle's polls. -/
def aBus (polled : Nat) (odd : Bool) : PanelBus := { PanelBus.start with
  panels := ⟨[(1, aPanel .lost), (32, aPanel .degraded)]⟩, lastPolled := polled, odd := odd, pointer := 32 }

theorem witness_PollCyclesTurn : State.reset.pbc.transaction = none ∧ (waiting .online aPoll).pbc.transaction = some aPoll ∧
    (1 ≤ (aBus 0 false).pointer ∧ (aBus 0 false).newCycle = false) ∧ ({ aBus 0 false with newCycle := true }).newCycle = true ∧
    (aBus 31 false).qualifies 32 ∧ ¬(aBus 32 false).qualifies 32 ∧ ¬(aBus 31 true).qualifies 32 ∧ (aBus 32 false).probed 1 ∧
    ¬PanelBus.start.probed 1 := by
  refine ⟨rfl, rfl, by decide, rfl, ⟨by decide, by decide, _, rfl, .inr (.inr (by decide))⟩, fun h => absurd h.2.1 (by decide), ?_,
    ⟨by decide, _, rfl, by decide⟩, ?_⟩
  · rintro ⟨-, -, v, h, e⟩
    obtain rfl := Option.some.inj h
    revert e
    decide
  · rintro ⟨-, v, h, -⟩
    cases h

/-! Functions and key events. -/

/-- The captured press of key 3 of panel 1. -/
theorem keyed_captures (a : FunctionAction) : Captures 1 3 (aPanel .online) ⟨a, 1, .any⟩ (keyed a) where
  idle := rfl
  panel := rfl
  service := by decide
  bound := ⟨by simp [keyed, withFd, State.binding, State.bindings, Table.get, Table.find?, lookup, aPanel], rfl⟩
  level := Nat.le_refl 1
  domain := .inl rfl

theorem witness_PressesAreChecked :
    let s := keyed .pageToggle
    let denied (f : KeyFunction) := withFd (fun g => { g with functions := ⟨[(7, f)]⟩ }) s
    (Taken ⟨2, .press 64⟩ s s ∧ (s.key 2 64).state = .idle ∧ s.panel? 2 = none) ∧
    ((panelled .joining).panel? 1 = some (aPanel .joining)) ∧
    (Taken ⟨1, .press 4⟩ s s ∧ s.panel? 1 = some (aPanel .online) ∧ s.binding 1 false 4 = 0) ∧
    (s.binding 1 false 3 = 7 ∧ (withFd (fun g => { g with functions := ⟨[]⟩ }) s).function? 7 = none) ∧
    ((denied ⟨.pageToggle, 0, .any⟩).function? 7 = some ⟨.pageToggle, 0, .any⟩ ∧ 0 < (aPanel .online).access) ∧
    ((denied ⟨.pageToggle, 3, .b⟩).function? 7 = some ⟨.pageToggle, 3, .b⟩ ∧ (aPanel .online).domain = .a) ∧
    (withPbc (fun b => { b with events := [⟨1, .knob 1⟩, ⟨1, .press 3⟩] }) s).pbc.events = ⟨1, .knob 1⟩ :: [⟨1, .press 3⟩] ∧
    (⟨1, .knob 1⟩ : KeyEvent) ≠ ⟨1, .press 3⟩ :=
  ⟨⟨.inl ⟨rfl, rfl⟩, by decide⟩, rfl, ⟨.inl ⟨rfl, rfl⟩, by decide⟩, by decide, by decide, by decide, rfl, by decide⟩

theorem witness_CapturedFunctionsAct :
    (∀ a, Taken ⟨1, .press 3⟩ (keyed a) (keyed a) ∧ Captures 1 3 (aPanel .online) ⟨a, 1, .any⟩ (keyed a)) ∧
    (∃ s1, Taken ⟨1, .press 3⟩ (withPbc (fun b => { b with events := [⟨1, .press 3⟩, ⟨1, .release 3⟩] }) (keyed .pageToggle)) s1) ∧
    (let guarded (x : Protect) := (keyed (.protectToggle (some 256))).setProtect 256 x
     ((guarded .none).dest 256).domain = .shared ∧ ((guarded .none).dest 256).protect = .none ∧
      ((guarded (.panel 1)).dest 256).protect = .panel 1 ∧ ((guarded (.panel 2)).dest 256).protect = .panel 2 ∧
      ((guarded .systemLock).dest 256).protect = .systemLock) ∧
    ((keyed (.takePreset ⟨true, false, false, false⟩)).setContext 1 ⟨some 256, some 256⟩).context 1 = ⟨some 256, some 256⟩ ∧
    ((keyed (.takePreset ⟨true, false, false, false⟩)).context 1).dest = none ∧
    (keyed (.salvoFire 16)).passing 16 (.panel 1 3) false = [] ∧ (keyed (.call 24)).tou.holders.length < 64 ∧
    64 ≤ (withTou (fun t => { t with holders := List.replicate 64 ⟨1, 8, 24⟩ }) (keyed (.call 24))).tou.holders.length :=
  ⟨fun a => ⟨.inl ⟨rfl, rfl⟩, keyed_captures a⟩, ⟨_, .inr ⟨_, rfl, rfl⟩⟩, by decide, by decide, by decide, by decide, by decide,
    by decide⟩

/-- A panel firing of salvo 16 over a device and a queue: with room, and with one place too few. -/
theorem witness_CapturedFunctionsAct_firing :
    let s (n : Nat) := stored [⟨256, ⟨true, false, false, false⟩, 9⟩]
      (withRc (fun _ => (queued n).rc) (keyed (.salvoFire 16)))
    let unlocked (n : Nat) := (s n).setProtect 256 .none
    (unlocked 63).passing 16 (.panel 1 3) false ≠ [] ∧
    (unlocked 63).pendingEntries + (unlocked 63).drawnEntries + ((unlocked 63).passing 16 (.panel 1 3) false).length ≤ 64 ∧
    64 < (unlocked 64).pendingEntries + (unlocked 64).drawnEntries + ((unlocked 64).passing 16 (.panel 1 3) false).length := by
  decide +kernel

theorem witness_TalkKeysArePressed :
    let a : FunctionAction := .talk (.port 4) none .auto (-80) 7
    let s := keyed a
    let deaf := withPbc (fun b => { b with panels := ⟨[(1, { aPanel .online with ownPort := none })]⟩ }) s
    let crowded := withTc (fun t => { t with talks := [{ slotTalk 1 1 with reservation := 512 }] }) s
    (Taken ⟨1, .press 3⟩ s s ∧ Captures 1 3 (aPanel .online) ⟨a, 1, .any⟩ s ∧ s.tc.counter < 4294967295 ∧
      (aPanel .online).ownPort = some 2 ∧ (s.port 2).role = .normal ∧ s.targetValid (.port 4) = true ∧ s.tc.talks.length < 96 ∧
      totalReservations s.tc.talks + 1 ≤ 512) ∧
    (Taken ⟨1, .press 3⟩ deaf deaf ∧ (deaf.panel? 1).map (fun v => v.ownPort) = some none) ∧
    (withTc (fun t => { t with ports := ⟨[]⟩ }) s).port 2 = Port.start ∧ s.targetValid (.port 64) = false ∧
    ¬totalReservations crowded.tc.talks + 1 ≤ 512 ∧
    (let held (k : KeyTalk) := s.setKey 1 3 k
     ((held ⟨.latched, some .latching, some 1, false⟩).key 1 3).state = .latched ∧
      ((held ⟨.held, some .momentary, some 1, false⟩).key 1 3).state ≠ .idle ∧
      Taken ⟨1, .press 3⟩ (held ⟨.latched, some .latching, some 1, false⟩) (held ⟨.latched, some .latching, some 1, false⟩)) :=
  ⟨⟨.inl ⟨rfl, rfl⟩, keyed_captures _, by decide⟩, ⟨.inl ⟨rfl, rfl⟩, by decide⟩, rfl, by decide, by decide, by decide, by decide,
    .inl ⟨rfl, rfl⟩⟩

theorem witness_ReleasesFollowCaptures :
    let s (k : KeyTalk) := (keyed .pageToggle).setKey 1 3 k
    let h (v : Option Held) := (keyed .pageToggle).setHeld 1 3 v
    (∀ k, Taken ⟨1, .release 3⟩ (s k) (s k)) ∧ (∀ v, Taken ⟨1, .release 3⟩ (h v) (h v)) ∧
    (s ⟨.held, some .momentary, some 1, false⟩).key 1 3 = ⟨.held, some .momentary, some 1, false⟩ ∧
    (s ⟨.heldLong, some .auto, some 1, false⟩).key 1 3 = ⟨.heldLong, some .auto, some 1, false⟩ ∧
    (s ⟨.heldCancel, some .latching, none, false⟩).key 1 3 = ⟨.heldCancel, some .latching, none, false⟩ ∧
    (s ⟨.held, some .auto, some 1, true⟩).key 1 3 = ⟨.held, some .auto, some 1, true⟩ ∧
    (s ⟨.latched, some .latching, some 1, false⟩).key 1 3 = ⟨.latched, some .latching, some 1, false⟩ ∧
    ((h none).key 1 3).state = .idle ∧ (h none).held? 1 3 = none ∧ (h (some (.call 24))).held? 1 3 = some (.call 24) ∧
    (h (some (.systemKey 255))).held? 1 3 = some (.systemKey 255) :=
  ⟨fun _ => .inl ⟨rfl, rfl⟩, fun _ => .inl ⟨rfl, rfl⟩, by decide⟩

theorem witness_FunctionsAndBindingsAreSet :
    let s := keyed (.talk (.port 4) none .auto 0 7)
    let function (f : Nat) (a : FunctionAction) (l : Byte) : Request := ⟨0x90, 1, be16 f ++ actionBytes a ++ [l, functionDomainByte .any]⟩
    let binding (p g k : Byte) (f : Nat) : Request := ⟨0x91, 1, [p, g, k] ++ be16 f⟩
    let fits (p g k : Byte) (f : Nat) := (1 ≤ p.toNat ∧ p.toNat ≤ 32) ∧ g.toNat ≤ 1 ∧ (1 ≤ k.toNat ∧ k.toNat ≤ 64) ∧ f ≤ 511
    let slots (x : KeyFunction) := withFd (fun g => { g with functions := ⟨[(511, x)]⟩ }) s
    (Ready (function 511 (.talk (.port 255) none .latching (-80) 7) 3) s ∧ (1 ≤ 511 ∧ 511 ≤ 511) ∧ (3 : Byte).toNat ≤ 3) ∧
    (Ready (function 512 .pageToggle 3) s ∧ Ready (function 511 (.call 25) 3) s ∧ Ready (function 511 .pageToggle 4) s ∧ ¬(4 : Byte).toNat ≤ 3) ∧
    (Ready ⟨0x90, 1, be16 511⟩ s ∧ Ready ⟨0x90, 1, be16 512⟩ s ∧ Ready ⟨0x90, 1, be16 0⟩ s) ∧
    (Ready (binding 1 1 64 0) s ∧ fits 1 1 64 0) ∧ (Ready (binding 1 1 64 511) s ∧ fits 1 1 64 511 ∧ s.function? 511 = none) ∧
    (Ready (binding 33 1 64 7) s ∧ ¬fits 33 1 64 7 ∧ ¬fits 1 2 64 7 ∧ ¬fits 1 1 65 7 ∧ ¬fits 1 1 64 512) ∧
    (Ready (binding 32 1 64 7) s ∧ s.function? 7 ≠ none ∧ s.panel? 32 = none) ∧
    (Ready (binding 1 1 64 7) s ∧ s.panel? 1 = some (aPanel .online) ∧ (aPanel .online).access ≤ 1 ∧ s.targetValid (.port 4) = true) ∧
    (Ready (binding 1 1 64 511) (slots ⟨.pageToggle, 0, .any⟩) ∧ ¬(aPanel .online).access ≤ 0) ∧
    (Ready (binding 1 1 64 511) (slots ⟨.talk (.port 64) none .auto 0 7, 1, .a⟩) ∧ s.targetValid (.port 64) = false) ∧
    Ready ⟨0x92, 1, [32, 64, lampByte (.lit .white true)]⟩ s ∧ Ready ⟨0x92, 1, [33, 64, lampByte .off]⟩ s ∧
      Ready ⟨0x92, 1, [32, 65, lampByte .off]⟩ s :=
  ⟨⟨ready rfl, by decide⟩, ⟨ready rfl, ready rfl, ready rfl, by decide⟩, ⟨ready rfl, ready rfl, ready rfl⟩, ⟨ready rfl, by decide⟩,
    ⟨ready rfl, by decide⟩, ⟨ready rfl, by decide⟩, ⟨ready rfl, by decide⟩, ⟨ready rfl, by decide⟩, ⟨ready rfl, by decide⟩,
    ⟨ready rfl, by decide⟩, ready rfl, ready rfl, ready rfl⟩

theorem witness_QueriesAnswer : Ready ⟨0x17, 1, 0 :: be16 256⟩ fitted ∧ Ready ⟨0x17, 1, 0 :: be16 257⟩ fitted ∧
    Ready ⟨0x17, 1, [1, 8]⟩ fitted ∧ Ready ⟨0x17, 1, [1, 9]⟩ fitted ∧ Ready ⟨0x36, 1, [4]⟩ fitted ∧ Ready ⟨0x54, 1, [5, 64, 64]⟩ fitted ∧
    Ready ⟨0x54, 1, [5, 65, 64]⟩ fitted ∧ Ready ⟨0x54, 1, 6 :: be16 512⟩ fitted ∧ Ready ⟨0x61, 1, [16]⟩ fitted ∧
    Ready ⟨0x83, 1, [2, 32, 1]⟩ fitted ∧ Ready ⟨0x83, 1, [2, 32, 2]⟩ fitted ∧ Ready ⟨0x84, 1, []⟩ fitted ∧ Ready ⟨0x93, 1, []⟩ fitted ∧
    Ready ⟨0xA3, 1, []⟩ fitted := by
  refine ⟨?_, ?_, ?_, ?_, ?_, ?_, ?_, ?_, ?_, ?_, ?_, ?_, ?_, ?_⟩ <;> exact ready rfl

/-! Invariants.  The premises of the statements about every step hold in a state where each of them says something: reset has
them all (`Obligations.ResetIsInOrder`), and these states have more than reset. -/

/-- A take pending, one deferred reply and 7 overflow replies waiting: two replies are owed. -/
theorem witness_LinkStaysOrdered :
    LinkOrdered (linked { full 7 with owed := 2, outbound := ⟨.deferred, 5, [2]⟩ :: (full 7).outbound } (queued 1)) where
  idle h := by cases h
  replies := rfl
  requests := by decide
  overflow := by decide
  owed := by decide
  single := by decide
  restart := by decide
  flagsOnce := by decide
  enabled f h := by revert h; cases f <;> decide
  carried := by rintro ⟨f, h⟩; revert h; cases f <;> decide

theorem witness_ArbitrationStaysInOrder : TalkSetBounded arbitrated ∧ IfbArbitrated arbitrated ∧
    PanelTalksServed (withTc (fun t => { t with talks := [keyTalk 1] }) (waiting .online aPoll)) := by
  refine ⟨arbitrated_bounded, arbitrated_inOrder, ⟨fun t m p k e => ?_, fun x h e => ?_⟩⟩
  · obtain rfl : t = keyTalk 1 := by simpa [withTc] using m
    obtain ⟨rfl, rfl⟩ : 1 = p ∧ 3 = k := by simpa [keyTalk] using e
    rfl
  · obtain rfl : aPoll = x := Option.some.inj h
    cases e

/-- Device 1 covers VID of destination 1, which reads source 3, and root 1 makes source 3 RED in domain A. -/
def coloured : State := withTt
  (fun t => { t with roots := ⟨[(1, ⟨true, some ⟨.a, .red, .dest 1 .vid⟩, .terminal 3, none⟩)]⟩, coloursA := ⟨[(3, ⟨true, false, false⟩)]⟩ })
  (withRc (fun r => { r with devices := ⟨[(1, ⟨.vid, 1, 1, 5, .online⟩)]⟩, dests := ⟨[(1, onVid 3)]⟩ }) State.reset)

theorem coloured_device {n : Nat} {v : Device} (h : coloured.device? n = some v) : n = 1 ∧ v = ⟨.vid, 1, 1, 5, .online⟩ := by
  have e : coloured.device? n = if 1 = n then some ⟨.vid, 1, 1, 5, .online⟩ else none := rfl
  rw [e] at h
  split at h
  · exact ⟨(by assumption : 1 = n).symm, (Option.some.inj h).symm⟩
  · cases h

theorem coloured_dest (d : Nat) : coloured.dest d = if 1 = d then onVid 3 else Destination.start := by
  have e : coloured.dest d = (if 1 = d then some (onVid 3) else none).getD Destination.start := rfl
  rw [e]
  split <;> rfl

theorem coloured_root (r : Nat) : coloured.root r =
    if 1 = r then ⟨true, some ⟨.a, .red, .dest 1 .vid⟩, .terminal 3, none⟩ else Root.start := by
  have e : coloured.root r = (if 1 = r then some ⟨true, some ⟨.a, .red, .dest 1 .vid⟩, .terminal 3, none⟩ else none).getD Root.start := rfl
  rw [e]
  split <;> rfl

theorem coloured_colours (x : Nat) : coloured.colours .a x = if 3 = x then ⟨true, false, false⟩ else ColourSet.none := by
  have e : coloured.colours .a x = (if 3 = x then some ⟨true, false, false⟩ else none).getD ColourSet.none := rfl
  rw [e]
  split <;> rfl

theorem witness_ColoursStayTraced : LevelsFitted coloured ∧ ColoursAgree coloured := by
  refine ⟨⟨fun d l => ?_, fun m n v w d l hm hn _ _ => ?_⟩, ⟨rfl, fun dom x c => ?_⟩⟩
  · rw [State.levelAt, coloured_dest]
    constructor
    · intro h
      split at h
      · subst d
        cases l
        · exact ⟨1, _, rfl, by decide⟩
        all_goals exact absurd rfl h
      · cases l <;> exact absurd rfl h
    · rintro ⟨n, v, h, c⟩
      obtain ⟨rfl, rfl⟩ := coloured_device h
      obtain ⟨rfl, rfl⟩ : l = .vid ∧ d = 1 := by
        simp [Device.covers] at c
        exact ⟨by simp_all, by omega⟩
      decide
  · rw [(coloured_device hm).1, (coloured_device hn).1]
  · constructor
    · intro h
      cases dom
      · rw [coloured_colours] at h
        split at h
        · subst x
          obtain rfl : c = .red := by revert h; cases c <;> decide
          exact ⟨1, _, rfl, rfl, rfl, rfl, by decide⟩
        · cases c <;> cases h
      · cases c <;> cases h
    · rintro ⟨r, cfg, -, h, rfl, rfl, e⟩
      rw [coloured_root] at h
      split at h
      · obtain rfl := Option.some.inj h
        have k : coloured.trace (.dest 1 .vid) = .terminal 3 := by decide
        rw [k] at e
        obtain rfl : 3 = x := by injection e
        rfl
      · cases h

theorem witness_TablesStayBounded : QueueBounded (queued 1) ∧ TablesBounded (keyed .pageToggle) := by
  refine ⟨⟨by decide, by decide, List.pairwise_singleton _ _, fun n => ?_, fun w h => by cases h⟩,
    ⟨by decide, by decide, fun q => ?_, by decide, by decide, fun p v h => ?_, by decide⟩⟩
  · exact Nat.zero_le _
  · have e : (keyed .pageToggle).port q = (if 2 = q then some { Port.start with role := .normal }
        else if 4 = q then some { Port.start with role := .normal } else none).getD Port.start := rfl
    rw [e]
    split
    · decide
    · split <;> decide
  · have e : (keyed .pageToggle).panel? p = if 1 = p then some (aPanel .online) else none := rfl
    rw [e] at h
    split at h
    · obtain rfl := Option.some.inj h
      decide
    · cases h

theorem witness_DrivesAndLampsStayDerived : DrivesAgree (lit .ok) ∧ LampsAgree (panelled .absent) := by
  refine ⟨fun n => ?_, fun p v k h w => ?_⟩
  · have e : (lit .ok).output n = (if 1 = n then some ⟨some ⟨.forceOn, 0, .a, ⟨true, false, false⟩, true⟩, .on, .ok⟩
        else none).getD Output.start := rfl
    rw [State.driveOf, e]
    split
    · subst n
      decide
    · rfl
  · have e : (panelled .absent).panel? p = if 1 = p then some (aPanel .absent) else none := rfl
    rw [e] at h
    split at h
    · obtain rfl := Option.some.inj h
      rfl
    · cases h

/-- Camera 24 names output 48, on AUTO over source 3 in GREEN, and panel 1 holds a call to it with key 5. -/
def calling : State := withTou
  (fun t => { t with
    cameras := ⟨[(24, ⟨.a, 3, some 4, some 48⟩)]⟩
    outputs := ⟨[(2, ⟨some ⟨.forceOff, 0, .a, ⟨true, false, false⟩, true⟩, .off, .ok⟩),
      (3, ⟨some ⟨.auto, 3, .b, ⟨true, true, false⟩, true⟩, .on, .ok⟩), (48, ⟨some ⟨.auto, 3, .a, ⟨false, true, false⟩, true⟩, .flash, .ok⟩)]⟩
    holders := [⟨1, 5, 24⟩] })
  (withTt (fun t => { t with coloursB := ⟨[(3, ⟨false, true, false⟩)]⟩ }) (keyed .pageToggle))

/-- The rows of R68: an unset output, a SHORT one, one that camera 24 calls, and outputs that no camera calls in the three
modes. -/
theorem witness_DriveRule :
    (calling.output 1).config = none ∧ ((lit .short).output 1).fault = .short ∧
    ((calling.output 48).config ≠ none ∧ (calling.output 48).fault ≠ .short ∧ calling.calledBy 48 24) ∧
    (((lit .ok).output 1).config.map (fun v => v.mode) = some .forceOn ∧ ∀ c, ¬(lit .ok).calledBy 1 c) ∧
    ((calling.output 2).config.map (fun v => v.mode) = some .forceOff ∧ ∀ c, ¬calling.calledBy 2 c) ∧
    ((calling.output 3).config = some ⟨.auto, 3, .b, ⟨true, true, false⟩, true⟩ ∧ (∀ c, ¬calling.calledBy 3 c) ∧
      (calling.colours .b 3).has .green = true ∧ (calling.colours .a 3) = ColourSet.none) := by
  have one : ∀ c v, calling.camera? c = some v → v.output = some 48 := by
    intro c v h
    have e : calling.camera? c = if 24 = c then some ⟨.a, 3, some 4, some 48⟩ else none := rfl
    rw [e] at h
    split at h
    · obtain rfl := Option.some.inj h; rfl
    · cases h
  refine ⟨rfl, rfl, ⟨by decide, by decide, ⟨_, rfl, rfl, ⟨⟨1, 5, 24⟩, by simp [calling, withTou], rfl⟩, rfl⟩⟩, ⟨rfl, ?_⟩,
    ⟨rfl, ?_⟩, ⟨rfl, ?_, rfl, rfl⟩⟩
  · rintro c ⟨v, h, -⟩; cases h
  · rintro c ⟨v, h, e, -⟩; rw [one c v h] at e; cases e
  · rintro c ⟨v, h, e, -⟩; rw [one c v h] at e; cases e

/-- The cases of R174: a captured talk that is pending at its IFB, HELD_CANCEL, a held call, a NULL binding, an empty slot, a
function above the access level, and a shown function. -/
theorem witness_LampRule :
    let owned (y : KeyTalk) := withTc (fun t => { t with keys := ⟨[(1, ⟨[(3, y)]⟩)]⟩ }) arbitrated
    ((owned ⟨.latched, some .auto, some 2, false⟩).key 1 3 = ⟨.latched, some .auto, some 2, false⟩ ∧
      (∃ t, (owned ⟨.latched, some .auto, some 2, false⟩).talk? 2 = some t ∧
        (owned ⟨.latched, some .auto, some 2, false⟩).flashes t) ∧
      ∃ t, (owned ⟨.held, some .auto, some 1, true⟩).talk? 1 = some t ∧ ¬(owned ⟨.held, some .auto, some 1, true⟩).flashes t) ∧
    ((owned ⟨.heldCancel, some .auto, none, false⟩).key 1 3).state = .heldCancel ∧
    ((calling.key 1 5).state = .idle ∧ ∃ h ∈ calling.tou.holders, h.panel = 1 ∧ h.key = 5) ∧
    ((calling.key 1 4).state = .idle ∧ (∀ h ∈ calling.tou.holders, ¬(h.panel = 1 ∧ h.key = 4)) ∧ calling.binding 1 false 4 = 0) ∧
    ((keyed .pageToggle).binding 1 false 3 = 7 ∧ State.reset.function? 7 = none ∧
      (keyed .pageToggle).function? 7 = some ⟨.pageToggle, 1, .any⟩ ∧ PassesChecks ⟨.pageToggle, 1, .any⟩ (aPanel .online) ∧
      ¬PassesChecks ⟨.pageToggle, 0, .any⟩ (aPanel .online) ∧ ¬PassesChecks ⟨.pageToggle, 1, .b⟩ (aPanel .online)) := by
  refine ⟨⟨rfl, ⟨_, rfl, .inr ⟨1, rfl, .inr ⟨_, rfl, by simp [slotTalk]⟩⟩⟩, ⟨_, rfl, ?_⟩⟩, rfl, ⟨rfl, by decide⟩, ⟨rfl, by decide, rfl⟩,
    rfl, rfl, rfl, by unfold PassesChecks; decide⟩
  rintro (⟨x, h, -⟩ | ⟨n, h, h2 | ⟨i, h2, h3⟩⟩)
  · cases h
  · cases h2
  · obtain rfl : 1 = n := by injection h
    obtain rfl := Option.some.inj h2
    revert h3; decide

/-- `arbitrated` with the listeners and the paths that follow: the PROGRAM path of IFB 1, ducked, and the path of its
interrupter. -/
def mixed : State :=
  let s := withTc (fun t => { t with talks := [{ slotTalk 1 1 with target := .ifb 1, listeners := [5] },
    { slotTalk 2 2 with target := .ifb 1, priority := 2, listeners := [] }] }) arbitrated
  withFd (fun f => { f with functions := ⟨[(7, ⟨.talk (.ifb 1) none .auto 0 7, 1, .any⟩)]⟩ })
    { s with tme := { TalkMix.start with
        counter := 3
        paths := [⟨.talk, 2, 5, [1], 0, 3, .admitted 2 (.steps (-12))⟩, ⟨.program 1, 6, 5, [], 0, 8, .admitted 1 (.steps (-32))⟩] } }

theorem mixed_ifb (n : Nat) : mixed.ifb? n = if 1 = n then some ⟨5, 6, some (-20), false, some 1, 3, [2]⟩ else none := rfl

theorem mixed_function (f : Nat) : mixed.function? f = if 7 = f then some ⟨.talk (.ifb 1) none .auto 0 7, 1, .any⟩ else none := rfl

theorem mixed_agrees : MixAgrees mixed where
  listeners := by decide
  ordered := by decide
  talkPaths a b := by
    simp only [mixed, withFd, withTc, arbitrated, slotTalk, List.mem_cons, List.not_mem_nil, or_false, exists_eq_or_imp, exists_eq_left]
    simp [eq_comm]
  derived := by decide
  programPaths n a b := by
    rw [mixed_ifb]
    by_cases h : 1 = n
    · subst h; simp [mixed, withFd]
    · simp [mixed, withFd, h]
  programs := by decide
  coefficients := by decide
  full := by decide
  numbers := by decide
  starved := by decide
  ifbs := by decide
  priorities := by
    refine ⟨by decide, fun f x target dom mode level priority h e => ?_⟩
    rw [mixed_function] at h
    split at h
    · obtain rfl := Option.some.inj h
      injection e with _ _ _ _ e
      omega
    · cases h

theorem witness_TalksAndPathsStayBounded : TalkSetBounded mixed ∧ PathsBounded mixed ∧ MixAgrees mixed := by
  refine ⟨⟨by decide, by decide, by decide, by decide, by decide, by decide, by decide⟩,
    ⟨by decide, by decide, rfl, fun l => ?_, by decide⟩, mixed_agrees⟩
  exact Nat.le_trans (List.length_filter_le _ _) (by decide)

/-- A table of 12 admitted paths into listener 9, at priorities 1 and 2, and the two paths of `mixed`. -/
def crowd : Admissions :=
  ⟨(numbers 1 12).map (fun n => ⟨.talk, 10 + n, 9, [n], 0, 1 + n % 2, .admitted n .off⟩), 13⟩

theorem witness_PathsFollowTalks :
    (mixed.tme.paths.Pairwise (fun p q => p.same q = false) ∧ ascending mixed.tc.ifbs.entries = true) ∧
    (Fits crowd 8 ∧ ¬Fits crowd 9) ∧
    (∀ v ∈ crowd.paths, ∀ w ∈ crowd.paths, v.kind = .talk → w.kind = .talk → v.isAdmitted = true → w.isAdmitted = true →
      v.number = w.number → v = w) ∧
    (∃ v, Victim crowd 9 v ∧ v.talker = 22 ∧ v.priority < 2 ∧ 1 ≤ v.priority) := by
  refine ⟨by decide, by unfold Fits; decide, by decide, ⟨.talk, 22, 9, [12], 0, 1, .admitted 12 .off⟩, ⟨⟨by decide, rfl, rfl, fun _ => rfl⟩, ?_⟩,
    rfl, by decide, by decide⟩
  rintro w ⟨h, -, -, -⟩
  revert w
  decide

/-- Two talks of one talker and listener, at levels and priorities of which each is the highest in one. -/
theorem witness_PathsFollowTalks_levels :
    let s := withTc (fun t => { t with talks := [{ slotTalk 1 1 with level := -80, priority := 7 }, { slotTalk 2 2 with level := 12, priority := 0 }] })
      (keyed .pageToggle)
    (s.tc.talks.map fun x => x.id).Nodup ∧
    ((handling State.reset s).tme.paths.map fun p => (p.talker, p.listener, p.level, p.priority)) = [(2, 4, 12, 7)] ∧
    s.talksOf [1, 2] ≠ [] := by decide

end Sys2Proof.Tests
end

/-! Proofs of the statements on the destination table's protection (R7, R8): what a request that writes the destination table
and re-derives the lamps leaves, then one destination protected or released, then every destination at once. -/

namespace Sys2Proof.Machine

/-! ### A destination write that a request causes -/

theorem State.dest_congr {s t : State} (h : t.rc.dests = s.rc.dests) (d : Nat) : t.dest d = s.dest d := by
  rw [State.dest, h]; rfl

/-- R183: taking its turn leaves the Route Controller as it is. -/
theorem InTurn.rc_eq {r : Request} {s s1 : State} (h : InTurn r s s1) : s1.rc = s.rc := by rw [h.eq]

theorem InTurn.dest_eq {r : Request} {s s1 : State} (h : InTurn r s s1) (d : Nat) : s1.dest d = s.dest d :=
  State.dest_congr (by rw [h.rc_eq]) d

/-- R176, R186: the lamps do not read the link, so a transmission may begin before or after their re-derivation. -/
theorem transmit_relamp (s : State) : transmit (relamp s) = relamp (transmit s) := by
  rw [transmit_eq, transmit_eq]; rfl

/-- R176, R185: a request that is answered, writes the destination table and re-derives the lamps does these three and
nothing else. -/
theorem answered_writes_dests (r : Request) (c : ReplyCode) (t : Table Destination) {s : State} (hs : Settled s) :
    ∃ u, transmit (relamp { answer r c s with rc := { s.rc with dests := t } }) = u ∧ u.rc.dests = t ∧
      LampsFollow { s with hlc := s.hlc.answered r c [], rc := { s.rc with dests := u.rc.dests } } u := by
  refine ⟨relamp { s with hlc := s.hlc.answered r c [], rc := { s.rc with dests := t } }, ?_, rfl, relamp_follows _⟩
  rw [transmit_relamp, transmit_eq, ← begun_replied r c [] hs]; rfl

/-! ### Numbers on the wire and in ranges -/

theorem within_iff {lo hi n : Nat} : within lo hi n = true ↔ lo ≤ n ∧ n ≤ hi := by simp [within]

/-- Section 11.1: a number of two bytes reads back. -/
theorem wordArg_be16 {n : Nat} (h : n < 65536) : wordArg (be16 n) = some n := by
  simp [wordArg, be16, nat16, byte]; omega

/-! ### One destination protected or released by the host (R7) -/

/-- R7: a host protect change to `v` of a destination in range. -/
theorem hostProtect_of_mem {d : Nat} (hd : 1 ≤ d ∧ d ≤ 256) (v : Protect) (r : Request) (s : State) :
    hostProtect v r d s = relamp ((answer r .ok s).setProtect d v) := if_pos (within_iff.2 hd)

theorem hostProtect_of_not_mem {d : Nat} (hd : ¬(1 ≤ d ∧ d ≤ 256)) (v : Protect) (r : Request) (s : State) :
    hostProtect v r d s = answer r .badArg s := if_neg (mt within_iff.1 hd)

/-- R7: a command that executes a host protect change to `v`, in its turn. -/
theorem exec_hostProtect {c : Instr} {kind tag : Byte} {d : Nat} {v : Protect} {s s1 : State}
    (hc : exec c s = .next (requestOf kind tag (be16 d) wordArg (hostProtect v) s)) (hw : d < 65536) (hs : Settled s)
    (h : InTurn ⟨kind, tag, be16 d⟩ s s1) :
    (1 ≤ d ∧ d ≤ 256 → ∃ t, exec c s = .next t ∧
      t.dest d = { s.dest d with protect := v } ∧ (∀ e, e ≠ d → t.dest e = s.dest e) ∧
      LampsFollow { s1 with
        hlc := s1.hlc.answered ⟨kind, tag, be16 d⟩ .ok [], rc := { s1.rc with dests := t.rc.dests } } t) ∧
    (¬(1 ≤ d ∧ d ≤ 256) → exec c s =
      .next { s1 with hlc := s1.hlc.answered ⟨kind, tag, be16 d⟩ .badArg [] }) := by
  rw [hc, requestOf_inTurn h (wordArg_be16 hw)]
  refine ⟨fun hd => ?_, fun hd => ?_⟩
  · obtain ⟨u, hu, hdests, hlamps⟩ :=
      answered_writes_dests ⟨kind, tag, be16 d⟩ .ok (s1.setProtect d v).rc.dests (h.settled hs)
    refine ⟨u, ?_, ?_, fun e he => ?_, hlamps⟩
    · rw [hostProtect_of_mem hd, ← hu]; rfl
    · rw [State.dest_congr hdests, ← h.dest_eq]; exact s1.dest_setDest_self d _
    · rw [State.dest_congr hdests, ← h.dest_eq]; exact s1.dest_setDest_ne he _
  · rw [hostProtect_of_not_mem hd, transmit_answer _ _ (h.settled hs)]

/-- Settles O15: both requests are a host protect change. -/
theorem protectAndUnprotect : Obligations.ProtectAndUnprotect := fun _ _ _ _ hw hs =>
  ⟨exec_hostProtect rfl hw hs, exec_hostProtect rfl hw hs⟩

/-! ### Every destination rewritten at once (R8) -/

theorem get_reprotect (f : Protect → Protect) (t : Table Destination) (d e : Nat) :
    (reprotect f t d).get Destination.start e =
      if e = d then { t.get Destination.start e with protect := f (t.get Destination.start e).protect }
      else t.get Destination.start e := by
  unfold reprotect
  split
  · next he => subst he; exact Table.get_set_self _ _ _ _
  · next he => exact Table.get_set_ne _ _ he _

/-- A run of rewrites that meets no destination twice rewrites each one it meets once. -/
theorem get_foldl_reprotect (f : Protect → Protect) {ds : List Nat} (hn : ds.Nodup) (t : Table Destination) (e : Nat) :
    (ds.foldl (reprotect f) t).get Destination.start e =
      if e ∈ ds then { t.get Destination.start e with protect := f (t.get Destination.start e).protect }
      else t.get Destination.start e := by
  induction ds generalizing t with
  | nil => simp
  | cons d ds ih =>
    obtain ⟨hd, hn⟩ := List.nodup_cons.1 hn
    rw [List.foldl_cons, ih hn, get_reprotect]
    by_cases he : e = d
    · subst he; simp [hd]
    · simp [he]

theorem numbers_nodup (lo hi : Nat) : (numbers lo hi).Nodup := List.nodup_range'

theorem State.dest_rewriteProtects (f : Protect → Protect) (s : State) (d : Nat) :
    (rewriteProtects f s).dest d =
      if 1 ≤ d ∧ d ≤ 256 then { s.dest d with protect := f (s.dest d).protect } else s.dest d := by
  unfold State.dest rewriteProtects
  rw [get_foldl_reprotect f (numbers_nodup 1 256)]
  simp only [mem_numbers, within_iff]

/-- R8: RELEASE_ALL releases the two locks, and keeps a panel's protection and an unprotected destination. -/
theorem releasedBy_eq (p : Protect) : releasedBy p = if p = .systemLock ∨ p = .startupLock then .none else p := by
  cases p <;> simp [releasedBy]

/-- Issuing a reply and rewriting the protect states commute: the one writes the link, the other the destinations. -/
theorem rewriteProtects_answer (f : Protect → Protect) (r : Request) (c : ReplyCode) (s : State) :
    rewriteProtects f (answer r c s) = { answer r c s with rc := { s.rc with dests := (rewriteProtects f s).rc.dests } } := by
  unfold rewriteProtects
  generalize numbers 1 256 = ds
  rfl

/-- R8: a command that executes a rewrite of every protect state by `f`, in its turn. -/
theorem exec_rewriteProtects {c : Instr} {kind tag : Byte} {f : Protect → Protect} {s s1 : State}
    (hc : exec c s =
      .next (requestOf kind tag [] noArg (fun r _ x => relamp (rewriteProtects f (answer r .ok x))) s))
    (hs : Settled s) (h : InTurn ⟨kind, tag, []⟩ s s1) :
    ∃ t, exec c s = .next t ∧
      (∀ d, t.dest d = if 1 ≤ d ∧ d ≤ 256 then { s.dest d with protect := f (s.dest d).protect } else s.dest d) ∧
      LampsFollow { s1 with
        hlc := s1.hlc.answered ⟨kind, tag, []⟩ .ok [], rc := { s1.rc with dests := t.rc.dests } } t := by
  obtain ⟨u, hu, hdests, hlamps⟩ :=
    answered_writes_dests ⟨kind, tag, []⟩ .ok (rewriteProtects f s1).rc.dests (h.settled hs)
  refine ⟨u, ?_, fun d => ?_, hlamps⟩
  · rw [hc, requestOf_inTurn h (show noArg [] = some () from rfl), rewriteProtects_answer, hu]
  · rw [State.dest_congr hdests, State.dest_rewriteProtects, h.dest_eq]

/-- Settles O16: both requests rewrite every protect state, by `lockedBy` and by `releasedBy`. -/
theorem protectAllAndReleaseAll : Obligations.ProtectAllAndReleaseAll := by
  intro tag s s1 hs
  refine ⟨exec_rewriteProtects (f := lockedBy) rfl hs, fun h => ?_⟩
  obtain ⟨t, ht, hdest, hlamps⟩ := exec_rewriteProtects (c := .releaseAll tag []) (f := releasedBy) rfl hs h
  refine ⟨t, ht, fun d => ?_, hlamps⟩
  rw [hdest, releasedBy_eq]
  by_cases hlock : (s.dest d).protect = .systemLock ∨ (s.dest d).protect = .startupLock <;> simp [hlock]

end Sys2Proof.Machine

/-! Proof of the statement on IDENT (R192). -/

namespace Sys2Proof.Machine

/-- Section 11.3: the vendor code 0x0E4A and the part code 0x0A50 (2640), then the silicon revision. -/
theorem identData_eq : identData = [0x0E, 0x4A, 0x0A, 0x50, byte (Config.siliconRevisionIndex.val + 1)] := by
  have vendor : be16 Config.vendorCode = [0x0E, 0x4A] := by decide
  have part : be16 Config.partCode = [0x0A, 0x50] := by decide
  rw [identData, vendor, part]; rfl

/-- R192: IDENT in its turn is answered and does nothing else. -/
theorem exec_ident_inTurn {tag : Byte} {s s1 : State} (hs : Settled s) (h : InTurn ⟨0xA2, tag, []⟩ s s1) :
    exec (.ident tag []) s = .next { s1 with hlc := s1.hlc.answered ⟨0xA2, tag, []⟩ .ok identData } := by
  rw [show exec (.ident tag []) s = execIdent tag [] s from rfl, execIdent,
    requestOf_inTurn h (show noArg [] = some () from rfl), transmit_answerData _ _ _ (h.settled hs)]

/-- Settles O12: the revision is the index of log entry 1, 0..254, plus one. -/
theorem identAnswers : Obligations.IdentAnswers := by
  refine ⟨Config.siliconRevisionIndex.val + 1, Nat.le_add_left _ _, Config.siliconRevisionIndex.isLt, ?_⟩
  intro tag s s1 hs h
  rw [exec_ident_inTurn hs h, identData_eq]

end Sys2Proof.Machine

/-! What one step can do, the host link apart: the effects of the commands, one constructor for each, with what the checks
of its command have established.  An invariant that does not read the link is kept by every step when every effect keeps it. -/

namespace Sys2Proof.Machine

/-- The panel bus with another key event queue. -/
def State.withEvents (s : State) (es : List KeyEvent) : State := { s with pbc := { s.pbc with events := es } }

/-- The effects of the commands.  A request that reads, that is refused or that is not in turn has the effect `none`.  The mark is
whether the effect leaves the owed replies in balance with the link: power-on, RESTART(ALL) and the acceptance of a host's take or
firing do not. -/
inductive Effect (s : State) : Bool → State → Prop
  | none : Effect s true s
  | powerOn : Effect s false (powerOn s)
  | restartAll (tag : Byte) : Effect s false (restartAll tag s)
  | restartPanels : Effect s true (restartPanels s)
  | restartTalk : Effect s true (restartTalk s)
  | setDomain (d : Nat) (dom : DestDomain) : Effect s true (relamp (s.setDest d { s.dest d with domain := dom }))
  | setProtect (d : Nat) (v : Protect) : Effect s true (relamp (s.setProtect d v))
  | rewriteProtects (f : Protect → Protect) : Effect s true (relamp (rewriteProtects f s))
  | mapDevice (a : FabricArgs) (fresh : s.device? a.device = Option.none)
      (free : s.rangeTaken a.level a.first a.last = false) : Effect s true (relamp (mapDevice a.device a s))
  | retryDevice (n : Nat) (v : Device) (found : s.device? n = some v) : Effect s true (relamp (retryDevice n v s))
  | completeReadback (n : Nat) (sources : List Nat) : Effect s true (completeReadback n sources s)
  | failReadback (n : Nat) : Effect s true (failReadback n s)
  | take (e : Entry) (t : State) (accepted : offerTake e s = .ok t) : Effect s false (relamp t)
  | storeSalvo (n : Nat) (es : List StoredEntry) (short : es.length ≤ 32) :
      Effect s true { s with rc := { s.rc with salvos := s.rc.salvos.set [] n es } }
  | fireSalvo (n : Nat) (o : Origin) (force : Bool) (t : State) (accepted : fireSalvo n o force s = .accepted t) :
      Effect s false (relamp t)
  | timing (v : SwitchTiming) : Effect s true { s with stu := v }
  | switchPoint (v : SwitchTiming) : Effect s true (switchPoint { s with stu := v })
  | takeAnswer (n d : Nat) (l : Level) (acknowledged : Bool) : Effect s true (takeAnswer n d l acknowledged s)
  | expireWindow : Effect s true (expireWindow s)
  | setRoot (r : Nat) (v : Root) :
      Effect s true (relamp (recomputeTally { s with tt := { s.tt with roots := s.tt.roots.put r v } }))
  | selectBuses (ms : Table Mixer) : Effect s true (relamp (recomputeTally { s with tt := { s.tt with mixers := ms } }))
  | setMaps (m1 m2 : Table Nat) :
      Effect s true (relamp (recomputeTally { s with tt := { s.tt with inputMap1 := m1, inputMap2 := m2 } }))
  | setTie (x d : Nat) (room : s.tie? x = Option.none → s.tt.ties.entries.length < Config.tiePlaces) :
      Effect s true (relamp (recomputeTally { s with tt := { s.tt with ties := s.tt.ties.put x d } }))
  | clearTie (x : Nat) : Effect s true (relamp (recomputeTally { s with tt := { s.tt with ties := s.tt.ties.erase x } }))
  | setMixerSource (m : Nat) (v : MixerSource) : Effect s true (s.setMixer m { (s.mixer m).allStale with source := v })
  | setCamera (c : Nat) (v : Option Camera) :
      Effect s true (relamp (cameraChange c (cameraDomains (s.camera? c) v) (driveAll (writeCamera c v s))))
  | writeOutput (n : Nat) (v : Option OutputConfig) : Effect s true (writeOutput n v s)
  | setFault (n : Nat) (f : LampFaultState) : Effect s true (setFault n f s)
  | flashClock : Effect s true { s with tou := { s.tou with flashLit := !s.tou.flashLit } }
  | setPort (q : Nat) (v : Port) (fits : v.inRange = true) : Effect s true (recompute (s.setPort q v))
  | setGroup (g : Nat) (ports : List Nat) (unaddressed : ∀ t ∈ s.tc.talks, t.target ≠ .group g) :
      Effect s true { s with tc := { s.tc with groups := s.tc.groups.set [] g ports } }
  | talkOn (a : TalkOnArgs) (fits : a.inRange = true) (passes : (endSlot a.slot s).offerRefusal a.offered = Option.none) :
      Effect s true (relamp (createTalk ((endSlot a.slot s).newTalk a.offered a.talker) (endSlot a.slot s)))
  | endSlot (slot : Nat) : Effect s true (relamp (endSlot slot s))
  | expireTimer (p k : Nat) : Effect s true (relamp (expireTimer p k s))
  | configureIfb (n : Nat) (a : IfbArgs) (range : 1 ≤ n ∧ n ≤ 16) (fits : s.ifbPortsFit n a = true)
      (still : ¬(s.ifbPortsChange n a = true ∧ s.ifbAddressed n = true)) :
      Effect s true (relamp (writeIfb n (some (s.configuredIfb n a)) s))
  | unconfigureIfb (n : Nat) (unaddressed : s.ifbAddressed n = false) : Effect s true (relamp (writeIfb n Option.none s))
  | declarePanel (p : Nat) (a : PanelArgs) (fresh : s.panel? p = Option.none) :
      Effect s true (relamp ((s.setPanel p a.declared).setContext p Context.start))
  | changePanel (p : Nat) (v : Panel) (a : PanelArgs) (found : s.panel? p = some v) :
      Effect s true (relamp (s.setPanel p
        { v with kind := a.kind, access := a.access, domain := a.domain, ownPort := a.ownPort }))
  | removePanel (p : Nat) (v : Panel) (found : s.panel? p = some v) : Effect s true (relamp (removePanel p v s))
  | countMode (m : CountMode) (threshold : Nat) (range : 1 ≤ threshold ∧ threshold ≤ 255) :
      Effect s true { s with pbc := { s.pbc with mode := m, threshold := threshold } }
  | transfer : Effect s true (relamp (transfer s))
  | endTransaction (j : Transaction → State → BusJudgement) : Effect s true (endTransaction j s)
  | endEmptyCycle : Effect s true (endEmptyCycle s)
  | press (p k : Nat) (es : List KeyEvent) (rest : es <:+ s.pbc.events) : Effect s true (relamp (handlePress p k (s.withEvents es)))
  | release (p k : Nat) (es : List KeyEvent) (rest : es <:+ s.pbc.events) :
      Effect s true (relamp (handleRelease p k (s.withEvents es)))
  | knob (p : Nat) (delta : Int) (es : List KeyEvent) (rest : es <:+ s.pbc.events) :
      Effect s true (handleKnob p delta (s.withEvents es))
  | busState (p bus input : Nat) (es : List KeyEvent) (rest : es <:+ s.pbc.events) :
      Effect s true (relamp (applyBusState p bus input (s.withEvents es)))
  | setFunction (f : Nat) (v : Option KeyFunction) (fits : ∀ x, v = some x → x.action.inRange = true) :
      Effect s true (relamp { s with fd := { s.fd with functions :=
        match v with
        | some x => s.fd.functions.put f x
        | Option.none => s.fd.functions.erase f } })
  | setBinding (p : Nat) (page1 : Bool) (k f : Nat) : Effect s true (relamp (writeBinding p page1 k f s))
  | setLamp (p k : Nat) (x : Lamp) : Effect s true (relamp (s.setHostLamp p k x))
  | takeSystemKeys : Effect s true { s with fd := { s.fd with systemKeys := [] } }

/-- A change of the state that is an effect, the host link apart. -/
def UpToLink (s t : State) : Prop := ∃ h h' mark t', Effect { s with hlc := h } mark t' ∧ t = { t' with hlc := h' }

theorem Effect.upToLink {s t : State} {mark : Bool} (h : Effect s mark t) : UpToLink s t := ⟨s.hlc, t.hlc, mark, t, h, rfl⟩

theorem UpToLink.before {s t : State} {h : HostLink} (e : UpToLink { s with hlc := h } t) : UpToLink s t := e

theorem UpToLink.after {s t : State} (h : HostLink) : UpToLink s t → UpToLink s { t with hlc := h }
  | ⟨h1, _, mark, t', e, ht⟩ => ⟨h1, h, mark, t', e, by rw [ht]⟩

theorem UpToLink.refl (s : State) : UpToLink s s := Effect.none.upToLink

theorem UpToLink.transmit {s t : State} (h : UpToLink s t) : UpToLink s (transmit t) := by
  rw [transmit_eq]; exact h.after _

/-- A link alone is changed. -/
theorem upToLink_link (s : State) (h : HostLink) : UpToLink s { s with hlc := h } := (UpToLink.refl s).after h

theorem offerRequest_link (r : Request) (s : State) : offerRequest r s = { s with hlc := (offerRequest r s).hlc } := by
  unfold offerRequest
  split
  · rfl
  · split
    · rfl
    · rw [raise_eq]

theorem receiveBytes_link (n : Nat) (bytes : List Byte) (s : State) :
    receiveBytes n bytes s = { s with hlc := (receiveBytes n bytes s).hlc } := by
  induction n generalizing bytes s with
  | zero => rfl
  | succ n ih =>
    unfold receiveBytes
    split
    · rfl
    · rfl
    · rw [ih, raise_eq]
    · rw [ih, offerRequest_link]

theorem dropPartial_link (s : State) : dropPartial s = { s with hlc := (dropPartial s).hlc } := by
  unfold dropPartial
  split
  · rfl
  · rw [receiveBytes_link, raise_eq]

theorem turn?_link {r : Request} {s s1 : State} (h : turn? r s = some s1) : ∃ h, s1 = { s with hlc := h } := by
  unfold turn? at h
  split at h
  · split at h
    · cases h; exact ⟨s.hlc, rfl⟩
    · cases h
  · split at h
    · cases h; exact ⟨_, rfl⟩
    · cases h

theorem setTiming_eq (v : SwitchTiming) (s : State) : setTiming v s = { s with hlc := (setTiming v s).hlc, stu := v } := by
  unfold setTiming; rw [handOver_eq]

theorem setTiming_upToLink (v : SwitchTiming) (s : State) : UpToLink s (setTiming v s) := by
  rw [setTiming_eq]; exact (Effect.timing v).upToLink.after _

theorem changeFamily_upToLink (f : FrameFamily) (s : State) : UpToLink s (changeFamily f s) := by
  unfold changeFamily
  split
  · exact .refl s
  · exact setTiming_upToLink _ s

/-- What the execution of a request in its turn does, before a message that it queues on an idle link begins. -/
inductive Served (r : Request) (s : State) : State → Prop
  | answered (c : ReplyCode) (d : List Byte) {t : State} (e : Effect (answerData r c d s) true t) : Served r s t
  | takes (e : Entry) (t : State) (host : e.origin = .system r.tag) (room : s.hlc.owed < Config.owedLimit)
      (accepted : offerTake e s = .ok t) : Served r s (relamp (deferReply t))
  | fires (n : Nat) (force : Bool) (t : State) (room : s.hlc.owed < Config.owedLimit)
      (accepted : fireSalvo n (.system r.tag) force s = .accepted t) : Served r s (relamp (deferReply t))
  | restarts : Served r s (restartAll r.tag s)
  | changesFamily (f : FrameFamily) : Served r s (changeFamily f (answer r .ok s))
  | takesKeys (d : List Byte) : Served r s (answerData r .ok d { s with fd := { s.fd with systemKeys := [] } })
  | writesEvents (enabled : BitVec 16) (edges : EdgeSelects) : Served r s (writeEvents enabled edges (answer r .ok s))
  | unknown : Served r s (raise .hostFrameError (answer r .unknown s))

theorem Served.upToLink {r : Request} {s t : State} (h : Served r s t) : UpToLink s t := by
  cases h with
  | answered c d e => exact UpToLink.before e.upToLink
  | takes e t host room accepted => exact (Effect.take e t accepted).upToLink.after _
  | fires n force t room accepted => exact (Effect.fireSalvo n _ force t accepted).upToLink.after _
  | restarts => exact (Effect.restartAll r.tag).upToLink
  | changesFamily f => exact UpToLink.before (changeFamily_upToLink f _)
  | takesKeys d => exact Effect.takeSystemKeys.upToLink.after _
  | writesEvents enabled edges => exact upToLink_link s _
  | unknown => rw [raise_eq]; exact upToLink_link s _

/-- A reply alone. -/
theorem served_answerData (r : Request) (c : ReplyCode) (d : List Byte) (s : State) : Served r s (answerData r c d s) :=
  .answered c d .none

theorem served_answer (r : Request) (c : ReplyCode) (s : State) : Served r s (answer r c s) := served_answerData r c [] s

/-- An effect behind a reply. -/
theorem Effect.answered {r : Request} {c : ReplyCode} {s t : State} (h : Effect (answer r c s) true t) : Served r s t :=
  Served.answered c [] h

theorem served_ite {r : Request} {c : Prop} [Decidable c] {s t u : State} (ht : c → Served r s t) (hu : ¬c → Served r s u) :
    Served r s (if c then t else u) := by
  by_cases h : c
  · rw [if_pos h]; exact ht h
  · rw [if_neg h]; exact hu h

/-! ### The requests -/

theorem setDestDomain_served (r : Request) (a : Nat × DestDomain) (s : State) : Served r s (setDestDomain r a s) := by
  unfold setDestDomain
  split
  · exact (Effect.setDomain (s := answer r .ok s) a.1 a.2).answered
  · exact served_answer ..

theorem hostProtect_served (v : Protect) (r : Request) (d : Nat) (s : State) : Served r s (hostProtect v r d s) := by
  unfold hostProtect
  split
  · exact (Effect.setProtect (s := answer r .ok s) d v).answered
  · exact served_answer ..

theorem setFabric_served (r : Request) (a : FabricArgs) (s : State) : Served r s (setFabric r a s) := by
  unfold setFabric
  split; · exact served_answer ..
  split; · exact served_answer ..
  split; · exact served_answer ..
  split; · exact served_answer ..
  next hd hr _ =>
  exact (Effect.mapDevice (s := answer r .ok s) a (Option.not_isSome_iff_eq_none.1 hd) (Bool.eq_false_of_not_eq_true hr)).answered

theorem fabricRetry_served (r : Request) (n : Nat) (s : State) : Served r s (fabricRetry r n s) := by
  unfold fabricRetry
  split
  · split
    · exact served_answer ..
    · next v hv =>
      split
      · exact served_answer ..
      · exact (Effect.retryDevice (s := answer r .ok s) n v hv).answered
  · exact served_answer ..

theorem getRoute_served (r : Request) (q : RouteQuery) (s : State) : Served r s (getRoute r q s) := by
  unfold getRoute; (repeat' split) <;> exact served_answerData ..

theorem take_served (r : Request) (a : TakeArgs) (s : State) : Served r s (take r a s) := by
  unfold take
  split
  · exact served_answer ..
  · next room =>
    split
    · next t ht =>
      unfold hostTake at ht
      split at ht
      · exact .takes _ t rfl (Nat.not_le.1 room) ht
      · cases ht
    · exact served_answer ..

theorem salvoStore_served (r : Request) (a : Nat × List (Nat × Option LevelMask × Nat)) (s : State) :
    Served r s (salvoStore r a s) := by
  unfold salvoStore
  split
  · next h =>
    simp only [Bool.and_eq_true, decide_eq_true_eq] at h
    exact (Effect.storeSalvo (s := answer r .ok s) a.1 (a.2.filterMap storedEntry)
      ((List.length_filterMap_le _ _).trans h.1.2)).answered
  · exact served_answer ..

theorem salvoFire_served (r : Request) (a : Nat × Option Bool) (s : State) : Served r s (salvoFire r a s) := by
  unfold salvoFire
  split
  · exact served_answer ..
  · next room =>
    split
    · exact served_answer ..
    · split
      · split
        · exact served_answer ..
        · exact served_answerData ..
        · next t ht => exact .fires _ _ t (Nat.not_le.1 room) ht
      · exact served_answer ..

theorem setRoot_served (r : Request) (a : RootArgs) (s : State) : Served r s (setRoot r a s) := by
  unfold setRoot
  split
  · exact (Effect.setRoot (s := answer r .ok s) a.root _).answered
  · exact served_answer ..

theorem setMixerSource_served (r : Request) (a : Nat × MixerSource) (s : State) : Served r s (setMixerSource r a s) := by
  unfold setMixerSource
  split
  · split
    · exact served_answer ..
    · split
      · exact served_answer ..
      · exact (Effect.setMixerSource (s := answer r .ok s) a.1 a.2).answered
  · exact served_answer ..

theorem mixerState_served (r : Request) (a : Nat × List (Nat × Nat)) (s : State) : Served r s (mixerState r a s) := by
  unfold mixerState
  split
  · split
    · exact (Effect.selectBuses (s := answer r .ok s) _).answered
    · exact served_answer ..
  · exact served_answer ..

theorem setMixerMap_served (r : Request) (a : Nat × List (Nat × Option Nat)) (s : State) :
    Served r s (setMixerMap r a s) := by
  unfold setMixerMap triggered
  split
  · dsimp only
    split
    · exact (Effect.setMaps (s := answer r .ok s) (writeMap a.2 s.tt.inputMap1) s.tt.inputMap2).answered
    · exact (Effect.setMaps (s := answer r .ok s) s.tt.inputMap1 (writeMap a.2 s.tt.inputMap2)).answered
  · exact served_answer ..

theorem setTie_served (r : Request) (a : Nat × Nat) (s : State) : Served r s (setTie r a s) := by
  unfold setTie
  split
  · split
    · exact served_answer ..
    · next h =>
      simp only [Bool.and_eq_true, Option.isNone_iff_eq_none, decide_eq_true_eq, not_and, Nat.not_le] at h
      exact (Effect.setTie (s := answer r .ok s) a.1 a.2 h).answered
  · exact served_answer ..

theorem clearTie_served (r : Request) (x : Nat) (s : State) : Served r s (clearTie r x s) := by
  unfold clearTie
  split
  · exact (Effect.clearTie (s := answer r .ok s) x).answered
  · exact served_answer ..

theorem getTally_served (r : Request) (q : TallyQuery) (s : State) : Served r s (getTally r q s) := by
  unfold getTally; (repeat' split) <;> exact served_answerData ..

theorem setCamera_served (r : Request) (a : Nat × Option Camera) (s : State) : Served r s (setCamera r a s) := by
  unfold setCamera
  exact served_ite (fun _ => (Effect.setCamera (s := answer r .ok s) a.1 a.2).answered) fun _ => served_answer ..

theorem setTallyOutput_served (r : Request) (a : Nat × Option OutputConfig) (s : State) :
    Served r s (setTallyOutput r a s) := by
  unfold setTallyOutput
  exact served_ite (fun _ => (Effect.writeOutput (s := answer r .ok s) a.1 a.2).answered) fun _ => served_answer ..

theorem lampClear_served (r : Request) (n : Nat) (s : State) : Served r s (lampClear r n s) := by
  unfold lampClear
  split
  · exact (Effect.setFault (s := answer r .ok s) n .ok).answered
  · exact served_answer ..

theorem setPortRecord_served (r : Request) (a : Nat × Port) (s : State) : Served r s (setPortRecord r a s) := by
  unfold setPortRecord
  split
  · next h =>
    split
    · exact served_answer ..
    · exact (Effect.setPort (s := answer r .ok s) a.1 a.2 (Bool.and_eq_true _ _ ▸ h).2).answered
  · exact served_answer ..

theorem setGroup_served (r : Request) (a : Nat × List Nat) (s : State) : Served r s (setGroup r a s) := by
  unfold setGroup
  split
  · split
    · exact served_answer ..
    · split
      · exact served_answer ..
      · next h =>
        exact (Effect.setGroup (s := answer r .ok s) a.1 (asPortSet a.2) (by simpa using h)).answered
  · exact served_answer ..

/-- R87: endings leave the Talk Controller as the removal of the talks does. -/
theorem endTalks_tc (ended : List Nat) (s : State) :
    (endTalks ended s).tc = if s.tc.talks.any fun t => ended.contains t.id then (removeTalks ended s).tc else s.tc := by
  unfold endTalks; split <;> simp

/-- R86: what an offer is judged by. -/
theorem offerRefusal_congr {s t : State} (htc : t.tc = s.tc) (htou : t.tou = s.tou) (o : TalkOffer) :
    t.offerRefusal o = s.offerRefusal o := by
  unfold State.offerRefusal State.targetValid State.cameraPort State.camera? State.group State.ifb? State.port
    State.reservationOf State.onairReservation State.group
  rw [htc, htou]

theorem endSlot_link (slot : Nat) (s : State) (h : HostLink) : (endSlot slot { s with hlc := h }).tc = (endSlot slot s).tc := by
  unfold endSlot; rw [endTalks_tc, endTalks_tc]; rfl

theorem talkOn_served (r : Request) (a : TalkOnArgs) (s : State) : Served r s (talkOn r a s) := by
  unfold talkOn
  split
  · next hf =>
    split; · exact served_answer ..
    split; · exact served_answer ..
    split
    · next why _ => exact (Effect.endSlot (s := answer r why.code s) a.slot).answered
    · next h =>
      have same := offerRefusal_congr (endSlot_link a.slot s (answer r .ok s).hlc)
        ((endSlot_tou a.slot _).trans (endSlot_tou a.slot s).symm) a.offered
      exact (Effect.talkOn (s := answer r .ok s) a hf (same.trans h)).answered
  · exact served_answer ..

theorem talkOff_served (r : Request) (slot : Nat) (s : State) : Served r s (talkOff r slot s) := by
  unfold talkOff
  split
  · exact (Effect.endSlot (s := answer r .ok s) slot).answered
  · exact served_answer ..

theorem getPaths_served (r : Request) (q : PathsQuery) (s : State) : Served r s (getPaths r q s) := by
  unfold getPaths; (repeat' split) <;> exact served_answerData ..

theorem setIfb_served (r : Request) (a : Nat × Option IfbArgs) (s : State) : Served r s (setIfb r a s) := by
  unfold setIfb
  refine served_ite (fun hr => ?_) fun _ => served_answer ..
  · simp only [Bool.and_eq_true, within_iff] at hr
    have range := hr.1
    split
    · split
      · exact served_answer ..
      · next h => exact (Effect.unconfigureIfb (s := answer r .ok s) a.1 (Bool.eq_false_of_not_eq_true h)).answered
    · next x _ =>
      split; · exact served_answer ..
      split; · exact served_answer ..
      split; · exact served_answer ..
      next hp hm _ =>
      have fits : s.ifbPortsFit a.1 x = true := by simpa using hp
      have still : ¬(s.ifbPortsChange a.1 x = true ∧ s.ifbAddressed a.1 = true) := by simpa using hm
      exact (Effect.configureIfb (s := answer r .ok s) a.1 x range fits still).answered

theorem getIfb_served (r : Request) (n : Nat) (s : State) : Served r s (getIfb r n s) := by
  unfold getIfb; split <;> exact served_answerData ..

theorem setPanelRequest_served (r : Request) (a : Nat × Option PanelArgs) (s : State) :
    Served r s (setPanelRequest r a s) := by
  unfold setPanelRequest declarePanel undeclarePanel
  split
  · next x _ =>
    split
    · split
      · next h => exact (Effect.declarePanel (s := answer r .ok s) a.1 x h).answered
      · next v h =>
        split
        · exact served_answer ..
        · exact (Effect.changePanel (s := answer r .ok s) a.1 v x h).answered
    · exact served_answer ..
  · split
    · split
      · exact served_answer ..
      · next v h => exact (Effect.removePanel (s := answer r .ok s) a.1 v h).answered
    · exact served_answer ..

theorem setCountMode_served (r : Request) (a : CountMode × Nat) (s : State) : Served r s (setCountMode r a s) := by
  unfold setCountMode
  split
  · next h => exact (Effect.countMode (s := answer r .ok s) a.1 a.2 (within_iff.1 h)).answered
  · exact served_answer ..

theorem countsSnapshot_served (r : Request) (s : State) : Served r s (countsSnapshot r () s) := by
  unfold countsSnapshot
  split
  · exact served_answer ..
  · exact (Effect.transfer (s := answer r .ok s)).answered

theorem getPanel_served (r : Request) (q : PanelQuery) (s : State) : Served r s (getPanel r q s) := by
  unfold getPanel; (repeat' split) <;> exact served_answerData ..

theorem setFunction_served (r : Request) (a : Nat × Option KeyFunction) (s : State) : Served r s (setFunction r a s) := by
  obtain ⟨f, v⟩ := a
  cases v with
  | none => exact served_ite (fun _ => (Effect.setFunction (s := answer r .ok s) f none nofun).answered) fun _ => served_answer r .badArg s
  | some v =>
    refine served_ite (fun h => ?_) fun _ => served_answer r .badArg s
    simp only [Bool.and_eq_true] at h
    exact (Effect.setFunction (s := answer r .ok s) f (some v) fun x hx => Option.some.inj hx ▸ h.2.1).answered

theorem setBinding_served (r : Request) (a : Nat × Nat × Nat × Nat) (s : State) : Served r s (setBinding r a s) := by
  obtain ⟨p, page, k, f⟩ := a
  unfold setBinding
  dsimp only
  refine served_ite (fun _ => ?_) fun _ => served_answer r .badArg s
  cases s.bindingRefusal p f with
  | some code => exact served_answer r code s
  | none => exact (Effect.setBinding (s := answer r .ok s) p (page == 1) k f).answered

theorem setHostLamp_served (r : Request) (a : Nat × Nat × Lamp) (s : State) : Served r s (setHostLamp r a s) := by
  obtain ⟨p, k, x⟩ := a
  unfold setHostLamp
  dsimp only
  split
  · exact (Effect.setLamp (s := answer r .ok s) p k x).answered
  · exact served_answer ..

theorem restart_served (r : Request) (scope : Nat) (s : State) : Served r s (restart r scope s) := by
  unfold restart
  split
  · exact .restarts
  · exact (Effect.restartPanels (s := answer r .ok s)).answered
  · exact (Effect.restartTalk (s := answer r .ok s)).answered
  · exact served_answer ..

/-! ### The events -/

/-- What the execution of a command does. -/
inductive Execution (s : State) : State → Prop
  | nothing : Execution s s
  | powerOn : Execution s (powerOn s)
  | flashClock : Execution s { s with tou := { s.tou with flashLit := !s.tou.flashLit } }
  | event {t : State} (e : Effect s true t) : Execution s (transmit t)
  | switched (v : SwitchTiming) : Execution s (transmit (switchPoint (setTiming v s)))
  | turn (r : Request) {s1 t : State} (turn : turn? r s = some s1) (served : Served r s1 t) : Execution s (transmit t)
  | offered (r : Request) : Execution s (transmit (offerRequest r s))
  | received (bytes : List Byte) : Execution s (transmit (receive bytes s))
  | dropped : Execution s (transmit (dropPartial s))
  | ended : Execution s (endTransmission s)

theorem Execution.upToLink {s t : State} (h : Execution s t) : UpToLink s t := by
  cases h with
  | nothing => exact .refl s
  | powerOn => exact Effect.powerOn.upToLink
  | flashClock => exact Effect.flashClock.upToLink
  | event e => exact e.upToLink.transmit
  | switched v =>
    rw [setTiming_eq]
    exact (UpToLink.before (s := s) (Effect.switchPoint v).upToLink).transmit
  | turn r turn served =>
    obtain ⟨h, rfl⟩ := turn?_link turn
    exact (UpToLink.before served.upToLink).transmit
  | offered r => rw [offerRequest_link]; exact (upToLink_link s _).transmit
  | received bytes => unfold receive; rw [receiveBytes_link]; exact (upToLink_link s _).transmit
  | dropped => rw [dropPartial_link]; exact (upToLink_link s _).transmit
  | ended =>
    unfold endTransmission
    split
    · exact .refl s
    · exact (upToLink_link s _).transmit

/-- The execution of a request is that in its turn, or its arrival as a good frame. -/
theorem execution_request (r : Request) (body : State → State) (s : State) (hb : ∀ x, Served r x (body x)) :
    Execution s (request r body s) := by
  unfold request
  split
  · next s1 turn => exact .turn r turn (hb s1)
  · exact .offered r

theorem execution_requestOf {α : Type} (kind tag : Byte) (payload : List Byte) (decode : List Byte → Option α)
    (body : Request → α → State → State) (s : State) (hb : ∀ r a x, Served r x (body r a x)) :
    Execution s (requestOf kind tag payload decode body s) := by
  refine execution_request _ _ s fun x => ?_
  split
  · exact hb _ _ x
  · exact served_answer ..

theorem pulse_execution (time : Nat) (s : State) : Execution s (transmit (pulse time s)) := by
  unfold pulse
  split
  · exact .switched _
  · split
    · exact .event (.timing _)
    · split
      · exact .switched _
      · exact .event (.timing _)

theorem loseReference_execution (s : State) : Execution s (transmit (loseReference s)) := by
  unfold loseReference
  split
  · exact .event .none
  · exact .switched _

theorem flywheel_execution (s : State) : Execution s (transmit (flywheel s)) := by
  unfold flywheel
  split
  · exact .event .none
  · exact .event (.switchPoint _)

theorem takeSample_effect (n : Nat) (current : Bool) (s : State) : Effect s true (takeSample n current s) := by
  unfold takeSample
  split
  · split
    · exact Effect.setFault n _
    · exact Effect.setFault n _
    · exact .none
  · exact .none

theorem takeOvercurrent_effect (n : Nat) (s : State) : Effect s true (takeOvercurrent n s) := by
  unfold takeOvercurrent
  split
  · exact Effect.setFault n _
  · exact .none

theorem secondTransfer_effect (s : State) : Effect s true (secondTransfer s) := by
  unfold secondTransfer
  split
  · exact Effect.transfer
  · exact .none

theorem receivePanelFrame_effect (bytes : List Byte) (s : State) : Effect s true (receivePanelFrame bytes s) := by
  unfold receivePanelFrame
  split
  · exact .none
  · split
    · exact Effect.endTransaction _
    · exact .none

theorem timeOut_effect (s : State) : Effect s true (timeOut s) := Effect.endTransaction _

/-- R164: an event of the key event queue is handled with the rest of the queue, or is not in turn. -/
theorem takeEvent_effect (e : KeyEvent) (handle : State → State) (s : State)
    (h : ∀ es, es <:+ s.pbc.events → Effect s true (handle (s.withEvents es))) : Effect s true (takeEvent e handle s) := by
  unfold takeEvent
  split
  · exact h s.pbc.events List.suffix_rfl
  · next x rest hx =>
    split
    · exact h rest (hx ▸ List.suffix_cons x rest)
    · exact .none

/-! ### The commands -/

/-- A command answers a next state, by an execution. -/
def Answers (c : Instr) (s : State) : Prop := ∃ t, exec c s = .next t ∧ Execution s t

theorem answers_requestOf {α : Type} {c : Instr} {s : State} {kind tag : Byte} {payload : List Byte}
    {decode : List Byte → Option α} {body : Request → α → State → State}
    (hc : exec c s = .next (requestOf kind tag payload decode body s)) (hb : ∀ r a x, Served r x (body r a x)) :
    Answers c s := ⟨_, hc, execution_requestOf kind tag payload decode body s hb⟩

theorem answers_event {c : Instr} {s : State} {effect : State → State} (hc : exec c s = event effect s)
    (he : Effect s true (effect s)) : Answers c s := ⟨_, hc, .event he⟩

theorem unknownRequest_answers (kind tag : Byte) (payload : List Byte) (s : State) :
    Answers (.unknownRequest kind tag payload) s := by
  show ∃ t, execUnknownRequest kind tag payload s = .next t ∧ _
  unfold execUnknownRequest
  split
  · exact ⟨s, rfl, .nothing⟩
  · exact ⟨_, rfl, execution_request _ _ s fun _ => .unknown⟩

/-- Every command answers a next state. -/
theorem exec_answers (c : Instr) (s : State) : Answers c s := by
  cases c with
  | powerOn => exact ⟨_, rfl, .powerOn⟩
  | hostFrameReceived bytes => exact ⟨_, rfl, .received bytes⟩
  | hostBadLength bytes => exact ⟨_, rfl, .received bytes⟩
  | hostFrameTimeout => exact ⟨_, rfl, .dropped⟩
  | unknownRequest kind tag payload => exact unknownRequest_answers kind tag payload s
  | transmissionEnd => exact ⟨_, rfl, .ended⟩
  | setDestDomain => exact answers_requestOf rfl setDestDomain_served
  | protect => exact answers_requestOf rfl (hostProtect_served _)
  | unprotect => exact answers_requestOf rfl (hostProtect_served _)
  | protectAll => exact answers_requestOf rfl fun r _ x => (Effect.rewriteProtects (s := answer r .ok x) _).answered
  | releaseAll => exact answers_requestOf rfl fun r _ x => (Effect.rewriteProtects (s := answer r .ok x) _).answered
  | setFabric => exact answers_requestOf rfl setFabric_served
  | fabricRetry => exact answers_requestOf rfl fabricRetry_served
  | readbackCompletion n sources => exact answers_event rfl (Effect.completeReadback n sources)
  | readbackFailure n => exact answers_event rfl (Effect.failReadback n)
  | getRoute => exact answers_requestOf rfl getRoute_served
  | take => exact answers_requestOf rfl take_served
  | salvoStore => exact answers_requestOf rfl salvoStore_served
  | salvoFire => exact answers_requestOf rfl salvoFire_served
  | setFrameFamily => exact answers_requestOf rfl fun _ f _ => .changesFamily f
  | referencePulse time => exact ⟨_, rfl, pulse_execution time s⟩
  | lossTimerExpiry => exact ⟨_, rfl, loseReference_execution s⟩
  | flywheelPoint => exact ⟨_, rfl, flywheel_execution s⟩
  | crosspointAnswer n d l a => exact answers_event rfl (Effect.takeAnswer n d l a)
  | windowExpiry => exact answers_event rfl Effect.expireWindow
  | setRoot => exact answers_requestOf rfl setRoot_served
  | setMixer => exact answers_requestOf rfl setMixerSource_served
  | mixerState => exact answers_requestOf rfl mixerState_served
  | setMixerMap => exact answers_requestOf rfl setMixerMap_served
  | setTie => exact answers_requestOf rfl setTie_served
  | clearTie => exact answers_requestOf rfl clearTie_served
  | getTally => exact answers_requestOf rfl getTally_served
  | setCamera => exact answers_requestOf rfl setCamera_served
  | setOutput => exact answers_requestOf rfl setTallyOutput_served
  | lampClear => exact answers_requestOf rfl lampClear_served
  | flashClockHalf => exact ⟨_, rfl, .flashClock⟩
  | loadSample n current => exact answers_event rfl (takeSample_effect n current s)
  | overcurrentDetection n => exact answers_event rfl (takeOvercurrent_effect n s)
  | setPort => exact answers_requestOf rfl setPortRecord_served
  | setGroup => exact answers_requestOf rfl setGroup_served
  | talkOn => exact answers_requestOf rfl talkOn_served
  | talkOff => exact answers_requestOf rfl talkOff_served
  | autoTimerExpiry p k => exact answers_event (effect := fun x => relamp (expireTimer p k x)) rfl (Effect.expireTimer p k)
  | getPaths => exact answers_requestOf rfl getPaths_served
  | setIfb => exact answers_requestOf rfl setIfb_served
  | getIfb => exact answers_requestOf rfl getIfb_served
  | setPanel => exact answers_requestOf rfl setPanelRequest_served
  | setPanelUndeclared => exact answers_requestOf rfl setPanelRequest_served
  | setCountMode => exact answers_requestOf rfl setCountMode_served
  | countsSnapshot => exact answers_requestOf rfl fun r _ => countsSnapshot_served r
  | getPanel => exact answers_requestOf rfl getPanel_served
  | getCounts => exact answers_requestOf rfl fun r _ x => served_answerData r _ _ x
  | panelFrameReceived bytes => exact answers_event rfl (receivePanelFrame_effect bytes s)
  | transactionTimeout => exact answers_event rfl (timeOut_effect s)
  | emptyCycleEnd => exact answers_event rfl Effect.endEmptyCycle
  | countTransfer => exact answers_event rfl (secondTransfer_effect s)
  | keyPress p k => exact answers_event rfl (takeEvent_effect _ _ s fun es h => .press p k es h)
  | keyRelease p k => exact answers_event rfl (takeEvent_effect _ _ s fun es h => .release p k es h)
  | knob p delta => exact answers_event rfl (takeEvent_effect _ _ s fun es h => .knob p delta es h)
  | busState p bus input => exact answers_event rfl (takeEvent_effect _ _ s fun es h => .busState p bus input es h)
  | setFunction => exact answers_requestOf rfl setFunction_served
  | setBinding => exact answers_requestOf rfl setBinding_served
  | setLamp => exact answers_requestOf rfl setHostLamp_served
  | getSystemKeys => exact answers_requestOf rfl fun _ _ _ => .takesKeys _
  | setEvents => exact answers_requestOf rfl fun _ a _ => .writesEvents a.1 a.2
  | restartAll => exact answers_requestOf rfl restart_served
  | restartPanels => exact answers_requestOf rfl restart_served
  | restartTalk => exact answers_requestOf rfl restart_served
  | ident => exact answers_requestOf rfl fun r _ x => served_answerData r _ _ x
  | getStatus => exact answers_requestOf rfl fun r _ x => served_answerData r _ _ x
  | discardedReadbackAnswer => exact ⟨s, rfl, .nothing⟩

/-- An invariant that reads neither the host link nor the queue of commands. -/
structure Offline (P : State → Prop) : Prop where
  link : ∀ s h, P s → P { s with hlc := h }
  commands : ∀ s cs, P s → P { s with pending := cs }

/-- An invariant that does not read the link is kept by every step when every effect keeps it. -/
theorem step_keeps {P : State → Prop} (off : Offline P) (keeps : ∀ s t {mark : Bool}, Effect s mark t → P s → P t) {s t : State}
    (h : step s = .next t) (hs : P s) : P t := by
  unfold step at h
  split at h
  · cases h; exact hs
  · next c rest _ =>
    obtain ⟨u, hu, execution⟩ := exec_answers c { s with pending := rest }
    obtain ⟨x, y, mark, t', he, rfl⟩ := execution.upToLink
    rw [hu] at h; cases h
    exact off.link _ y (keeps _ _ he (off.link _ x (off.commands s rest hs)))

end Sys2Proof.Machine

/-! The bounds of the take queue, the salvos and the switch window (R23, R26, R36), which every step keeps. -/

namespace Sys2Proof.Machine

/-- Either branch of a test keeps an invariant. -/
theorem ite_keeps {P : State → Prop} {c : Prop} [Decidable c] {t u : State} (ht : c → P t) (hu : ¬c → P u) :
    P (if c then t else u) := by
  by_cases h : c
  · rw [if_pos h]; exact ht h
  · rw [if_neg h]; exact hu h

/-! ### What leaves the take queue, the window and the salvos -/

/-- What the bounds of the takes read: the take queue, the open window and the salvos. -/
def State.takes (s : State) : List TakeGroup × Option Window × Table (List StoredEntry) :=
  (s.rc.queue, s.rc.window, s.rc.salvos)

theorem State.takes_of_rc {s t : State} (h : t.rc = s.rc) : t.takes = s.takes := by unfold State.takes; rw [h]

@[simp] theorem takes_rewriteProtects (f : Protect → Protect) (s : State) : (rewriteProtects f s).takes = s.takes := by
  unfold rewriteProtects; generalize numbers 1 256 = ds; rfl

@[simp] theorem takes_relamp (s : State) : (relamp s).takes = s.takes := rfl

@[simp] theorem takes_evaluateFabric (s : State) : (evaluateFabric s).takes = s.takes := by
  simp [evaluateFabric, handOver_eq, State.takes]

@[simp] theorem takes_routeChange (s : State) : (routeChange s).takes = s.takes := State.takes_of_rc (by simp)

@[simp] theorem takes_setLevel (d : Nat) (l : Level) (v : LevelState) (s : State) : (s.setLevel d l v).takes = s.takes := rfl

@[simp] theorem takes_setDevice (n : Nat) (v : Device) (s : State) : (s.setDevice n v).takes = s.takes := rfl

@[simp] theorem takes_writeLevels (l : Level) (d : Nat) (vs : List LevelState) (s : State) :
    (writeLevels l d vs s).takes = s.takes := by
  induction vs generalizing d s with
  | nil => rfl
  | cons v vs ih => rw [writeLevels, ih, takes_setLevel]

@[simp] theorem takes_mapDevice (n : Nat) (a : FabricArgs) (s : State) : (mapDevice n a s).takes = s.takes := by
  simp [mapDevice]

@[simp] theorem takes_retryDevice (n : Nat) (v : Device) (s : State) : (retryDevice n v s).takes = s.takes := by
  simp [retryDevice]

@[simp] theorem takes_readbackDone (k : ReadbackKind) (s : State) : (readbackDone k s).takes = s.takes :=
  State.takes_of_rc (by simp)

@[simp] theorem takes_endReadback (n : Nat) (v : Device) (k : ReadbackKind) (p : DevicePhase) (x : List LevelState)
    (s : State) : (endReadback n v k p x s).takes = s.takes := by simp [endReadback]

@[simp] theorem takes_completeReadback (n : Nat) (x : List Nat) (s : State) : (completeReadback n x s).takes = s.takes := by
  unfold completeReadback; (repeat' split) <;> simp

@[simp] theorem takes_failReadback (n : Nat) (s : State) : (failReadback n s).takes = s.takes := by
  unfold failReadback; (repeat' split) <;> simp

@[simp] theorem takes_applyWrite (s : State) (w : Write) : (applyWrite s w).takes = s.takes := by
  unfold applyWrite; dsimp only; (repeat' split) <;> simp

@[simp] theorem takes_beginExchanges (s : State) : (beginExchanges s).takes = s.takes := rfl

@[simp] theorem takes_clearProtects (p : Nat) (s : State) : (clearProtects p s).takes = s.takes := takes_rewriteProtects _ s

@[simp] theorem takes_removePanel (p : Nat) (v : Panel) (s : State) : (removePanel p v s).takes = s.takes := by
  have dropped (x : State) : (staleBridge p (dropPanelCalls p (dropPanelTalks p (dropHeld p
      (x.setContext p Context.start))))).takes = x.takes := State.takes_of_rc (by simp)
  have changed (x : State) : (panelStateChanged x).takes = x.takes := State.takes_of_rc (by simp)
  unfold removePanel
  dsimp only
  split
  · exact (dropped _).trans (takes_clearProtects p _)
  · exact (changed _).trans ((dropped _).trans (takes_clearProtects p _))

@[simp] theorem takes_panelToggle (p k d : Nat) (s : State) : (panelToggle p k d s).takes = s.takes := by
  unfold panelToggle
  split
  · rfl
  · exact State.takes_of_rc (by simp)

/-! ### What closes and opens a window -/

theorem foldl_takes {β : Type} (f : State → β → State) (h : ∀ s b, (f s b).takes = s.takes) (l : List β) (s : State) :
    (l.foldl f s).takes = s.takes := foldl_keeps f State.takes h l s

theorem takes_closeWindow (w : Window) (s : State) : (closeWindow w s).takes = (s.rc.queue, none, s.rc.salvos) := by
  have written : (w.writes.foldl applyWrite s).takes = s.takes := foldl_takes _ takes_applyWrite _ _
  have reported : ∀ x : State, (w.groups.foldl (reportGroup w.writes) x).takes = x.takes :=
    foldl_takes _ (fun x g => State.takes_of_rc (reportGroup_rc w.writes x g)) _
  have evaluated := (takes_evaluateFabric (w.writes.foldl applyWrite s)).trans written
  simp only [State.takes, Prod.mk.injEq] at evaluated
  obtain ⟨queue, -, salvos⟩ := evaluated
  unfold closeWindow
  dsimp only
  split
  · rw [takes_beginExchanges, takes_routeChange, reported, State.takes, queue, salvos]
  · rw [takes_beginExchanges, takes_relamp, reported, State.takes, queue, salvos]

/-- R34, R36: the head groups that are drawn, with their writes, and the groups that stay. -/
theorem drain_split (s : State) (used : Nat) (gs : List TakeGroup) (h : used ≤ Config.windowWrites) :
    ∃ drawn rest, gs = drawn ++ rest ∧ drain s used gs = (drawn.map s.draw, rest) ∧
      used + ((drawn.map s.draw).flatMap s.writesOf).length ≤ Config.windowWrites := by
  induction gs generalizing used with
  | nil => exact ⟨[], [], rfl, rfl, h⟩
  | cons g gs ih =>
    unfold drain
    dsimp only
    split
    · next fit =>
      obtain ⟨drawn, rest, split, eq, bound⟩ := ih _ fit
      refine ⟨g :: drawn, rest, by rw [split]; rfl, by rw [eq]; rfl, ?_⟩
      simp only [List.map_cons, List.flatMap_cons, List.length_append]
      omega
    · exact ⟨[], g :: gs, rfl, rfl, h⟩

/-! ### Entries without a common level -/

/-- R24: two entries share no level of a destination. -/
def Apart (a b : Entry) : Prop := a.dest = b.dest → ∀ l, ¬(LevelMask.has a.mask l = true ∧ LevelMask.has b.mask l = true)

/-- The pending entries of a queue, head first. -/
def entriesOf (gs : List TakeGroup) : List Entry := gs.flatMap fun g => g.entries

theorem entriesOf_length (gs : List TakeGroup) : (gs.map fun g => g.entries.length).sum = (entriesOf gs).length := by
  unfold entriesOf; rw [List.length_flatMap]

theorem has_minus (m n : LevelMask) (l : Level) : LevelMask.has (m.minus n) l = (LevelMask.has m l && !LevelMask.has n l) := by
  cases l <;> rfl

/-- R24: stripping an entry leaves its destination and takes levels away. -/
theorem strip_sub (d : Nat) (mask : LevelMask) (e : Entry) :
    (e.strip d mask).dest = e.dest ∧ ∀ l, LevelMask.has (e.strip d mask).mask l = true → LevelMask.has e.mask l = true := by
  unfold Entry.strip
  split
  · exact ⟨rfl, fun l h => by rw [has_minus, Bool.and_eq_true] at h; exact h.1⟩
  · exact ⟨rfl, fun _ h => h⟩

theorem Apart.strip {a b : Entry} (d : Nat) (mask : LevelMask) (h : Apart a b) : Apart (a.strip d mask) (b.strip d mask) := by
  obtain ⟨ha, hal⟩ := strip_sub d mask a
  obtain ⟨hb, hbl⟩ := strip_sub d mask b
  intro hd l hl
  exact h (by rw [← ha, hd, hb]) l ⟨hal l hl.1, hbl l hl.2⟩

/-- R24: a stripped entry shares no level with the entry that superseded it. -/
theorem strip_apart (a e : Entry) : Apart (a.strip e.dest e.mask) e := by
  intro hd l hl
  unfold Entry.strip at hd hl
  split at hl
  · simp only [has_minus, Bool.and_eq_true, Bool.not_eq_true'] at hl
    rw [hl.2] at hl; simp at hl
  · next h => rw [if_neg h] at hd; exact h hd

theorem stripEntries_length (d : Nat) (mask : LevelMask) (es : List Entry) : (stripEntries d mask es).length ≤ es.length :=
  (List.length_filter_le _ _).trans (by rw [List.length_map])

/-- R24: an accepted entry supersedes the pending ones, and then all of them are apart. -/
theorem pairwise_accept {es : List Entry} (e : Entry) (h : es.Pairwise Apart) :
    (stripEntries e.dest e.mask es ++ [e]).Pairwise Apart := by
  have stripped : (es.map (Entry.strip e.dest e.mask)).Pairwise Apart :=
    List.pairwise_map.2 (h.imp fun h => h.strip e.dest e.mask)
  refine List.pairwise_append.2 ⟨stripped.filter _, List.pairwise_singleton _ _, fun a ha b hb => ?_⟩
  obtain ⟨x, -, rfl⟩ := List.mem_map.1 (List.mem_filter.1 ha).1
  obtain rfl := List.mem_singleton.1 hb
  exact strip_apart x b

theorem stripEntries_append (d : Nat) (mask : LevelMask) (es fs : List Entry) :
    stripEntries d mask (es ++ fs) = stripEntries d mask es ++ stripEntries d mask fs := by
  unfold stripEntries; rw [List.map_append, List.filter_append]

/-- R24, R25: supersession strips the pending entries in place; the groups that it empties hold none. -/
theorem entriesOf_superseded (d : Nat) (mask : LevelMask) (gs : List TakeGroup) :
    entriesOf (supersededQueue d mask gs) = stripEntries d mask (entriesOf gs) := by
  unfold entriesOf supersededQueue
  induction gs with
  | nil => rfl
  | cons g gs ih =>
    rw [List.map_cons, List.filter_cons, List.flatMap_cons, stripEntries_append, ← ih]
    split
    · rfl
    · next h =>
      have empty : (g.strip d mask).entries = [] := by simpa using h
      rw [show stripEntries d mask g.entries = [] from empty]; rfl

/-- R23, R25: a group holds 1..32 entries. -/
def TakeGroup.sized (g : TakeGroup) : Prop := 1 ≤ g.entries.length ∧ g.entries.length ≤ 32

theorem superseded_sized {d : Nat} {mask : LevelMask} {gs : List TakeGroup} (h : ∀ g ∈ gs, g.sized) :
    ∀ g ∈ supersededQueue d mask gs, g.sized := by
  intro g hg
  obtain ⟨hm, hne⟩ := List.mem_filter.1 hg
  obtain ⟨x, hx, rfl⟩ := List.mem_map.1 hm
  refine ⟨?_, (stripEntries_length d mask x.entries).trans (h x hx).2⟩
  exact List.length_pos_iff.2 (by simpa using hne)

/-- R27 step 4: the entries of the queue and of the firing after the passing entries are accepted one by one. -/
theorem acceptedEntries_entries (es : List Entry) (r : List Entry × List TakeGroup × List Message) :
    entriesOf (acceptedEntries es r).2.1 ++ (acceptedEntries es r).1 =
      es.foldl (fun l e => stripEntries e.dest e.mask l ++ [e]) (entriesOf r.2.1 ++ r.1) := by
  induction es generalizing r with
  | nil => rfl
  | cons e es ih => rw [acceptedEntries, ih, List.foldl_cons, entriesOf_superseded, stripEntries_append, List.append_assoc]

theorem foldl_accept {es l : List Entry} (h : l.Pairwise Apart) :
    (es.foldl (fun l e => stripEntries e.dest e.mask l ++ [e]) l).Pairwise Apart ∧
      (es.foldl (fun l e => stripEntries e.dest e.mask l ++ [e]) l).length ≤ l.length + es.length := by
  induction es generalizing l with
  | nil => exact ⟨h, le_rfl⟩
  | cons e es ih =>
    obtain ⟨apart, length⟩ := ih (pairwise_accept e h)
    have := stripEntries_length e.dest e.mask l
    simp only [List.foldl_cons, List.length_cons, List.length_append, List.length_nil] at *
    exact ⟨apart, by omega⟩

/-- R27 step 4: the entries of the firing, and the groups left in the queue. -/
theorem acceptedEntries_sizes (es : List Entry) (r : List Entry × List TakeGroup × List Message)
    (h : ∀ g ∈ r.2.1, g.sized) :
    (∀ g ∈ (acceptedEntries es r).2.1, g.sized) ∧ (acceptedEntries es r).1.length ≤ r.1.length + es.length ∧
      (es ≠ [] → 1 ≤ (acceptedEntries es r).1.length) := by
  induction es generalizing r with
  | nil => exact ⟨h, le_rfl, nofun⟩
  | cons e es ih =>
    rw [acceptedEntries]
    obtain ⟨groups, most, least⟩ := ih (stripEntries e.dest e.mask r.1 ++ [e], supersededQueue e.dest e.mask r.2.1, _)
      (superseded_sized h)
    have := stripEntries_length e.dest e.mask r.1
    simp only [List.length_append, List.length_cons, List.length_nil] at most ⊢
    refine ⟨groups, by omega, fun _ => ?_⟩
    cases es with
    | nil => simp [acceptedEntries]
    | cons f fs => exact least (by simp)

/-! ### The bounds of the takes -/

theorem QueueBounded.congr {s t : State} (hs : QueueBounded s) (h : t.takes = s.takes) : QueueBounded t := by
  simp only [State.takes, Prod.mk.injEq] at h
  obtain ⟨queue, window, salvos⟩ := h
  obtain ⟨h1, h2, h3, h4, h5⟩ := hs
  constructor
  · unfold State.pendingEntries State.drawnEntries at *; rw [queue, window]; exact h1
  · rw [queue]; exact h2
  · rw [queue]; exact h3
  · unfold State.salvo at *; rw [salvos]; exact h4
  · rw [window]; exact h5

theorem QueueBounded.rc {s t : State} (hs : QueueBounded s) (h : t.rc = s.rc) : QueueBounded t :=
  hs.congr (State.takes_of_rc h)

/-- A queue in which the entries are apart, the groups are sized and there is room meets the bounds, the window and the
salvos as they were. -/
theorem QueueBounded.queued {s t : State} (hs : QueueBounded s) (hw : t.rc.window = s.rc.window)
    (hv : t.rc.salvos = s.rc.salvos) (apart : (entriesOf t.rc.queue).Pairwise Apart) (sized : ∀ g ∈ t.rc.queue, g.sized)
    (room : (entriesOf t.rc.queue).length + s.drawnEntries ≤ Config.takeRoom) : QueueBounded t := by
  have drawn : t.drawnEntries = s.drawnEntries := by unfold State.drawnEntries; rw [hw]
  refine ⟨?_, sized, apart, ?_, by rw [hw]; exact hs.writes⟩
  · rw [drawn, State.pendingEntries, entriesOf_length]; exact room
  · intro n; have := hs.salvos n; unfold State.salvo at *; rwa [hv]

theorem QueueBounded.apart {s : State} (hs : QueueBounded s) : (entriesOf s.rc.queue).Pairwise Apart := hs.disjoint

theorem QueueBounded.length {s : State} (hs : QueueBounded s) : (entriesOf s.rc.queue).length + s.drawnEntries ≤ 64 := by
  rw [← entriesOf_length]; exact hs.room

theorem entriesOf_append (gs hs : List TakeGroup) : entriesOf (gs ++ hs) = entriesOf gs ++ entriesOf hs :=
  List.flatMap_append

theorem freeRoom_eq (s : State) : s.freeRoom = 64 - (entriesOf s.rc.queue).length - s.drawnEntries := by
  rw [← entriesOf_length]; rfl

/-- R22 to R25: an accepted take keeps the bounds. -/
theorem queueBounded_offerTake {e : Entry} {s t : State} (hs : QueueBounded s) (h : offerTake e s = .ok t) :
    QueueBounded t := by
  unfold offerTake at h
  split at h
  · cases h
  · next x _ =>
    split at h
    · cases h
    · next room =>
      cases h
      obtain ⟨fs, eq, -⟩ := supersede_eq x.dest x.mask s
      rw [eq]
      have entries : entriesOf (supersededQueue x.dest x.mask s.rc.queue ++ [⟨none, [x]⟩]) =
          stripEntries x.dest x.mask (entriesOf s.rc.queue) ++ [x] := by
        rw [entriesOf_append, entriesOf_superseded]; rfl
      have shorter := stripEntries_length x.dest x.mask (entriesOf s.rc.queue)
      rw [freeRoom_eq] at room
      refine hs.queued rfl rfl ?_ ?_ ?_
      · exact entries ▸ pairwise_accept x hs.apart
      · intro g hg
        rcases List.mem_append.1 hg with hg | hg
        · exact superseded_sized hs.groups g hg
        · obtain rfl := List.mem_singleton.1 hg; exact ⟨le_rfl, by simp⟩
      · show (entriesOf (_ ++ [_])).length + _ ≤ 64
        rw [entries, List.length_append, List.length_singleton]; omega

/-- R27: an accepted firing keeps the bounds. -/
theorem queueBounded_fireSalvo {n : Nat} {o : Origin} {force : Bool} {s t : State} (hs : QueueBounded s)
    (h : fireSalvo n o force s = .accepted t) : QueueBounded t := by
  unfold fireSalvo at h
  dsimp only at h
  split at h
  · cases h
  · next some_pass =>
    split at h
    · cases h
    · next room =>
      injection h with h
      obtain ⟨fs, eq, -⟩ := acceptEntries_eq (s.passing n o force) [] s
      rw [eq] at h
      subst h
      rw [freeRoom_eq, Nat.not_lt] at room
      have passing : (s.passing n o force).length ≤ 32 := (List.length_filterMap_le _ _).trans (hs.salvos n)
      have entries := acceptedEntries_entries (s.passing n o force) ([], s.rc.queue, [])
      obtain ⟨groups, most, least⟩ := acceptedEntries_sizes (s.passing n o force) ([], s.rc.queue, []) hs.groups
      obtain ⟨apart, length⟩ := foldl_accept (es := s.passing n o force) (l := entriesOf s.rc.queue ++ [])
        (by rw [List.append_nil]; exact hs.apart)
      have queue : ∀ f, entriesOf ((acceptedEntries (s.passing n o force) ([], s.rc.queue, [])).2.1 ++
          [⟨f, (acceptedEntries (s.passing n o force) ([], s.rc.queue, [])).1⟩]) =
          (s.passing n o force).foldl (fun l e => stripEntries e.dest e.mask l ++ [e]) (entriesOf s.rc.queue ++ []) := by
        intro f; rw [entriesOf_append, ← entries]; simp [entriesOf]
      refine hs.queued rfl rfl ?_ ?_ ?_
      · exact (queue _) ▸ apart
      · intro g hg
        rcases List.mem_append.1 hg with hg | hg
        · exact groups g hg
        · obtain rfl := List.mem_singleton.1 hg
          simp only [List.length_nil, Nat.zero_add] at most
          exact ⟨least (by simpa using some_pass), most.trans passing⟩
      · show (entriesOf (_ ++ [_])).length + _ ≤ 64
        rw [queue]
        rw [List.length_append, List.length_nil] at length
        have := hs.length
        omega

/-- R39: the close of a window keeps the bounds: its entries are drawn no more. -/
theorem queueBounded_closeWindow {w : Window} {s : State} (hs : QueueBounded s) : QueueBounded (closeWindow w s) := by
  have takes := takes_closeWindow w s
  simp only [State.takes, Prod.mk.injEq] at takes
  obtain ⟨queue, window, salvos⟩ := takes
  have room := hs.length
  refine ⟨?_, by rw [queue]; exact hs.groups, by rw [queue]; exact hs.disjoint, ?_, by rw [window]; nofun⟩
  · rw [State.pendingEntries, State.drawnEntries, window, queue, entriesOf_length]
    exact (Nat.le_add_right _ _).trans room
  · intro n; have := hs.salvos n; unfold State.salvo at *; rwa [salvos]

/-- R34 to R37: a window that opens draws entries out of the queue and carries at most 128 writes. -/
theorem queueBounded_openWindow {s : State} (hs : QueueBounded s) : QueueBounded (openWindow s) := by
  obtain ⟨drawn, rest, split, eq, bound⟩ := drain_split s 0 s.rc.queue (Nat.zero_le _)
  rw [Nat.zero_add] at bound
  have room := hs.length
  have apart := hs.apart
  have groups := hs.groups
  rw [split] at room groups apart
  rw [entriesOf_append, List.length_append] at room
  rw [entriesOf_append] at apart
  have opened : QueueBounded { s with rc := { s.rc with
      queue := rest
      window := some ⟨s.rc.windows + 1, drawn.map s.draw, (drawn.map s.draw).flatMap s.writesOf⟩
      windows := s.rc.windows + 1 } } := by
    refine ⟨?_, fun g hg => groups g (List.mem_append.2 (.inr hg)), (List.pairwise_append.1 apart).2.1, hs.salvos, ?_⟩
    · have : ((drawn.map s.draw).map fun g => g.entries.length).sum = (entriesOf drawn).length := by
        rw [← entriesOf_length, List.map_map]; congr 2; funext g; simp [State.draw]
      simp only [State.pendingEntries, State.drawnEntries, this, entriesOf_length]
      show _ ≤ 64; omega
    · rintro w ⟨⟩; exact bound
  unfold openWindow
  dsimp only
  rw [eq]
  split
  · exact queueBounded_closeWindow opened
  · exact opened

theorem queueBounded_switchPoint {s : State} (hs : QueueBounded s) : QueueBounded (switchPoint s) := by
  unfold switchPoint
  split
  · exact hs
  · split
    · exact hs
    · exact queueBounded_openWindow hs

theorem queueBounded_takeAnswer {s : State} (n d : Nat) (l : Level) (a : Bool) (hs : QueueBounded s) :
    QueueBounded (takeAnswer n d l a s) := by
  unfold takeAnswer
  split
  · exact hs
  · next w hw =>
    split
    · refine ite_keeps (P := QueueBounded) (fun _ => ?_) fun _ => queueBounded_closeWindow hs
      have room := hs.room
      refine ⟨?_, hs.groups, hs.disjoint, hs.salvos, ?_⟩
      · unfold State.pendingEntries State.drawnEntries at *; rw [hw] at room; exact room
      · rintro _ ⟨⟩; rw [List.length_map]; exact hs.writes w hw
    · exact hs

theorem queueBounded_expireWindow {s : State} (hs : QueueBounded s) : QueueBounded (expireWindow s) := by
  unfold expireWindow
  split
  · exact hs
  · exact queueBounded_closeWindow hs

theorem queueBounded_panelTake {s : State} (p k d : Nat) (m : LevelMask) (x : Nat) (hs : QueueBounded s) :
    QueueBounded (panelTake p k d m x s) := by
  unfold panelTake
  split
  · next h => exact queueBounded_offerTake hs h
  · exact hs.rc (by simp)

theorem queueBounded_panelFiring {s : State} (p k n : Nat) (hs : QueueBounded s) : QueueBounded (panelFiring p k n s) := by
  unfold panelFiring
  split
  · exact hs.rc (by simp)
  · exact hs
  · next h => exact (queueBounded_fireSalvo hs h).rc (by simp)

theorem queueBounded_carryOut {s : State} (p k : Nat) (f : FunctionAction) (hs : QueueBounded s) :
    QueueBounded (carryOut p k f s) := by
  unfold carryOut
  split
  · exact queueBounded_panelTake p k _ _ _ hs
  · exact hs.rc (by simp)
  · exact hs.rc (by simp)
  · split
    · exact queueBounded_panelTake p k _ _ _ hs
    · exact hs.rc (by simp)
  · exact queueBounded_panelFiring p k _ hs
  · exact hs.congr (by simp)
  · split
    · exact hs.congr (by simp)
    · exact hs.rc (by simp)
  · exact hs.rc (by simp)
  · exact hs.rc (by simp)
  · exact hs.rc (by simp)
  · exact hs.rc (by simp)

theorem queueBounded_handlePress {s : State} (p k : Nat) (hs : QueueBounded s) : QueueBounded (handlePress p k s) := by
  unfold handlePress
  split
  · split
    · exact hs
    · split
      · split
        · exact hs.rc (by simp)
        · exact hs
      · split
        · exact queueBounded_carryOut p k _ hs
        · exact hs.rc (by simp)
  · exact hs.rc (by simp)

theorem queueBounded_storeSalvo {s : State} (n : Nat) {es : List StoredEntry} (h : es.length ≤ 32) (hs : QueueBounded s) :
    QueueBounded { s with rc := { s.rc with salvos := s.rc.salvos.set [] n es } } := by
  refine ⟨hs.room, hs.groups, hs.disjoint, fun m => ?_, hs.writes⟩
  show ((s.rc.salvos.set [] n es).get [] m).length ≤ 32
  by_cases hm : m = n
  · rw [hm, Table.get_set_self]; exact h
  · rw [Table.get_set_ne _ _ hm]; exact hs.salvos m

/-- The start values of the Route Controller meet the bounds. -/
theorem queueBounded_start {t : State} (hq : t.rc.queue = []) (hw : t.rc.window = none) (hv : t.rc.salvos = ⟨[]⟩) :
    QueueBounded t := by
  refine ⟨?_, by simp [hq], by simp [hq], ?_, by simp [hw]⟩
  · simp [State.pendingEntries, State.drawnEntries, hq, hw]
  · simp [State.salvo, hv]

theorem queueBounded_offline : Offline QueueBounded := ⟨fun _ _ hs => hs.rc rfl, fun _ _ hs => hs.rc rfl⟩

theorem queueBounded_effect {s t : State} {mark : Bool} (h : Effect s mark t) (hs : QueueBounded s) : QueueBounded t := by
  cases h with
  | powerOn => exact queueBounded_start rfl rfl rfl
  | restartAll => exact queueBounded_start rfl rfl rfl
  | take e t accepted => exact (queueBounded_offerTake hs accepted).congr (by simp)
  | storeSalvo n es short => exact queueBounded_storeSalvo n short hs
  | fireSalvo n o force t accepted => exact (queueBounded_fireSalvo hs accepted).congr (by simp)
  | switchPoint v => exact queueBounded_switchPoint (hs.rc rfl)
  | takeAnswer n d l a => exact queueBounded_takeAnswer n d l a hs
  | expireWindow => exact queueBounded_expireWindow hs
  | press p k es => exact (queueBounded_handlePress p k (hs.rc (t := s.withEvents es) rfl)).congr (by simp)
  | setDomain | setProtect | rewriteProtects | mapDevice | retryDevice | completeReadback | failReadback | removePanel =>
    exact hs.congr (by simp <;> rfl)
  | _ => exact hs.rc (by simp <;> rfl)

theorem queueBounded_step {s t : State} (hs : QueueBounded s) (h : step s = .next t) : QueueBounded t :=
  step_keeps queueBounded_offline (fun _ _ => queueBounded_effect) h hs

end Sys2Proof.Machine

/-! The bounds of the remaining tables and counters (R51, R70, R79, R140, R145, R153, R154, R172), which every step keeps. -/

namespace Sys2Proof.Machine

/-! ### What leaves them -/

/-- The state of a panel and its counters that R140 and R153 bound. -/
def Panel.counters (v : Panel) : PanelState × Nat × Nat × Nat := (v.state, v.missed, v.errors, v.lastWindow)

/-- The state and the bounded counters of every declared panel. -/
def PanelBus.counters (b : PanelBus) (p : Nat) : Option (PanelState × Nat × Nat × Nat) := (b.panels.find? p).map Panel.counters

/-- What the bounds of the remaining tables read, and the states of the panels and the transaction in flight beside. -/
def State.tables (s : State) : List CallEntry × Table Nat × Table Port × List KeyEvent × Nat ×
    (Nat → Option (PanelState × Nat × Nat × Nat)) × List SystemKeyEntry × Option Transaction :=
  (s.tou.holders, s.tt.ties, s.tc.ports, s.pbc.events, s.pbc.threshold, s.pbc.counters, s.fd.systemKeys, s.pbc.transaction)

theorem foldl_tables {β : Type} (f : State → β → State) (h : ∀ s b, (f s b).tables = s.tables) (l : List β) (s : State) :
    (l.foldl f s).tables = s.tables := foldl_keeps f State.tables h l s

theorem counters_mapValues (b : PanelBus) (f : Nat → Panel → Panel) (h : ∀ p v, (f p v).counters = v.counters) :
    { b with panels := b.panels.mapValues f }.counters = b.counters := by
  funext p
  unfold PanelBus.counters
  rw [Table.find?_mapValues, Option.map_map]
  cases b.panels.find? p with
  | none => rfl
  | some v => exact congrArg some (h p v)

/-- A panel written without touching its counters. -/
theorem counters_setPanel {s : State} {p : Nat} {v w : Panel} (hv : s.panel? p = some v) (h : w.counters = v.counters) :
    (s.setPanel p w).pbc.counters = s.pbc.counters := by
  funext q
  unfold PanelBus.counters
  show ((s.setPanel p w).panel? q).map _ = (s.panel? q).map _
  by_cases hq : q = p
  · rw [hq, State.panel?_setPanel_self, hv]; exact congrArg some h
  · rw [State.panel?_setPanel_ne _ hq]

theorem tables_setPanel {s : State} {p : Nat} {v w : Panel} (hv : s.panel? p = some v) (h : w.counters = v.counters) :
    (s.setPanel p w).tables = s.tables := by simp [State.tables, counters_setPanel hv h]

theorem Panel.withLamps_counters (f : Nat → Lamp) (v : Panel) : (v.withLamps f).counters = v.counters := by
  rw [Panel.withLamps_eq, Panel.counters, Panel.counters]

@[simp] theorem tables_relamp (s : State) : (relamp s).tables = s.tables := by
  simp only [State.tables, relamp, counters_mapValues _ _ fun p v => Panel.withLamps_counters _ v]

@[simp] theorem tables_raise (f : Flag) (s : State) : (raise f s).tables = s.tables := by simp [State.tables]

@[simp] theorem tables_keyRefusal (p k : Nat) (why : Reason) (s : State) : (keyRefusal p k why s).tables = s.tables := by
  unfold keyRefusal
  split
  · next v hv =>
    rw [tables_raise]
    exact tables_setPanel (w := { v with lastRefusal := some (k, why) }) hv rfl
  · rfl

@[simp] theorem tables_evaluatePanelErrors (s : State) : (evaluatePanelErrors s).tables = s.tables := by
  simp only [evaluatePanelErrors, handOver_eq]; rfl

@[simp] theorem tables_panelStateChanged (s : State) : (panelStateChanged s).tables = s.tables := by
  rw [panelStateChanged, tables_evaluatePanelErrors, tables_raise]

/-! The Route Controller. -/

@[simp] theorem tables_rewriteProtects (f : Protect → Protect) (s : State) : (rewriteProtects f s).tables = s.tables := by
  simp [State.tables]

@[simp] theorem tables_setContext (p : Nat) (v : Context) (s : State) : (s.setContext p v).tables = s.tables := by
  simp [State.tables]

@[simp] theorem tables_setPendingFirings (p n v : Nat) (s : State) : (s.setPendingFirings p n v).tables = s.tables := by
  simp [State.tables]

@[simp] theorem tables_setHeld (p k : Nat) (v : Option Held) (s : State) : (s.setHeld p k v).tables = s.tables := by
  simp [State.tables]

@[simp] theorem tables_dropHeld (p : Nat) (s : State) : (dropHeld p s).tables = s.tables := rfl

@[simp] theorem tables_clearProtects (p : Nat) (s : State) : (clearProtects p s).tables = s.tables :=
  tables_rewriteProtects _ s

@[simp] theorem tables_issueDeferred (tag : Byte) (c : ReplyCode) (d : List Byte) (s : State) :
    (issueDeferred tag c d s).tables = s.tables := by simp [State.tables]

@[simp] theorem tables_endFiring (f : Firing) (s : State) : (endFiring f s).tables = s.tables := by
  unfold endFiring; split <;> simp

@[simp] theorem tables_endSuperseded (g left : TakeGroup) (s : State) : (endSuperseded g left s).tables = s.tables := by
  unfold endSuperseded
  split
  · simp
  · split
    · rfl
    · split <;> simp

@[simp] theorem tables_supersede (d : Nat) (m : LevelMask) (s : State) : (supersede d m s).tables = s.tables := by
  unfold supersede; exact foldl_tables _ (fun s g => tables_endSuperseded g _ s) _ _

theorem tables_offerTake {e : Entry} {s t : State} (h : offerTake e s = .ok t) : t.tables = s.tables := by
  unfold offerTake at h
  split at h
  · cases h
  · split at h
    · cases h
    · cases h; exact tables_supersede _ _ s

theorem tables_acceptEntries (es own : List Entry) (s : State) : (acceptEntries es own s).2.tables = s.tables := by
  induction es generalizing own s with
  | nil => rfl
  | cons e es ih => rw [acceptEntries, ih, tables_supersede]

theorem tables_fireSalvo {n : Nat} {o : Origin} {force : Bool} {s t : State} (h : fireSalvo n o force s = .accepted t) :
    t.tables = s.tables := by
  unfold fireSalvo at h
  dsimp only at h
  split at h
  · cases h
  · split at h
    · cases h
    · cases h; exact tables_acceptEntries _ _ s

@[simp] theorem tables_reportGroup (ws : List Write) (s : State) (g : DrawnGroup) : (reportGroup ws s g).tables = s.tables := by
  unfold reportGroup
  split
  · refine foldl_tables _ (fun s x => ?_) _ s
    unfold reportTake; split <;> simp
  · exact tables_endFiring _ s

/-! The tallies and the talks. -/

@[simp] theorem tables_driveAll (s : State) : (driveAll s).tables = s.tables := rfl

@[simp] theorem tables_retrace (s : State) : (retrace s).tables = s.tables := rfl

@[simp] theorem tables_handling (a s : State) : (handling a s).tables = s.tables := by simp [State.tables]

@[simp] theorem tables_resolveAgain (f : Talk → Bool) (s : State) : (resolveAgain f s).tables = s.tables := rfl

@[simp] theorem tables_resolveOnair (s : State) : (resolveOnair s).tables = s.tables := by
  unfold resolveOnair; dsimp only; split <;> simp

@[simp] theorem tables_recomputeTally (s : State) : (recomputeTally s).tables = s.tables := by
  unfold recomputeTally tallyChange; dsimp only; (repeat' split) <;> simp

@[simp] theorem tables_routeChange (s : State) : (routeChange s).tables = s.tables := by simp [routeChange]

@[simp] theorem tables_setMixer (m : Nat) (v : Mixer) (s : State) : (s.setMixer m v).tables = s.tables := rfl

@[simp] theorem tables_staleBridge (p : Nat) (s : State) : (staleBridge p s).tables = s.tables := by
  unfold staleBridge; exact foldl_tables _ (fun s m => by split <;> rfl) _ _

@[simp] theorem tables_staleAllBridges (s : State) : (staleAllBridges s).tables = s.tables := by
  unfold staleAllBridges; exact foldl_tables _ (fun s m => by split <;> rfl) _ _

@[simp] theorem tables_applyBusState (p b i : Nat) (s : State) : (applyBusState p b i s).tables = s.tables := by
  unfold applyBusState; (repeat' split) <;> simp

@[simp] theorem tables_announceInterrupters (a s : State) : (announceInterrupters a s).tables = s.tables := by
  unfold announceInterrupters; split <;> simp

@[simp] theorem tables_endTalks (ids : List Nat) (s : State) : (endTalks ids s).tables = s.tables := by
  unfold endTalks
  split
  · simp [removeTalks]; rfl
  · rfl

@[simp] theorem tables_createTalk (t : Talk) (s : State) : (createTalk t s).tables = s.tables := by
  have joined : (joinTalk t s).tables = s.tables := by unfold joinTalk; split <;> rfl
  have entered : ∀ x, (enterArbitration t x).tables = x.tables := fun x => by
    unfold enterArbitration; (repeat' split) <;> rfl
  simp [createTalk, entered, joined]

@[simp] theorem tables_setKey (p k : Nat) (v : KeyTalk) (s : State) : (s.setKey p k v).tables = s.tables := by
  simp [State.tables]

@[simp] theorem tables_idleKeys (p : Nat) (s : State) : (idleKeys p s).tables = s.tables := rfl

@[simp] theorem tables_dropPanelTalks (p : Nat) (s : State) : (dropPanelTalks p s).tables = s.tables := by
  simp [dropPanelTalks]

@[simp] theorem tables_loseTalk (p k : Nat) (s : State) : (loseTalk p k s).tables = s.tables := by
  unfold loseTalk; dsimp only; split <;> simp

@[simp] theorem tables_cameraChange (c : Nat) (ds : List Domain) (s : State) : (cameraChange c ds s).tables = s.tables := by
  have recounted : ∀ x, (recount ds x).tables = x.tables := fun _ => rfl
  have removed : ∀ ids x, (removeTalks ids x).tables = x.tables := fun _ _ => rfl
  unfold cameraChange
  dsimp only
  refine (foldl_tables _ (fun x t => ?_) _ _).trans ?_
  · unfold forcedEnding; split <;> simp
  · rw [tables_announceInterrupters]
    (repeat' split) <;> simp [recounted, removed]

@[simp] theorem tables_writeIfb (n : Nat) (v : Option Ifb) (s : State) : (writeIfb n v s).tables = s.tables := by
  simp [writeIfb]; rfl

@[simp] theorem tables_evaluateLampFault (s : State) : (evaluateLampFault s).tables = s.tables := by
  simp [evaluateLampFault, handOver_eq, State.tables]

@[simp] theorem tables_setOutput (n : Nat) (v : Output) (s : State) : (s.setOutput n v).tables = s.tables := rfl

@[simp] theorem tables_recompute (s : State) : (recompute s).tables = s.tables := rfl

@[simp] theorem tables_transmit (s : State) : (transmit s).tables = s.tables := by simp [State.tables]

/-! The window. -/

@[simp] theorem tables_closeWindow (w : Window) (s : State) : (closeWindow w s).tables = s.tables := by
  have written : (w.writes.foldl applyWrite s).tables = s.tables :=
    foldl_tables _ (fun s w => by simp [State.tables]) _ _
  have reported : ∀ x : State, (w.groups.foldl (reportGroup w.writes) x).tables = x.tables :=
    foldl_tables _ (tables_reportGroup w.writes) _
  have evaluated : ∀ x, (evaluateFabric x).tables = x.tables := fun x => by simp [State.tables]
  have begun : ∀ x, (beginExchanges x).tables = x.tables := fun _ => rfl
  have closed : ∀ x : State, { x with rc := { x.rc with window := none } }.tables = x.tables := fun _ => rfl
  unfold closeWindow
  dsimp only
  split <;> simp only [begun, tables_routeChange, tables_relamp, reported, closed, evaluated, written]

@[simp] theorem tables_switchPoint (s : State) : (switchPoint s).tables = s.tables := by
  unfold switchPoint openWindow
  split
  · rfl
  · split
    · rfl
    · dsimp only
      split
      · exact tables_closeWindow _ _
      · rfl

@[simp] theorem tables_expireWindow (s : State) : (expireWindow s).tables = s.tables := by
  unfold expireWindow; split <;> simp

@[simp] theorem tables_takeAnswer (n d : Nat) (l : Level) (a : Bool) (s : State) :
    (takeAnswer n d l a s).tables = s.tables := by
  unfold takeAnswer
  split
  · rfl
  · split
    · exact ite_keeps (P := fun t => t.tables = s.tables) (fun _ => rfl) fun _ => tables_closeWindow _ s
    · rfl

@[simp] theorem tables_endReadback (n : Nat) (v : Device) (k : ReadbackKind) (p : DevicePhase) (x : List LevelState)
    (s : State) : (endReadback n v k p x s).tables = s.tables := by
  have done : ∀ x, (readbackDone k x).tables = x.tables := fun x => by unfold readbackDone; dsimp only; split <;> simp
  have evaluated : ∀ x, (evaluateFabric x).tables = x.tables := fun x => by simp [State.tables]
  simp only [endReadback, tables_routeChange, evaluated, done]
  simp [State.tables]

@[simp] theorem tables_completeReadback (n : Nat) (x : List Nat) (s : State) : (completeReadback n x s).tables = s.tables := by
  unfold completeReadback; (repeat' split) <;> simp

@[simp] theorem tables_failReadback (n : Nat) (s : State) : (failReadback n s).tables = s.tables := by
  unfold failReadback; (repeat' split) <;> simp

end Sys2Proof.Machine


namespace Sys2Proof.Machine

/-! ### What changes the remaining tables -/

/-- R140, R153: the bounds of the counters of a panel. -/
def Panel.Bounded (v : Panel) : Prop :=
  v.missed ≤ 2 ∧ v.errors ≤ Config.errorCounterTop ∧ v.lastWindow ≤ Config.errorCounterTop

/-- R140, R145, R153, R154: the bounds of the Panel Bus Controller. -/
structure PanelBus.Bounded (b : PanelBus) : Prop where
  events : b.events.length ≤ Config.keyEventPlaces
  threshold : 1 ≤ b.threshold ∧ b.threshold ≤ 255
  panels : ∀ p v, b.panels.find? p = some v → v.Bounded

theorem TablesBounded.bounded {s : State} (hs : TablesBounded s) : s.pbc.Bounded := ⟨hs.events, hs.threshold, hs.panels⟩

theorem TablesBounded.bus {s : State} (hs : TablesBounded s) {b : PanelBus} (hb : b.Bounded) :
    TablesBounded { s with pbc := b } :=
  ⟨hs.calls, hs.ties, hs.volumes, hb.events, hb.threshold, hb.panels, hs.systemKeys⟩

theorem TablesBounded.congr {s t : State} (hs : TablesBounded s) (h : t.tables = s.tables) : TablesBounded t := by
  simp only [State.tables, Prod.mk.injEq] at h
  obtain ⟨holders, ties, ports, events, threshold, counters, keys, -⟩ := h
  obtain ⟨h1, h2, h3, h4, h5, h6, h7⟩ := hs
  refine ⟨by rwa [holders], by rwa [ties], fun q => ?_, by rwa [events], by rwa [threshold], fun p v hv => ?_, by rwa [keys]⟩
  · unfold State.port at *; rw [ports]; exact h3 q
  · have counted : t.pbc.counters p = some v.counters := congrArg (Option.map Panel.counters) hv
    rw [counters] at counted
    obtain ⟨w, hw, same⟩ := Option.map_eq_some_iff.1 counted
    simp only [Panel.counters, Prod.mk.injEq] at same
    obtain ⟨-, missed, errors, lastWindow⟩ := same
    have bounds := h6 p w hw
    rwa [missed, errors, lastWindow] at bounds

theorem TablesBounded.setPanel {s : State} (hs : TablesBounded s) (p : Nat) {v : Panel} (hv : v.Bounded) :
    TablesBounded (s.setPanel p v) := by
  refine hs.bus ⟨hs.events, hs.threshold, fun q w hw => ?_⟩
  by_cases hq : q = p
  · subst hq; rw [Table.find?_put_self] at hw; cases hw; exact hv
  · rw [Table.find?_put_ne _ hq] at hw; exact hs.panels q w hw

theorem tablesBounded_setHolders {s : State} (hs : TablesBounded s) {l : List CallEntry} (h : l.length ≤ 64) :
    TablesBounded (setHolders l s) :=
  ⟨h, hs.ties, hs.volumes, hs.events, hs.threshold, hs.panels, hs.systemKeys⟩

theorem tablesBounded_callPress {s : State} (hs : TablesBounded s) (p k c : Nat) : TablesBounded (callPress p k c s) := by
  unfold callPress
  split
  · exact hs
  · split
    · exact hs
    · split
      · exact hs.congr (tables_keyRefusal ..)
      · next h => exact tablesBounded_setHolders hs (by rw [List.length_append]; simp only [Config.callPlaces] at h; simp; omega)

theorem tablesBounded_callRelease {s : State} (hs : TablesBounded s) (p k : Nat) : TablesBounded (callRelease p k s) := by
  unfold callRelease
  split
  · exact tablesBounded_setHolders hs ((List.length_filter_le _ _).trans hs.calls)
  · exact hs

theorem tablesBounded_dropPanelCalls {s : State} (hs : TablesBounded s) (p : Nat) : TablesBounded (dropPanelCalls p s) := by
  unfold dropPanelCalls
  split
  · exact tablesBounded_setHolders hs ((List.length_filter_le _ _).trans hs.calls)
  · exact hs

theorem tablesBounded_dropAllCalls {s : State} (hs : TablesBounded s) : TablesBounded (dropAllCalls s) := by
  unfold dropAllCalls
  split
  · exact hs
  · exact tablesBounded_setHolders hs (by simp)

theorem tablesBounded_offerSystemKey {s : State} (hs : TablesBounded s) (e : SystemKeyEntry) :
    TablesBounded (offerSystemKey e s) := by
  unfold offerSystemKey
  refine TablesBounded.congr ?_ (tables_raise ..)
  split
  · next h =>
    exact ⟨hs.calls, hs.ties, hs.volumes, hs.events, hs.threshold, hs.panels, by
      show (s.fd.systemKeys ++ [e]).length ≤ _; rw [List.length_append]; exact h⟩
  · exact hs

theorem tablesBounded_setPort {s : State} (hs : TablesBounded s) (q : Nat) {v : Port} (hv : -120 ≤ v.volume ∧ v.volume ≤ 0) :
    TablesBounded (s.setPort q v) := by
  refine ⟨hs.calls, hs.ties, fun r => ?_, hs.events, hs.threshold, hs.panels, hs.systemKeys⟩
  by_cases hr : r = q
  · rw [hr, State.port_setPort_self]; exact hv
  · rw [State.port_setPort_ne _ hr]; exact hs.volumes r

theorem tablesBounded_handleKnob {s : State} (hs : TablesBounded s) (p : Nat) (delta : Int) :
    TablesBounded (handleKnob p delta s) := by
  unfold handleKnob
  split
  · exact hs
  · split
    · split
      · exact hs
      · refine (tablesBounded_setPort hs _ ?_).congr (tables_recompute _)
        show -120 ≤ max (-120) (min 0 _) ∧ max (-120) (min 0 _) ≤ 0
        omega
    · exact hs

/-! The panel bus. -/

theorem PanelBus.Bounded.put {b : PanelBus} (hb : b.Bounded) {p : Nat} {v w : Panel} (hv : b.panels.find? p = some v)
    (h : w.counters = v.counters) (q : Nat) (x : Panel) (hx : (b.panels.put p w).find? q = some x) : x.Bounded := by
  by_cases hq : q = p
  · subst hq
    rw [Table.find?_put_self] at hx; cases hx
    simp only [Panel.counters, Prod.mk.injEq] at h
    obtain ⟨-, missed, errors, lastWindow⟩ := h
    unfold Panel.Bounded; rw [missed, errors, lastWindow]; exact hb.panels q v hv
  · rw [Table.find?_put_ne _ hq] at hx; exact hb.panels q x hx

theorem sendPoll_bounded {b : PanelBus} (hb : b.Bounded) (p : Nat) : (sendPoll p b).Bounded := by
  unfold sendPoll
  split
  · exact hb
  · next hv => exact ⟨hb.events, hb.threshold, hb.put hv rfl⟩

theorem sendProbe_bounded {b : PanelBus} (hb : b.Bounded) (p : Nat) : (sendProbe p b).Bounded := by
  unfold sendProbe
  split
  · exact hb
  · exact ⟨hb.events, hb.threshold, hb.panels⟩

theorem startCycle_bounded {b : PanelBus} (hb : b.Bounded) : (startCycle b).Bounded := by
  have reset : { b with lastPolled := 0 }.Bounded := ⟨hb.events, hb.threshold, hb.panels⟩
  unfold startCycle
  dsimp only
  split
  · exact sendPoll_bounded reset _
  · split
    · exact sendProbe_bounded reset _
    · exact ⟨hb.events, hb.threshold, hb.panels⟩

theorem nextCycle_bounded {b : PanelBus} (hb : b.Bounded) : (nextCycle b).Bounded :=
  startCycle_bounded ⟨hb.events, hb.threshold, hb.panels⟩

theorem chooseNext_bounded {b : PanelBus} (hb : b.Bounded) (wasProbe : Bool) : (chooseNext wasProbe b).Bounded := by
  unfold chooseNext
  split
  · exact startCycle_bounded ⟨hb.events, hb.threshold, hb.panels⟩
  · split
    · exact nextCycle_bounded hb
    · split
      · exact sendPoll_bounded hb _
      · split
        · exact sendProbe_bounded hb _
        · exact nextCycle_bounded hb

theorem tablesBounded_countError {s : State} (hs : TablesBounded s) (p : Nat) (k : ErrorKind) :
    TablesBounded (countError p k s) := by
  unfold countError
  split
  · exact hs
  · next v hv =>
    obtain ⟨missed, errors, lastWindow⟩ := hs.panels p v hv
    split
    · next h =>
      have counted : TablesBounded (s.setPanel p { v with lastError := k, errors := v.errors + 1 }) :=
        hs.setPanel p ⟨missed, h, lastWindow⟩
      dsimp only
      split
      · exact counted.congr (tables_raise ..)
      · exact counted
    · exact hs.setPanel p ⟨missed, errors, lastWindow⟩

theorem tablesBounded_losePanel {s : State} (hs : TablesBounded s) {p : Nat} {v : Panel} (hv : s.panel? p = some v) :
    TablesBounded (losePanel p v s) := by
  obtain ⟨-, errors, lastWindow⟩ := hs.panels p v hv
  have lost : TablesBounded (s.setPanel p { v with state := .lost, missed := 0, page := false }) :=
    hs.setPanel p ⟨Nat.zero_le _, errors, lastWindow⟩
  have dropped := tablesBounded_dropPanelCalls (lost.congr (by rw [tables_dropPanelTalks, tables_setContext] :
    (dropPanelTalks p (State.setContext _ p Context.start)).tables = _)) p
  exact dropped.congr (by rw [losePanel, tables_panelStateChanged, tables_staleBridge])

theorem tablesBounded_missPoll {s : State} (hs : TablesBounded s) (p : Nat) : TablesBounded (missPoll p s) := by
  unfold missPoll
  split
  · exact hs
  · next v hv =>
    split
    · exact tablesBounded_losePanel hs hv
    · next h =>
      obtain ⟨-, errors, lastWindow⟩ := hs.panels p v hv
      exact hs.setPanel p ⟨by show v.missed + 1 ≤ 2; omega, errors, lastWindow⟩

theorem Panel.acknowledge_counters (es : List (Nat × Lamp)) (v : Panel) : (v.acknowledge es).counters = v.counters := by
  unfold Panel.acknowledge
  induction es generalizing v with
  | nil => rfl
  | cons e es ih => rw [List.foldl_cons, ih]; rfl

theorem Panel.forgetSent_counters (v : Panel) : v.forgetSent.counters = v.counters := by
  unfold Panel.forgetSent
  rw [(Panel.forget_lamps _ _ 0).1, Panel.counters, Panel.counters]

theorem Panel.Bounded.congr {v w : Panel} (hv : v.Bounded) (h : w.counters = v.counters) : w.Bounded := by
  simp only [Panel.counters, Prod.mk.injEq] at h
  obtain ⟨-, missed, errors, lastWindow⟩ := h
  unfold Panel.Bounded; rw [missed, errors, lastWindow]; exact hv

theorem Panel.Bounded.forgetSent {v : Panel} (hv : v.Bounded) : v.forgetSent.Bounded := hv.congr v.forgetSent_counters

theorem tablesBounded_takeEvents {s : State} (hs : TablesBounded s) {p : Nat} {v : Panel} (hv : s.panel? p = some v)
    (bit : Bool) (events : List PanelAction) : TablesBounded (takeEvents p v bit events s) := by
  have taken : TablesBounded (s.setPanel p { v with seqBit := bit }) := hs.setPanel p (hs.panels p v hv)
  unfold takeEvents
  split
  · exact taken
  · exact hs
  · exact hs
  · split
    · exact hs
    · split
      · next room =>
        refine taken.bus ⟨?_, taken.threshold, taken.panels⟩
        show (s.pbc.events ++ _).length ≤ _
        rw [List.length_append, List.length_map]; exact room
      · exact hs

theorem tablesBounded_answeredPoll {s : State} (hs : TablesBounded s) (p : Nat) (es : List (Nat × Lamp)) :
    TablesBounded (answeredPoll p es s) := by
  unfold answeredPoll
  split
  · exact hs
  · next v hv =>
    obtain ⟨-, errors, lastWindow⟩ := hs.panels p v hv
    have answered : (Panel.acknowledge es { v with missed := 0 }).Bounded :=
      Panel.Bounded.congr (v := { v with missed := 0 }) ⟨Nat.zero_le _, errors, lastWindow⟩ (Panel.acknowledge_counters es _)
    dsimp only
    split
    · exact (hs.setPanel p (v := { Panel.acknowledge es { v with missed := 0 } with state := .online }) answered).congr
        (tables_panelStateChanged _)
    · exact hs.setPanel p answered

theorem tablesBounded_takeIdent {s : State} (hs : TablesBounded s) (p : Nat) (expected kind : PanelKind) (keys : Nat)
    (bit : Bool) : TablesBounded (takeIdent p expected kind keys bit s) := by
  unfold takeIdent
  split
  · exact hs
  · next v hv =>
    obtain ⟨-, errors, lastWindow⟩ := hs.panels p v hv
    split
    · refine TablesBounded.congr (hs.setPanel p (Panel.Bounded.forgetSent ?_)) (tables_panelStateChanged _)
      exact ⟨Nat.zero_le _, errors, lastWindow⟩
    · exact tablesBounded_countError hs p _

theorem tablesBounded_outcome {s : State} (hs : TablesBounded s) (t : Transaction) (j : BusJudgement) :
    TablesBounded (outcome t j s) := by
  unfold outcome
  split
  · exact hs
  · exact tablesBounded_countError hs _ _
  · exact tablesBounded_takeIdent hs _ _ _ _ _
  · exact tablesBounded_countError hs _ _
  · exact tablesBounded_missPoll (tablesBounded_countError hs _ _) _
  · exact tablesBounded_missPoll (tablesBounded_countError hs _ _) _
  · unfold takeReply
    split
    · exact hs
    · next hv => exact tablesBounded_answeredPoll (tablesBounded_takeEvents hs hv _ _) _ _
  · exact tablesBounded_missPoll (tablesBounded_countError hs _ _) _

theorem tablesBounded_endTransaction {s : State} (hs : TablesBounded s) (j : Transaction → State → BusJudgement) :
    TablesBounded (endTransaction j s) := by
  unfold endTransaction
  split
  · exact hs
  · next t _ =>
    have ended : TablesBounded { s with pbc := { s.pbc with transaction := none } } :=
      hs.bus ⟨hs.events, hs.threshold, hs.panels⟩
    have judged : TablesBounded (if t.discard then { s with pbc := { s.pbc with transaction := none } }
        else relamp (outcome t (j t s) { s with pbc := { s.pbc with transaction := none } })) :=
      ite_keeps (fun _ => ended) fun _ => (tablesBounded_outcome ended t _).congr (tables_relamp _)
    exact judged.bus (chooseNext_bounded judged.bounded _)

theorem tablesBounded_endEmptyCycle {s : State} (hs : TablesBounded s) : TablesBounded (endEmptyCycle s) := by
  unfold endEmptyCycle
  split
  · exact hs
  · exact hs.bus (nextCycle_bounded hs.bounded)

theorem tablesBounded_mapPanels {s : State} (hs : TablesBounded s) (f : Nat → Panel → Panel)
    (h : ∀ p v, v.Bounded → (f p v).Bounded) :
    TablesBounded { s with pbc := { s.pbc with panels := s.pbc.panels.mapValues f } } := by
  refine hs.bus ⟨hs.events, hs.threshold, fun p v hv => ?_⟩
  rw [Table.find?_mapValues] at hv
  obtain ⟨w, hw, rfl⟩ := Option.map_eq_some_iff.1 hv
  exact h p w (hs.panels p w hw)

theorem tablesBounded_transfer {s : State} (hs : TablesBounded s) : TablesBounded (transfer s) := by
  have moved := tablesBounded_mapPanels hs (fun _ v => v.transferred s.pbc.threshold)
    fun _ v hv => ⟨hv.1, Nat.zero_le _, hv.2.1⟩
  unfold transfer
  dsimp only
  split
  · exact moved.congr (tables_panelStateChanged _)
  · exact moved

theorem tablesBounded_removePanel {s : State} (hs : TablesBounded s) (p : Nat) (v : Panel) :
    TablesBounded (removePanel p v s) := by
  have erased : ∀ t, TablesBounded { s with pbc := { s.pbc with panels := s.pbc.panels.erase p, transaction := t } } := by
    intro t
    refine hs.bus ⟨hs.events, hs.threshold, fun q w hw => ?_⟩
    by_cases hq : q = p
    · subst hq; rw [Table.find?_erase_self] at hw; cases hw
    · rw [Table.find?_erase_ne _ hq] at hw; exact hs.panels q w hw
  have cleared : ∀ x, (dropPanelTalks p (dropHeld p ((clearProtects p x).setContext p Context.start))).tables = x.tables :=
    fun x => by simp
  unfold removePanel
  dsimp only
  split
  · exact (tablesBounded_dropPanelCalls ((erased _).congr (cleared _)) p).congr (tables_staleBridge ..)
  · exact (tablesBounded_dropPanelCalls ((erased _).congr (cleared _)) p).congr
      ((tables_panelStateChanged _).trans (tables_staleBridge ..))

theorem tablesBounded_restartPanels {s : State} (hs : TablesBounded s) : TablesBounded (restartPanels s) := by
  have restarted (v : Panel) (hv : v.Bounded) : v.restarted.Bounded :=
    Panel.Bounded.forgetSent ⟨Nat.zero_le _, hv.2⟩
  have bus : (restartBus s.pbc).Bounded := by
    refine ⟨Nat.zero_le _, hs.threshold, fun p v hv => ?_⟩
    replace hv : (s.pbc.panels.mapValues fun _ v => v.restarted).find? p = some v := hv
    rw [Table.find?_mapValues] at hv
    obtain ⟨w, hw, rfl⟩ := Option.map_eq_some_iff.1 hv
    exact restarted w (hs.panels p w hw)
  have start : TablesBounded { s with pbc := restartBus s.pbc, fd := { s.fd with contexts := ⟨[]⟩, held := ⟨[]⟩ } } :=
    TablesBounded.congr (hs.bus bus) rfl
  have ended : ∀ x, (idleAllKeys (endTalks (State.talkIds x Talk.ofAnyPanel) x)).tables = x.tables :=
    fun x => tables_endTalks _ x
  have dropped := tablesBounded_dropAllCalls (start.congr (ended _))
  unfold restartPanels
  dsimp only
  refine ite_keeps (P := TablesBounded) (fun _ => ?_) fun _ => TablesBounded.bus ?_ (startCycle_bounded (TablesBounded.bounded ?_))
  all_goals
    refine dropped.congr ?_
    rw [tables_relamp]
    split <;> simp

/-! The map of ties. -/

theorem insertEntry_length {α : Type} (k : Nat) (v : α) (l : List (Nat × α)) (h : ascending l = true) :
    (insertEntry k v l).length = if (lookup l k).isSome then l.length else l.length + 1 := by
  induction l with
  | nil => rfl
  | cons e es ih =>
    unfold insertEntry lookup
    by_cases eq : e.1 = k
    · simp [eq]
    · by_cases before : k < e.1
      · have absent : lookup es k = none := by
          cases hl : lookup es k with
          | none => rfl
          | some x => have := ((ascending_cons e es).1 h).1 _ (lookup_mem hl); simp at this; omega
        simp [eq, before, absent]
      · rw [if_neg before, if_neg eq, if_neg eq, List.length_cons, ih ((ascending_cons e es).1 h).2]
        split <;> simp

theorem tablesBounded_setTie {s : State} (hs : TablesBounded s) (x d : Nat)
    (room : s.tie? x = none → s.tt.ties.entries.length < Config.tiePlaces) :
    TablesBounded { s with tt := { s.tt with ties := s.tt.ties.put x d } } := by
  refine ⟨hs.calls, ⟨Table.ascending_put _ x d hs.ties.1, ?_⟩, hs.volumes, hs.events, hs.threshold, hs.panels, hs.systemKeys⟩
  show (insertEntry x d s.tt.ties.entries).length ≤ _
  rw [insertEntry_length x d _ hs.ties.1]
  split
  · exact hs.ties.2
  · next h => exact room (Option.not_isSome_iff_eq_none.1 h)

theorem tablesBounded_clearTie {s : State} (hs : TablesBounded s) (x : Nat) :
    TablesBounded { s with tt := { s.tt with ties := s.tt.ties.erase x } } :=
  ⟨hs.calls, ⟨Table.ascending_erase _ x hs.ties.1, (List.length_filter_le _ _).trans hs.ties.2⟩, hs.volumes, hs.events,
    hs.threshold, hs.panels, hs.systemKeys⟩

/-! The key events. -/

@[simp] theorem tables_panelTake (p k d : Nat) (m : LevelMask) (x : Nat) (s : State) :
    (panelTake p k d m x s).tables = s.tables := by
  unfold panelTake
  split
  · next h => exact tables_offerTake h
  · exact tables_keyRefusal ..

@[simp] theorem tables_panelToggle (p k d : Nat) (s : State) : (panelToggle p k d s).tables = s.tables := by
  unfold panelToggle
  split
  · simp [State.tables]
  · exact tables_keyRefusal ..

@[simp] theorem tables_panelFiring (p k n : Nat) (s : State) : (panelFiring p k n s).tables = s.tables := by
  unfold panelFiring
  split
  · exact tables_keyRefusal ..
  · rfl
  · next h => rw [tables_setPendingFirings, tables_fireSalvo h]

@[simp] theorem tables_togglePage (p : Nat) (s : State) : (togglePage p s).tables = s.tables := by
  unfold togglePage
  split
  · next v hv => exact tables_setPanel (w := { v with page := !v.page }) hv rfl
  · rfl

@[simp] theorem tables_pressIdle (p k : Nat) (t : Target) (m : TalkMode) (l : Int) (n : Nat) (s : State) :
    (pressIdle p k t m l n s).tables = s.tables := by
  unfold pressIdle; dsimp only; (repeat' split) <;> simp

@[simp] theorem tables_pressOwned (p k : Nat) (s : State) : (pressOwned p k s).tables = s.tables := by
  unfold pressOwned; dsimp only; split <;> simp

@[simp] theorem tables_releaseOwned (p k : Nat) (s : State) : (releaseOwned p k s).tables = s.tables := by
  unfold releaseOwned; dsimp only; split <;> simp

theorem tablesBounded_carryOut {s : State} (hs : TablesBounded s) (p k : Nat) (f : FunctionAction) :
    TablesBounded (carryOut p k f s) := by
  have held (v : Option Held) : TablesBounded (s.setHeld p k v) := hs.congr (tables_setHeld ..)
  unfold carryOut
  split
  case h_9 c => exact tablesBounded_callPress (held _) p k _
  case h_11 => exact tablesBounded_offerSystemKey (held _) _
  all_goals (repeat' split) <;> exact hs.congr (by simp)

theorem tablesBounded_handlePress {s : State} (hs : TablesBounded s) (p k : Nat) : TablesBounded (handlePress p k s) := by
  unfold handlePress
  split
  · split
    · exact hs
    · split
      · split
        · exact hs.congr (tables_keyRefusal ..)
        · exact hs
      · split
        · exact tablesBounded_carryOut hs p k _
        · unfold handOnUncaptured
          split
          · exact hs.congr (tables_pressIdle ..)
          · exact tablesBounded_callPress hs p k _
          · exact hs
  · exact hs.congr (tables_pressOwned ..)

theorem tablesBounded_handleRelease {s : State} (hs : TablesBounded s) (p k : Nat) :
    TablesBounded (handleRelease p k s) := by
  unfold handleRelease
  split
  · split
    · exact hs
    · exact (tablesBounded_callRelease hs p k).congr (tables_setHeld ..)
    · exact (tablesBounded_offerSystemKey hs _).congr (tables_setHeld ..)
  · exact hs.congr (tables_releaseOwned ..)

/-- The rest of the key event queue. -/
theorem tablesBounded_withEvents {s : State} (hs : TablesBounded s) {es : List KeyEvent} (h : es <:+ s.pbc.events) :
    TablesBounded (s.withEvents es) :=
  hs.bus ⟨h.length_le.trans hs.events, hs.threshold, hs.panels⟩

/-- The start values of the blocks meet the bounds. -/
theorem tablesBounded_start {t : State} (hh : t.tou.holders = []) (ht : t.tt.ties = ⟨[]⟩) (hq : t.tc.ports = ⟨[]⟩)
    (he : t.pbc.events = []) (hm : t.pbc.threshold = 8) (hp : t.pbc.panels = ⟨[]⟩) (hk : t.fd.systemKeys = []) :
    TablesBounded t := by
  refine ⟨by simp [hh], by simp [ht, ascending], ?_, by simp [he], by simp [hm], ?_, by simp [hk]⟩
  · simp [State.port, hq, Port.start]
  · simp [State.panel?, hp]

theorem tablesBounded_offline : Offline TablesBounded := ⟨fun _ _ hs => hs.congr rfl, fun _ _ hs => hs.congr rfl⟩

theorem tablesBounded_effect {s t : State} {mark : Bool} (h : Effect s mark t) (hs : TablesBounded s) : TablesBounded t := by
  cases h with
  | powerOn => exact tablesBounded_start rfl rfl rfl rfl rfl rfl rfl
  | restartAll => exact tablesBounded_start rfl rfl rfl rfl rfl rfl rfl
  | restartPanels => exact tablesBounded_restartPanels hs
  | restartTalk =>
    refine hs.congr ?_
    rw [restartTalk, tables_relamp]
    exact tables_endTalks _ { s with fd := { s.fd with contexts := ⟨[]⟩ } }
  | take e t accepted => exact hs.congr (by rw [tables_relamp, tables_offerTake accepted])
  | fireSalvo n o force t accepted => exact hs.congr (by rw [tables_relamp, tables_fireSalvo accepted])
  | setTie x d room => exact (tablesBounded_setTie hs x d room).congr (by simp)
  | clearTie x => exact (tablesBounded_clearTie hs x).congr (by simp)
  | setPort q v fits =>
    simp only [Port.inRange, withinInt, Bool.and_eq_true, decide_eq_true_eq] at fits
    exact (tablesBounded_setPort hs q fits.1.1.1.2).congr (tables_recompute _)
  | declarePanel p a fresh =>
    have declared : a.declared.Bounded := ⟨Nat.zero_le _, Nat.zero_le _, Nat.zero_le _⟩
    exact (hs.setPanel p declared).congr (by simp)
  | changePanel p v a found =>
    have changed := hs.setPanel p (v := { v with kind := a.kind, access := a.access, domain := a.domain, ownPort := a.ownPort })
      (hs.panels p v found)
    exact changed.congr (tables_relamp _)
  | removePanel p v => exact (tablesBounded_removePanel hs p v).congr (tables_relamp _)
  | countMode m threshold range => exact hs.bus ⟨hs.events, range, hs.panels⟩
  | transfer => exact (tablesBounded_transfer hs).congr (tables_relamp _)
  | endTransaction j => exact tablesBounded_endTransaction hs j
  | endEmptyCycle => exact tablesBounded_endEmptyCycle hs
  | press p k es rest => exact (tablesBounded_handlePress (tablesBounded_withEvents hs rest) p k).congr (tables_relamp _)
  | release p k es rest => exact (tablesBounded_handleRelease (tablesBounded_withEvents hs rest) p k).congr (tables_relamp _)
  | knob p delta es rest => exact tablesBounded_handleKnob (tablesBounded_withEvents hs rest) p delta
  | busState p bus input es rest => exact (tablesBounded_withEvents hs rest).congr (by simp)
  | takeSystemKeys => exact ⟨hs.calls, hs.ties, hs.volumes, hs.events, hs.threshold, hs.panels, Nat.zero_le _⟩
  | setBinding p page k f =>
    refine hs.congr ((tables_relamp _).trans ?_)
    unfold writeBinding; dsimp only; rfl
  | setDomain | setProtect | mapDevice | retryDevice | setLamp =>
    exact hs.congr ((tables_relamp _).trans (by simp [State.tables]))
  | setMixerSource | setGroup | storeSalvo | timing | flashClock => exact hs.congr rfl
  | setFunction => exact hs.congr ((tables_relamp _).trans rfl)
  | setRoot | selectBuses | setMaps => exact hs.congr (by rw [tables_relamp, tables_recomputeTally]; rfl)
  | setCamera => exact hs.congr (by rw [tables_relamp, tables_cameraChange]; rfl)
  | switchPoint => exact hs.congr (by rw [tables_switchPoint]; rfl)
  | writeOutput => exact hs.congr (by simp [writeOutput])
  | setFault => exact hs.congr (by simp [setFault])
  | talkOn => exact hs.congr (by simp [endSlot])
  | endSlot => exact hs.congr (by simp [endSlot])
  | expireTimer p k =>
    refine hs.congr ((tables_relamp _).trans ?_)
    unfold expireTimer; dsimp only; split <;> simp
  | none => exact hs
  | rewriteProtects | completeReadback | failReadback | takeAnswer | expireWindow | configureIfb | unconfigureIfb =>
    exact hs.congr (by simp)

/-- Settles O55: an effect that touches a bounded table keeps its bound, and every other leaves what the bounds read. -/
theorem tablesStayBounded : Obligations.TablesStayBounded :=
  ⟨fun _ _ => queueBounded_step, fun _ _ hs h => step_keeps tablesBounded_offline (fun _ _ => tablesBounded_effect) h hs⟩

end Sys2Proof.Machine

/-! The drives of the tally outputs (R68, R69) and the panel lamps (R174 to R176): what they are, and that every step keeps
them derived from the state. -/

namespace Sys2Proof.Machine

/-! ### The drive rule -/

theorem any_calls_iff (s : State) (n : Nat) :
    (numbers 1 24).any (s.calls n) = true ↔ ∃ c, (1 ≤ c ∧ c ≤ 24) ∧ s.calledBy n c := by
  simp only [List.any_eq_true, mem_numbers, within_iff, State.calls_iff]

theorem driveOf_called {s : State} {n : Nat} (hc : (s.output n).config ≠ none) (hf : (s.output n).fault ≠ .short)
    (h : ∃ c, (1 ≤ c ∧ c ≤ 24) ∧ s.calledBy n c) : s.driveOf n = .flash := by
  obtain ⟨v, hv⟩ := Option.ne_none_iff_exists'.1 hc
  simp only [State.driveOf, hv, hf, (any_calls_iff s n).2 h, if_true, if_false]

theorem driveOf_uncalled {s : State} {n : Nat} {v : OutputConfig} (hv : (s.output n).config = some v)
    (hf : (s.output n).fault ≠ .short) (h : ∀ c, 1 ≤ c ∧ c ≤ 24 → ¬s.calledBy n c) :
    s.driveOf n = match v.mode with
      | .forceOn => .on
      | .forceOff => .off
      | .auto => if (s.colours v.domain v.source).meets v.mask then .on else .off := by
  have uncalled : ¬(numbers 1 24).any (s.calls n) = true := fun hc => by
    obtain ⟨c, range, called⟩ := (any_calls_iff s n).1 hc
    exact h c range called
  simp only [State.driveOf, hv, hf, uncalled, if_false]
  cases v.mode <;> rfl

/-- R68: the first row of the table that holds gives the drive. -/
theorem driveRule (s : State) (n : Nat) : DriveRule s n where
  unset h := by simp only [State.driveOf, h]
  short h := by
    unfold State.driveOf
    split
    · rfl
    · simp [h]
  called := driveOf_called
  uncalled v hv hf h := by
    rw [driveOf_uncalled hv hf h]
    refine ⟨fun hm => by rw [hm], fun hm => by rw [hm], fun hm hmeets => ?_, fun hm hmeets => ?_⟩
    · rw [hm, if_pos ((ColourSet.meets_iff _ _).2 hmeets)]
    · have apart : ¬(s.colours v.domain v.source).meets v.mask = true := fun hx => by
        obtain ⟨c, hc⟩ := (ColourSet.meets_iff _ _).1 hx
        exact hmeets c hc
      rw [hm, if_neg apart]

/-! ### Every step keeps the drives -/

/-- A drive reads the outputs, the cameras, the calls and the colour sets. -/
theorem driveOf_same {s t : State} (outputs : t.tou.outputs = s.tou.outputs) (cameras : t.tou.cameras = s.tou.cameras)
    (holders : t.tou.holders = s.tou.holders) (colours : t.colours = s.colours) (n : Nat) : t.driveOf n = s.driveOf n := by
  have calls : t.calls n = s.calls n := by
    funext c; unfold State.calls State.camera? State.callCount; rw [cameras, holders, colours]
  unfold State.driveOf State.output; rw [outputs, calls, colours]

theorem DrivesAgree.congr {s t : State} (hs : DrivesAgree s) (outputs : t.tou.outputs = s.tou.outputs)
    (cameras : t.tou.cameras = s.tou.cameras) (holders : t.tou.holders = s.tou.holders) (colours : t.colours = s.colours) :
    DrivesAgree t := by
  intro n
  rw [driveOf_same outputs cameras holders colours, ← hs n, State.output, State.output, outputs]

/-- The tally outputs and the colour tables as they were. -/
theorem DrivesAgree.kept {s t : State} (hs : DrivesAgree s) (tou : t.tou = s.tou) (tt : t.tt = s.tt) : DrivesAgree t :=
  hs.congr (by rw [tou]) (by rw [tou]) (by rw [tou]) (by unfold State.colours; rw [tt])

/-- R69: after a re-evaluation every drive is the derived one. -/
theorem drivesAgree_driveAll (s : State) : DrivesAgree (driveAll s) := by
  intro n
  rw [output_driveAll]
  exact (driveOf_congr (s := s) (t := driveAll s) (fun m => by rw [output_driveAll]; exact ⟨rfl, rfl⟩) rfl rfl rfl n).symm

theorem drivesAgree_evaluateLampFault {s : State} (hs : DrivesAgree s) : DrivesAgree (evaluateLampFault s) := by
  rw [evaluateLampFault, handOver_eq]; exact hs

theorem tallyChange_tou (s : State) : (tallyChange s).tou = (driveAll s).tou := by
  simp [tallyChange]

/-- R61, R69: a recomputation that changes a colour set re-evaluates the drives. -/
theorem drivesAgree_recomputeTally {s : State} (hs : DrivesAgree s) : DrivesAgree (recomputeTally s) := by
  have differs := retrace_differs_iff s
  unfold recomputeTally
  dsimp only
  have faulted : ∀ b : Bool, (if b = true then raise .traceFault (retrace s) else retrace s).tou = s.tou ∧
      (if b = true then raise .traceFault (retrace s) else retrace s).tt = (retrace s).tt := by
    intro b; split <;> simp
  split
  · exact (drivesAgree_driveAll _).kept (tallyChange_tou _) (by simp [tallyChange])
  · next same =>
    have colours : (retrace s).colours = s.colours := by
      funext dom x
      by_contra h
      exact same (differs.2 ⟨dom, x, h⟩)
    obtain ⟨tou, tt⟩ := faulted (newFault s.tt.roots (retrace s).tt.roots)
    exact hs.congr (by rw [tou]) (by rw [tou]) (by rw [tou]) (by rw [← colours]; unfold State.colours; rw [tt])

theorem drivesAgree_relamp {s : State} (hs : DrivesAgree s) : DrivesAgree (relamp s) := hs

theorem drivesAgree_routeChange {s : State} (hs : DrivesAgree s) : DrivesAgree (routeChange s) :=
  drivesAgree_relamp (drivesAgree_recomputeTally hs)

theorem drivesAgree_retraced {s t : State} (hs : DrivesAgree s) (tou : t.tou = s.tou) (a : t.tt.coloursA = s.tt.coloursA)
    (b : t.tt.coloursB = s.tt.coloursB) : DrivesAgree (relamp (recomputeTally t)) :=
  drivesAgree_routeChange (hs.congr (by rw [tou]) (by rw [tou]) (by rw [tou]) (by unfold State.colours; rw [a, b]))

theorem drivesAgree_setHolders {s : State} (l : List CallEntry) : DrivesAgree (setHolders l s) := drivesAgree_driveAll _

theorem drivesAgree_dropPanelCalls {s : State} (p : Nat) (hs : DrivesAgree s) : DrivesAgree (dropPanelCalls p s) := by
  unfold dropPanelCalls
  split
  · exact drivesAgree_setHolders _
  · exact hs

theorem drivesAgree_dropAllCalls {s : State} (hs : DrivesAgree s) : DrivesAgree (dropAllCalls s) := by
  unfold dropAllCalls
  split
  · exact hs
  · exact drivesAgree_setHolders _

theorem staleBridge_colours (p : Nat) (s : State) : (staleBridge p s).colours = s.colours := by
  unfold staleBridge
  exact foldl_keeps _ State.colours (fun s m => by split <;> rfl) _ s

theorem staleAllBridges_colours (s : State) : (staleAllBridges s).colours = s.colours := by
  unfold staleAllBridges
  exact foldl_keeps _ State.colours (fun s m => by split <;> rfl) _ s

theorem drivesAgree_staleBridge {s : State} (p : Nat) (hs : DrivesAgree s) : DrivesAgree (staleBridge p s) :=
  hs.congr (by simp) (by simp) (by simp) (staleBridge_colours p s)

theorem drivesAgree_staleAllBridges {s : State} (hs : DrivesAgree s) : DrivesAgree (staleAllBridges s) :=
  hs.congr (by simp) (by simp) (by simp) (staleAllBridges_colours s)

theorem drivesAgree_panelStateChanged {s : State} (hs : DrivesAgree s) : DrivesAgree (panelStateChanged s) :=
  hs.kept (by simp) (by simp)

/-- R151, R135: the loss or the removal of a panel. -/
theorem drivesAgree_dropPanel {s t : State} (p : Nat) (hs : DrivesAgree s) (tou : t.tou = s.tou) (tt : t.tt = s.tt) :
    DrivesAgree (staleBridge p (dropPanelCalls p (dropPanelTalks p t))) :=
  drivesAgree_staleBridge p (drivesAgree_dropPanelCalls p (hs.kept (by simp [tou]) (by simp [tt])))

theorem drivesAgree_removePanel {s : State} (p : Nat) (v : Panel) (hs : DrivesAgree s) : DrivesAgree (removePanel p v s) := by
  have dropped := fun b => drivesAgree_dropPanel (t := dropHeld p ((clearProtects p { s with pbc := b }).setContext p
    Context.start)) p hs (by simp) (by simp)
  unfold removePanel
  dsimp only
  split
  · exact dropped _
  · exact drivesAgree_panelStateChanged (dropped _)

theorem drivesAgree_missPoll {s : State} (p : Nat) (hs : DrivesAgree s) : DrivesAgree (missPoll p s) := by
  unfold missPoll
  split
  · exact hs
  · split
    · exact drivesAgree_panelStateChanged (drivesAgree_dropPanel p hs rfl rfl)
    · exact hs

theorem drivesAgree_outcome {s : State} (t : Transaction) (j : BusJudgement) (hs : DrivesAgree s) :
    DrivesAgree (outcome t j s) := by
  unfold outcome
  split
  case h_5 | h_6 | h_8 => exact drivesAgree_missPoll _ (hs.kept (by simp) (by simp))
  all_goals exact hs.kept (by simp) (by simp)

theorem drivesAgree_endTransaction {s : State} (j : Transaction → State → BusJudgement) (hs : DrivesAgree s) :
    DrivesAgree (endTransaction j s) := by
  unfold endTransaction
  split
  · exact hs
  · next t _ =>
    exact DrivesAgree.kept (s := if t.discard then { s with pbc := { s.pbc with transaction := none } }
        else relamp (outcome t (j t s) { s with pbc := { s.pbc with transaction := none } }))
      (ite_keeps (fun _ => hs) fun _ => drivesAgree_outcome t _ hs) rfl rfl

theorem drivesAgree_restartPanels {s : State} (hs : DrivesAgree s) : DrivesAgree (restartPanels s) := by
  have dropped : DrivesAgree (staleAllBridges (dropAllCalls (idleAllKeys (endTalks
      (State.talkIds { s with pbc := restartBus s.pbc, fd := { s.fd with contexts := ⟨[]⟩, held := ⟨[]⟩ } } Talk.ofAnyPanel)
      { s with pbc := restartBus s.pbc, fd := { s.fd with contexts := ⟨[]⟩, held := ⟨[]⟩ } })))) :=
    drivesAgree_staleAllBridges (drivesAgree_dropAllCalls (hs.kept (by simp) (by simp)))
  unfold restartPanels
  dsimp only
  refine ite_keeps (P := DrivesAgree) (fun _ => ?_) fun _ => DrivesAgree.kept (drivesAgree_relamp ?_) rfl rfl
  all_goals exact ite_keeps (fun _ => drivesAgree_panelStateChanged dropped) fun _ => dropped.kept (by simp) (by simp)

theorem drivesAgree_closeWindow {s : State} (w : Window) (hs : DrivesAgree s) : DrivesAgree (closeWindow w s) := by
  have written := foldl_keeps applyWrite State.tou (fun s w => applyWrite_tou s w) w.writes s
  have traced := foldl_keeps applyWrite State.tt (fun s w => applyWrite_tt s w) w.writes s
  have reported := foldl_keeps (reportGroup w.writes) State.tou (fun s g => reportGroup_tou _ s g) w.groups
  have reportedTally := foldl_keeps (reportGroup w.writes) State.tt (fun s g => reportGroup_tt _ s g) w.groups
  have before : DrivesAgree (w.groups.foldl (reportGroup w.writes)
      { evaluateFabric (w.writes.foldl applyWrite s) with
        rc := { (evaluateFabric (w.writes.foldl applyWrite s)).rc with window := none } }) :=
    hs.kept (by rw [reported]; simp [written]) (by rw [reportedTally]; simp [traced])
  unfold closeWindow
  dsimp only
  refine DrivesAgree.kept (s := if _ then routeChange _ else relamp _) ?_ rfl rfl
  exact ite_keeps (fun _ => drivesAgree_routeChange before) fun _ => drivesAgree_relamp before

theorem drivesAgree_switchPoint {s : State} (hs : DrivesAgree s) : DrivesAgree (switchPoint s) := by
  unfold switchPoint openWindow
  split
  · exact hs
  · split
    · exact hs
    · exact ite_keeps (P := DrivesAgree) (fun _ => drivesAgree_closeWindow _ hs) fun _ => hs

theorem drivesAgree_takeAnswer {s : State} (n d : Nat) (l : Level) (a : Bool) (hs : DrivesAgree s) :
    DrivesAgree (takeAnswer n d l a s) := by
  unfold takeAnswer
  split
  · exact hs
  · split
    · exact ite_keeps (P := DrivesAgree) (fun _ => hs) fun _ => drivesAgree_closeWindow _ hs
    · exact hs

theorem drivesAgree_expireWindow {s : State} (hs : DrivesAgree s) : DrivesAgree (expireWindow s) := by
  unfold expireWindow
  split
  · exact hs
  · exact drivesAgree_closeWindow _ hs

theorem drivesAgree_endReadback {s : State} (n : Nat) (v : Device) (k : ReadbackKind) (p : DevicePhase) (x : List LevelState)
    (hs : DrivesAgree s) : DrivesAgree (endReadback n v k p x s) :=
  drivesAgree_routeChange (hs.kept (by simp) (by simp))

theorem drivesAgree_completeReadback {s : State} (n : Nat) (x : List Nat) (hs : DrivesAgree s) :
    DrivesAgree (completeReadback n x s) := by
  unfold completeReadback
  split
  · exact hs
  · split
    · exact ite_keeps (fun _ => drivesAgree_endReadback _ _ _ _ _ hs) fun _ => hs
    · exact hs

theorem drivesAgree_failReadback {s : State} (n : Nat) (hs : DrivesAgree s) : DrivesAgree (failReadback n s) := by
  unfold failReadback
  split
  · exact hs
  · split
    · exact drivesAgree_endReadback _ _ _ _ _ hs
    · exact hs

theorem drivesAgree_callPress {s : State} (p k c : Nat) (hs : DrivesAgree s) : DrivesAgree (callPress p k c s) := by
  unfold callPress
  refine ite_keeps (fun _ => hs) fun _ => ite_keeps (fun _ => hs) fun _ => ite_keeps (fun _ => ?_) fun _ => ?_
  · exact hs.kept (by simp) (by simp)
  · exact drivesAgree_setHolders _

theorem drivesAgree_carryOut {s : State} (p k : Nat) (f : FunctionAction) (hs : DrivesAgree s) :
    DrivesAgree (carryOut p k f s) := by
  unfold carryOut
  split
  case h_9 => exact drivesAgree_callPress _ _ _ hs
  all_goals (repeat' split) <;> exact hs.kept (by simp) (by simp)

theorem drivesAgree_handlePress {s : State} (p k : Nat) (hs : DrivesAgree s) : DrivesAgree (handlePress p k s) := by
  unfold handlePress
  split
  · split
    · exact hs
    · split
      · exact ite_keeps (fun _ => hs.kept (by simp) (by simp)) fun _ => hs
      · refine ite_keeps (fun _ => drivesAgree_carryOut _ _ _ hs) fun _ => ?_
        unfold handOnUncaptured
        split
        · exact hs.kept (by simp) (by simp)
        · exact drivesAgree_callPress _ _ _ hs
        · exact hs
  · exact hs.kept (by simp) (by simp)

theorem drivesAgree_handleRelease {s : State} (p k : Nat) (hs : DrivesAgree s) : DrivesAgree (handleRelease p k s) := by
  unfold handleRelease callRelease
  split
  · split
    · exact hs
    · exact DrivesAgree.kept (s := if _ then _ else s) (ite_keeps (fun _ => drivesAgree_setHolders _) fun _ => hs) rfl rfl
    · exact hs.kept (by simp) (by simp)
  · exact hs.kept (by simp) (by simp)

theorem drivesAgree_applyBusState {s : State} (p b i : Nat) (hs : DrivesAgree s) : DrivesAgree (applyBusState p b i s) := by
  unfold applyBusState
  split
  · exact hs
  · exact ite_keeps (fun _ => drivesAgree_recomputeTally hs) fun _ => hs

/-- No output is set. -/
theorem drivesAgree_start {t : State} (h : t.tou.outputs = ⟨[]⟩) : DrivesAgree t := by
  intro n
  simp [State.driveOf, State.output, h, Output.start]

theorem drivesAgree_offline : Offline DrivesAgree := ⟨fun _ _ hs => hs, fun _ _ hs => hs⟩

theorem drivesAgree_effect {s t : State} {mark : Bool} (h : Effect s mark t) (hs : DrivesAgree s) : DrivesAgree t := by
  cases h with
  | powerOn | restartAll => exact drivesAgree_start rfl
  | restartPanels => exact drivesAgree_restartPanels hs
  | completeReadback n x => exact drivesAgree_completeReadback n x hs
  | failReadback n => exact drivesAgree_failReadback n hs
  | take e t accepted => exact hs.kept (by simp [offerTake_tou accepted]) (by simp [offerTake_tt accepted])
  | fireSalvo n o f t accepted => exact hs.kept (by simp [fireSalvo_tou accepted]) (by simp [fireSalvo_tt accepted])
  | switchPoint => exact drivesAgree_switchPoint hs
  | takeAnswer n d l a => exact drivesAgree_takeAnswer n d l a hs
  | expireWindow => exact drivesAgree_expireWindow hs
  | setRoot | selectBuses | setMaps | setTie | clearTie => exact drivesAgree_retraced hs rfl rfl rfl
  | setCamera c v => exact (drivesAgree_driveAll (writeCamera c v s)).kept (by simp) (by simp)
  | writeOutput | setFault => exact drivesAgree_evaluateLampFault (drivesAgree_driveAll _)
  | removePanel p v => exact drivesAgree_removePanel p v hs
  | endTransaction j => exact drivesAgree_endTransaction j hs
  | press p k es => exact drivesAgree_handlePress p k hs
  | release p k es => exact drivesAgree_handleRelease p k hs
  | busState p b i es => exact drivesAgree_applyBusState p b i hs
  | none | storeSalvo | timing | setMixerSource | flashClock | setGroup | countMode | setFunction | setBinding | setLamp
  | takeSystemKeys => exact hs
  | _ => exact hs.kept (by simp <;> rfl) (by simp <;> rfl)

end Sys2Proof.Machine


namespace Sys2Proof.Machine

/-! ### The lamp rule -/

theorem shownWhile_white {b : Bool} {c : Prop} (h : b = true ↔ c) : ShownWhile c (.lit .white false) (whiteWhile b) := by
  unfold whiteWhile
  exact ⟨fun hc => if_pos (h.2 hc), fun hc => if_neg fun hb => hc (h.1 hb)⟩

theorem protectLamp_shows (s : State) (p d : Nat) :
    ((s.dest d).protect = .none → s.protectLamp p d = .off) ∧
    ((s.dest d).protect = .panel p → s.protectLamp p d = .lit .red false) ∧
    (∀ q, q ≠ p → (s.dest d).protect = .panel q → s.protectLamp p d = .lit .amber false) ∧
    ((s.dest d).protect = .systemLock ∨ (s.dest d).protect = .startupLock → s.protectLamp p d = .lit .amber false) := by
  unfold State.protectLamp
  refine ⟨fun h => by rw [h], fun h => by rw [h]; exact if_pos rfl, fun q hq h => by rw [h]; exact if_neg hq, ?_⟩
  rintro (h | h) <;> rw [h]

/-- R174: what the lamp of a captured function shows, kind by kind. -/
theorem functionLamp_shows (s : State) (p k : Nat) (v : Panel) (f : FunctionAction) :
    FunctionShows s p k v (s.functionLamp p k v f) f := by
  cases f with
  | routeTake d mask x => exact shownWhile_white (s.carries_iff d mask x)
  | selectDest d => exact shownWhile_white (by simp)
  | presetSource x =>
    unfold FunctionShows State.functionLamp shownColour
    refine ⟨fun hr => ?_, fun hr ha => ?_, fun hr ha hg => ?_, fun hr ha hg => ?_⟩
    · simp [hr]
    · simp [hr, ha]
    · simp [hr, ha, hg]
    · simpa [hr, ha, hg] using shownWhile_white (b := (s.context p).source == some x) (by simp)
  | takePreset mask =>
    unfold FunctionShows State.functionLamp
    dsimp only
    cases hd : (s.context p).dest with
    | none => exact ⟨fun ⟨_, _, h, _⟩ => (Option.some_ne_none _ h.symm).elim, fun _ => rfl⟩
    | some d =>
      cases hx : (s.context p).source with
      | none => exact ⟨fun ⟨_, _, _, h, _⟩ => (Option.some_ne_none _ h.symm).elim, fun _ => rfl⟩
      | some x => exact shownWhile_white (by simp [s.carries_iff])
  | salvoFire n => exact ⟨fun h => if_pos h, fun h => if_neg h⟩
  | protectToggle d =>
    cases d with
    | some d => exact ⟨nofun, fun e he => Option.some.inj he ▸ protectLamp_shows s p d⟩
    | none =>
      unfold FunctionShows State.functionLamp
      dsimp only [Option.none_or]
      cases h : (s.context p).dest with
      | none => exact ⟨fun _ => rfl, nofun⟩
      | some d => exact ⟨nofun, fun e he => Option.some.inj he ▸ protectLamp_shows s p d⟩
  | talk => rfl
  | call => rfl
  | pageToggle => exact shownWhile_white Iff.rfl
  | systemKey => rfl

theorem not_called_iff {s : State} {p k : Nat} :
    (s.tou.holders.any fun h => h.panel == p && h.key == k) = true ↔ ∃ h ∈ s.tou.holders, h.panel = p ∧ h.key = k := by
  simp [List.any_eq_true]

theorem not_any_holder {s : State} {p k : Nat} (h : ∀ h ∈ s.tou.holders, ¬(h.panel = p ∧ h.key = k)) :
    ¬(s.tou.holders.any fun h => h.panel == p && h.key == k) = true := fun hc => by
  obtain ⟨e, he, hk⟩ := not_called_iff.1 hc
  exact h e he hk

/-- R174, R175: the first case that holds gives the lamp. -/
theorem lampRule (s : State) (p k : Nat) (v : Panel) : LampRule s p k v where
  captured id t owned hid ht := by
    have lamp : s.lampOf p k v = s.talkLamp (some id) := by
      unfold State.lampOf
      rcases owned with h | h | h <;> rw [h, hid]
    have shows_talk : s.talkLamp (some id) = .lit .red (s.talkFlashes t) := by
      simp only [State.talkLamp, Option.bind_some, ht]
    rw [lamp, shows_talk]
    refine ⟨fun h => by rw [(s.talkFlashes_iff t).2 h], fun h => ?_⟩
    rw [Bool.eq_false_of_not_eq_true fun hf => h ((s.talkFlashes_iff t).1 hf)]
  cancelled h := by unfold State.lampOf; rw [h]
  called hi hc := by
    unfold State.lampOf; rw [hi]
    exact if_pos (not_called_iff.2 hc)
  dark hi hc hd := by
    unfold State.lampOf; rw [hi]
    dsimp only
    rw [if_neg (not_any_holder hc)]
    split
    · rfl
    · next bound =>
      split
      · rfl
      · next f hf => exact if_neg fun ha => (hd.resolve_left bound) f hf ((f.allows_iff v).1 ha)
  shown f hi hc hb hf hp := by
    have lamp : s.lampOf p k v = s.functionLamp p k v f.action := by
      unfold State.lampOf; rw [hi]
      dsimp only
      rw [if_neg (not_any_holder hc), if_neg hb, hf]
      exact if_pos ((f.allows_iff v).2 hp)
    rw [lamp]; exact functionLamp_shows s p k v f.action

/-! ### Every step keeps the lamps -/

/-- R176: after a re-derivation every desired value is the derived one. -/
theorem lampsAgree_relamp (s : State) : LampsAgree (relamp s) := by
  obtain ⟨-, undeclared, declared⟩ := relamp_relamped s
  intro p v k hv hk
  cases hw : s.panel? p with
  | none => rw [undeclared p hw] at hv; cases hv
  | some w =>
    obtain ⟨lamps, relamped, derived⟩ := declared p w hw
    rw [relamped] at hv; cases hv
    exact (derived k).2 hk

/-- A panel table that differs in the scan pointers alone. -/
theorem LampsAgree.scanned {s : State} (hs : LampsAgree s) {b : PanelBus}
    (h : ∀ p v, b.panels.find? p = some v → ∃ w n, s.panel? p = some w ∧ v = { w with scan := n }) :
    LampsAgree { s with pbc := b } := by
  intro p v k hv hk
  obtain ⟨w, n, hw, rfl⟩ := h p v hv
  exact hs p w k hw hk

/-- The panels of `b` are those of `a`, the scan pointers apart. -/
def ScanMoved (a b : PanelBus) : Prop :=
  ∀ p v, b.panels.find? p = some v → ∃ w n, a.panels.find? p = some w ∧ v = { w with scan := n }

theorem ScanMoved.of_panels {a b : PanelBus} (h : b.panels = a.panels) : ScanMoved a b :=
  fun _ v hv => ⟨v, v.scan, h ▸ hv, rfl⟩

theorem sendPoll_scans (p : Nat) (b : PanelBus) : ScanMoved b (sendPoll p b) := by
  unfold sendPoll
  split
  · exact .of_panels rfl
  · next w hw =>
    intro q v hv
    replace hv : (b.panels.put p { w with scan := w.nextScan }).find? q = some v := hv
    by_cases hq : q = p
    · subst hq
      rw [Table.find?_put_self] at hv; cases hv
      exact ⟨w, w.nextScan, hw, rfl⟩
    · rw [Table.find?_put_ne _ hq] at hv
      exact ⟨v, v.scan, hv, rfl⟩

theorem sendProbe_panels (p : Nat) (b : PanelBus) : (sendProbe p b).panels = b.panels := by
  unfold sendProbe; split <;> rfl

theorem startCycle_scans (b : PanelBus) : ScanMoved b (startCycle b) := by
  unfold startCycle
  dsimp only
  split
  · exact sendPoll_scans _ { b with lastPolled := 0 }
  · split
    · exact .of_panels (sendProbe_panels _ _)
    · exact .of_panels rfl

theorem nextCycle_scans (b : PanelBus) : ScanMoved b (nextCycle b) := startCycle_scans { b with odd := !b.odd }

theorem chooseNext_scans (w : Bool) (b : PanelBus) : ScanMoved b (chooseNext w b) := by
  unfold chooseNext
  split
  · exact startCycle_scans { b with newCycle := false }
  · split
    · exact nextCycle_scans b
    · split
      · exact sendPoll_scans _ b
      · split
        · exact .of_panels (sendProbe_panels _ _)
        · exact nextCycle_scans b

theorem lampsAgree_endTransaction {s : State} (j : Transaction → State → BusJudgement) (hs : LampsAgree s) :
    LampsAgree (endTransaction j s) := by
  unfold endTransaction
  split
  · exact hs
  · next t _ =>
    have ended : LampsAgree (if t.discard then { s with pbc := { s.pbc with transaction := none } }
        else relamp (outcome t (j t s) { s with pbc := { s.pbc with transaction := none } })) :=
      ite_keeps (fun _ => hs) fun _ => lampsAgree_relamp _
    exact ended.scanned (chooseNext_scans _ _)

theorem lampsAgree_endEmptyCycle {s : State} (hs : LampsAgree s) : LampsAgree (endEmptyCycle s) := by
  unfold endEmptyCycle
  split
  · exact hs
  · exact hs.scanned (nextCycle_scans _)

theorem lampsAgree_restartPanels (s : State) : LampsAgree (restartPanels s) := by
  unfold restartPanels
  exact ite_keeps (P := LampsAgree) (fun _ => lampsAgree_relamp _) fun _ =>
    (lampsAgree_relamp _).scanned (startCycle_scans _)

theorem lampsAgree_closeWindow (w : Window) (s : State) : LampsAgree (closeWindow w s) := by
  unfold closeWindow
  show LampsAgree (if _ then routeChange _ else relamp _)
  exact ite_keeps (fun _ => lampsAgree_relamp _) fun _ => lampsAgree_relamp _

theorem lampsAgree_switchPoint {s : State} (hs : LampsAgree s) : LampsAgree (switchPoint s) := by
  unfold switchPoint openWindow
  split
  · exact hs
  · split
    · exact hs
    · exact ite_keeps (P := LampsAgree) (fun _ => lampsAgree_closeWindow _ _) fun _ => hs

theorem lampsAgree_takeAnswer {s : State} (n d : Nat) (l : Level) (a : Bool) (hs : LampsAgree s) :
    LampsAgree (takeAnswer n d l a s) := by
  unfold takeAnswer
  split
  · exact hs
  · split
    · exact ite_keeps (P := LampsAgree) (fun _ => hs) fun _ => lampsAgree_closeWindow _ _
    · exact hs

theorem lampsAgree_expireWindow {s : State} (hs : LampsAgree s) : LampsAgree (expireWindow s) := by
  unfold expireWindow
  split
  · exact hs
  · exact lampsAgree_closeWindow _ _

theorem lampsAgree_completeReadback {s : State} (n : Nat) (x : List Nat) (hs : LampsAgree s) :
    LampsAgree (completeReadback n x s) := by
  unfold completeReadback
  split
  · exact hs
  · split
    · exact ite_keeps (fun _ => lampsAgree_relamp _) fun _ => hs
    · exact hs

theorem lampsAgree_failReadback {s : State} (n : Nat) (hs : LampsAgree s) : LampsAgree (failReadback n s) := by
  unfold failReadback
  split
  · exact hs
  · split
    · exact lampsAgree_relamp _
    · exact hs

theorem lampsAgree_evaluateLampFault {s : State} (hs : LampsAgree s) : LampsAgree (evaluateLampFault s) := by
  rw [evaluateLampFault, handOver_eq]; exact hs

theorem withCoefficient_admitted (s : State) (ps : List Path) (p : Path) :
    (s.withCoefficient ps p).isAdmitted = p.isAdmitted ∧ (s.withCoefficient ps p).talks = p.talks := by
  unfold State.withCoefficient
  split
  · exact ⟨rfl, rfl⟩
  · next n c h => exact ⟨by simp [Path.isAdmitted, h], rfl⟩

/-- R129, R174: the coefficients are no part of what a lamp shows. -/
theorem lampsAgree_recompute {s : State} (hs : LampsAgree s) : LampsAgree (recompute s) := by
  have flashes : (recompute s).talkFlashes = s.talkFlashes := by
    funext t
    unfold State.talkFlashes recompute
    rw [List.any_map]
    congr 2
    funext p
    obtain ⟨admitted, talks⟩ := withCoefficient_admitted s s.tme.paths p
    rw [Function.comp, admitted, talks]
  have talkLamp : (recompute s).talkLamp = s.talkLamp := by
    funext id; unfold State.talkLamp; rw [flashes]; rfl
  intro p v k hv hk
  have lamp : (recompute s).lampOf p k v = s.lampOf p k v := by
    unfold State.lampOf; rw [talkLamp]; rfl
  rw [lamp]; exact hs p v k hv hk

theorem lampsAgree_handleKnob {s : State} (p : Nat) (delta : Int) (hs : LampsAgree s) : LampsAgree (handleKnob p delta s) := by
  unfold handleKnob
  split
  · exact hs
  · exact ite_keeps (fun _ => ite_keeps (fun _ => hs) fun _ => lampsAgree_recompute hs) fun _ => hs

/-- No panel is declared. -/
theorem lampsAgree_start {t : State} (h : t.pbc.panels = ⟨[]⟩) : LampsAgree t := by
  intro p v k hv
  simp [State.panel?, h] at hv

theorem lampsAgree_offline : Offline LampsAgree := ⟨fun _ _ hs => hs, fun _ _ hs => hs⟩

theorem lampsAgree_effect {s t : State} {mark : Bool} (h : Effect s mark t) (hs : LampsAgree s) : LampsAgree t := by
  cases h with
  | powerOn | restartAll => exact lampsAgree_start rfl
  | restartPanels => exact lampsAgree_restartPanels s
  | completeReadback n x => exact lampsAgree_completeReadback n x hs
  | failReadback n => exact lampsAgree_failReadback n hs
  | switchPoint => exact lampsAgree_switchPoint hs
  | takeAnswer n d l a => exact lampsAgree_takeAnswer n d l a hs
  | expireWindow => exact lampsAgree_expireWindow hs
  | writeOutput | setFault => exact lampsAgree_evaluateLampFault hs
  | setPort => exact lampsAgree_recompute hs
  | knob p delta es => exact lampsAgree_handleKnob p delta hs
  | endTransaction j => exact lampsAgree_endTransaction j hs
  | endEmptyCycle => exact lampsAgree_endEmptyCycle hs
  | none | storeSalvo | timing | setMixerSource | flashClock | setGroup | countMode | takeSystemKeys => exact hs
  | _ => exact lampsAgree_relamp _

/-- Settles O57: a drive is re-evaluated and the lamps re-derived by every effect on what they read. -/
theorem drivesAndLampsStayDerived : Obligations.DrivesAndLampsStayDerived :=
  ⟨fun _ _ hs h => step_keeps drivesAgree_offline (fun _ _ => drivesAgree_effect) h hs,
    fun _ _ hs h => step_keeps lampsAgree_offline (fun _ _ => lampsAgree_effect) h hs, driveRule, lampRule⟩

end Sys2Proof.Machine

/-! The fabric: which levels are fitted, and that every step keeps a level fitted exactly where one mapped device covers it
(R1, R11 to R17). -/

namespace Sys2Proof.Machine

/-! ### What leaves the levels and the mapped ranges -/

/-- The range of a device. -/
def Device.span (v : Device) : Level × Nat × Nat := (v.level, v.first, v.last)

theorem Device.covers_iff {v : Device} {d : Nat} {l : Level} :
    v.covers d l = true ↔ v.level = l ∧ v.first ≤ d ∧ d ≤ v.last := by
  unfold Device.covers; simp [and_assoc]

theorem Device.covers_congr {v w : Device} (h : w.span = v.span) (d : Nat) (l : Level) : w.covers d l = v.covers d l := by
  simp only [Device.span, Prod.mk.injEq] at h
  obtain ⟨level, first, last⟩ := h
  unfold Device.covers; rw [level, first, last]

/-- The ranges of the mapped devices. -/
def State.spans (s : State) (n : Nat) : Option (Level × Nat × Nat) := (s.device? n).map Device.span

/-- What the levels hold and which ranges are mapped. -/
def State.fabric (s : State) : (Nat → Level → LevelState) × (Nat → Option (Level × Nat × Nat)) := (s.levelAt, s.spans)

theorem State.fabric_of_tables {s t : State} (dests : t.rc.dests = s.rc.dests) (devices : t.rc.devices = s.rc.devices) :
    t.fabric = s.fabric := by
  unfold State.fabric State.levelAt State.dest State.spans State.device?; rw [dests, devices]

theorem State.fabric_of_rc {s t : State} (h : t.rc = s.rc) : t.fabric = s.fabric :=
  State.fabric_of_tables (by rw [h]) (by rw [h])

theorem fabric_setDest {s : State} {d : Nat} {v : Destination} (h : v.levels = (s.dest d).levels) :
    (s.setDest d v).fabric = s.fabric := by
  refine Prod.ext ?_ rfl
  funext e l
  show ((s.setDest d v).dest e).levels.get l = _
  by_cases he : e = d
  · rw [he, State.dest_setDest_self, h]; rfl
  · rw [State.dest_setDest_ne _ he]; rfl

@[simp] theorem fabric_setProtect (d : Nat) (p : Protect) (s : State) : (s.setProtect d p).fabric = s.fabric :=
  fabric_setDest rfl

@[simp] theorem fabric_rewriteProtects (f : Protect → Protect) (s : State) : (rewriteProtects f s).fabric = s.fabric := by
  refine Prod.ext ?_ ?_
  · funext d l
    show ((rewriteProtects f s).dest d).levels.get l = _
    rw [State.dest_rewriteProtects]; split <;> rfl
  · show State.spans _ = _
    unfold rewriteProtects; generalize numbers 1 256 = ds; rfl

/-- A device record written without touching its range. -/
theorem spans_setDevice {s : State} {n : Nat} {v w : Device} (hv : s.device? n = some v) (h : w.span = v.span) :
    (s.setDevice n w).spans = s.spans := by
  funext m
  unfold State.spans
  by_cases hm : m = n
  · rw [hm, State.device?_setDevice_self, hv]; exact congrArg some h
  · rw [State.device?_setDevice_ne _ hm]

theorem fabric_evaluateFabric (s : State) : (evaluateFabric s).fabric = s.fabric := by
  unfold evaluateFabric; rw [handOver_eq]; rfl

theorem spans_beginExchanges (s : State) : (beginExchanges s).spans = s.spans := by
  funext n
  show ((Table.mapValues _ s.rc.devices).find? n).map _ = _
  rw [Table.find?_mapValues, Option.map_map]
  unfold State.spans State.device?
  congr 1
  funext v
  show Device.span (match v.phase with | .readback kind _ => _ | _ => _) = _
  cases v.phase <;> rfl

theorem fabric_beginExchanges (s : State) : (beginExchanges s).fabric = s.fabric :=
  Prod.ext rfl (spans_beginExchanges s)

theorem fabric_supersede (d : Nat) (m : LevelMask) (s : State) : (supersede d m s).fabric = s.fabric := by
  obtain ⟨fs, eq, -⟩ := supersede_eq d m s
  rw [eq]; rfl

theorem fabric_offerTake {e : Entry} {s t : State} (h : offerTake e s = .ok t) : t.fabric = s.fabric := by
  unfold offerTake at h
  split at h
  · cases h
  · split at h
    · cases h
    · cases h; exact fabric_supersede _ _ s

theorem fabric_fireSalvo {n : Nat} {o : Origin} {force : Bool} {s t : State} (h : fireSalvo n o force s = .accepted t) :
    t.fabric = s.fabric := by
  unfold fireSalvo at h
  dsimp only at h
  split at h
  · cases h
  · split at h
    · cases h
    · obtain ⟨fs, eq, -⟩ := acceptEntries_eq (s.passing n o force) [] s
      cases h; rw [eq]; rfl

@[simp] theorem fabric_panelTake (p k d : Nat) (m : LevelMask) (x : Nat) (s : State) :
    (panelTake p k d m x s).fabric = s.fabric := by
  unfold panelTake
  split
  · next h => exact fabric_offerTake h
  · exact State.fabric_of_rc (by simp)

@[simp] theorem fabric_panelFiring (p k n : Nat) (s : State) : (panelFiring p k n s).fabric = s.fabric := by
  unfold panelFiring
  split
  · exact State.fabric_of_rc (by simp)
  · rfl
  · next t h => exact (State.fabric_of_rc (by simp) : _ = t.fabric).trans (fabric_fireSalvo h)

@[simp] theorem fabric_panelToggle (p k d : Nat) (s : State) : (panelToggle p k d s).fabric = s.fabric := by
  unfold panelToggle
  split
  · exact fabric_setProtect ..
  · exact State.fabric_of_rc (by simp)

theorem fabric_carryOut (p k : Nat) (f : FunctionAction) (s : State) : (carryOut p k f s).fabric = s.fabric := by
  unfold carryOut
  split
  case h_1 | h_5 | h_6 => simp
  case h_4 | h_7 =>
    split
    · simp
    · exact State.fabric_of_rc (by simp)
  all_goals exact State.fabric_of_rc (by simp)

theorem fabric_handlePress (p k : Nat) (s : State) : (handlePress p k s).fabric = s.fabric := by
  unfold handlePress
  split
  · split
    · rfl
    · split
      · split
        · exact State.fabric_of_rc (by simp)
        · rfl
      · split
        · exact fabric_carryOut p k _ s
        · exact State.fabric_of_rc (by simp)
  · exact State.fabric_of_rc (by simp)

theorem fabric_removePanel (p : Nat) (v : Panel) (s : State) : (removePanel p v s).fabric = s.fabric := by
  have dropped (x : State) : (staleBridge p (dropPanelCalls p (dropPanelTalks p (dropHeld p
      (x.setContext p Context.start))))).fabric = x.fabric := State.fabric_of_rc (by simp)
  have cleared (b : PanelBus) : (clearProtects p { s with pbc := b }).fabric = s.fabric := fabric_rewriteProtects _ _
  have changed (x : State) : (panelStateChanged x).fabric = x.fabric := State.fabric_of_rc (by simp)
  unfold removePanel
  dsimp only
  split
  · exact (dropped _).trans (cleared _)
  · exact (changed _).trans ((dropped _).trans (cleared _))

theorem fabric_retryDevice {n : Nat} {v : Device} {s : State} (hv : s.device? n = some v) :
    (retryDevice n v s).fabric = s.fabric := by
  unfold retryDevice
  rw [fabric_evaluateFabric]
  exact Prod.ext rfl (spans_setDevice hv rfl)

/-! ### What changes the levels -/

/-- The levels of one kind at a run of destinations, written. -/
theorem levelAt_writeLevels (l : Level) (vs : List LevelState) (d : Nat) (s : State) (e : Nat) (k : Level) :
    (writeLevels l d vs s).levelAt e k =
      if k = l ∧ d ≤ e ∧ e < d + vs.length then vs.getD (e - d) .notFitted else s.levelAt e k := by
  induction vs generalizing d s with
  | nil => rw [writeLevels, if_neg (by simp)]
  | cons v vs ih =>
    rw [writeLevels, ih, levelAt_setLevel]
    by_cases hk : k = l
    · by_cases he : e = d
      · subst he; simp [hk]
      · by_cases hd : d < e
        · have : e - d = e - (d + 1) + 1 := by omega
          simp only [hk, he, this, List.length_cons, List.getD_cons_succ, true_and, false_and, if_false]
          congr 1
          apply propext; omega
        · rw [if_neg (by omega), if_neg (by omega), if_neg (by omega)]
    · simp [hk]

theorem writeLevels_devices (l : Level) (vs : List LevelState) (d : Nat) (s : State) :
    (writeLevels l d vs s).rc.devices = s.rc.devices := by
  induction vs generalizing d s with
  | nil => rfl
  | cons v vs ih => rw [writeLevels, ih]; rfl

/-- R17: an answer leaves a level fitted or not fitted. -/
theorem applyWrite_fitted (s : State) (w : Write) (d : Nat) (l : Level) :
    (applyWrite s w).levelAt d l = .notFitted ↔ s.levelAt d l = .notFitted := by
  rw [levelAt_applyWrite]
  split
  · cases s.levelAt d l with
    | notFitted => rfl
    | fitted => dsimp only; split <;> simp
  · rfl

theorem spans_applyWrite (s : State) (w : Write) : (applyWrite s w).spans = s.spans := by
  unfold applyWrite
  split
  · rfl
  · split
    · rfl
    · dsimp only
      split
      · next v hv =>
        split
        · exact (spans_setDevice (w := { v with phase := .failed }) hv rfl).trans rfl
        · rfl
      · rfl

/-- R18, R39: the close of a window leaves the levels that its writes give. -/
theorem closeWindow_fabric (w : Window) (s : State) :
    (closeWindow w s).levelAt = (w.writes.foldl applyWrite s).levelAt ∧ (closeWindow w s).spans = s.spans := by
  have spans : (w.writes.foldl applyWrite s).spans = s.spans := foldl_keeps _ State.spans spans_applyWrite _ _
  have reported : ∀ x : State, (w.groups.foldl (reportGroup w.writes) x).fabric = x.fabric :=
    foldl_keeps _ State.fabric (fun s g => State.fabric_of_rc (reportGroup_rc _ s g)) _
  have closed : ∀ x : State, { x with rc := { x.rc with window := none } }.fabric = x.fabric := fun _ => rfl
  have fabric : (closeWindow w s).fabric = (w.writes.foldl applyWrite s).fabric := by
    unfold closeWindow
    dsimp only
    rw [fabric_beginExchanges]
    refine Eq.trans ?_ ((reported _).trans ((closed _).trans (fabric_evaluateFabric _)))
    split
    · exact State.fabric_of_rc (by simp)
    · rfl
  obtain ⟨levels, devices⟩ := Prod.ext_iff.1 fabric
  exact ⟨levels, devices.trans spans⟩

/-! ### Every step keeps the levels fitted where they are covered -/

/-- The same levels are fitted, and the same ranges are mapped. -/
theorem LevelsFitted.congr {s t : State} (hs : LevelsFitted s)
    (levels : ∀ d l, t.levelAt d l = .notFitted ↔ s.levelAt d l = .notFitted) (spans : t.spans = s.spans) :
    LevelsFitted t := by
  have mapped : ∀ n v, t.device? n = some v → ∃ w, s.device? n = some w ∧ v.span = w.span := by
    intro n v hv
    have : s.spans n = some v.span := by rw [← spans]; exact congrArg (Option.map _) hv
    obtain ⟨w, hw, same⟩ := Option.map_eq_some_iff.1 this
    exact ⟨w, hw, same.symm⟩
  have still : ∀ n v, s.device? n = some v → ∃ w, t.device? n = some w ∧ v.span = w.span := by
    intro n v hv
    have : t.spans n = some v.span := by rw [spans]; exact congrArg (Option.map _) hv
    obtain ⟨w, hw, same⟩ := Option.map_eq_some_iff.1 this
    exact ⟨w, hw, same.symm⟩
  constructor
  · intro d l
    rw [ne_eq, levels, ← ne_eq, hs.fitted]
    constructor
    · rintro ⟨n, v, hv, covered⟩
      obtain ⟨w, hw, same⟩ := still n v hv
      exact ⟨n, w, hw, (Device.covers_congr same d l) ▸ covered⟩
    · rintro ⟨n, v, hv, covered⟩
      obtain ⟨w, hw, same⟩ := mapped n v hv
      exact ⟨n, w, hw, (Device.covers_congr same d l) ▸ covered⟩
  · intro m n v w d l hv hw hcv hcw
    obtain ⟨v', hv', samev⟩ := mapped m v hv
    obtain ⟨w', hw', samew⟩ := mapped n w hw
    exact hs.single m n v' w' d l hv' hw' ((Device.covers_congr samev d l) ▸ hcv) ((Device.covers_congr samew d l) ▸ hcw)

theorem LevelsFitted.kept {s t : State} (hs : LevelsFitted s) (h : t.fabric = s.fabric) : LevelsFitted t := by
  obtain ⟨levels, spans⟩ := Prod.ext_iff.1 h
  exact hs.congr (fun d l => by rw [show t.levelAt = s.levelAt from levels]) spans

/-- R11 check 3: where no mapped range of the level meets a range, none covers a destination of it. -/
theorem rangeTaken_covers {s : State} {l : Level} {first last : Nat} (free : s.rangeTaken l first last = false) {n : Nat}
    {v : Device} (hv : s.device? n = some v) {d : Nat} (hd : first ≤ d ∧ d ≤ last) : v.covers d l = false := by
  unfold State.rangeTaken at free
  rw [List.any_eq_false] at free
  have listed : v ∈ s.rc.devices.values := List.mem_map.2 ⟨(n, v), lookup_mem hv, rfl⟩
  have := free v listed
  rw [Bool.eq_false_iff, ne_eq, Device.covers_iff]
  rintro ⟨level, first', last'⟩
  simp [level] at this
  omega

theorem levelAt_mapDevice (n : Nat) (a : FabricArgs) (s : State) (d : Nat) (l : Level) :
    (mapDevice n a s).levelAt d l =
      if l = a.level ∧ a.first ≤ d ∧ d ≤ a.last then .fitted 0 false else s.levelAt d l := by
  unfold mapDevice
  rw [levelAt_setDevice, levelAt_writeLevels, List.length_replicate]
  by_cases h : l = a.level ∧ a.first ≤ d ∧ d ≤ a.last
  · rw [if_pos h, if_pos ⟨h.1, h.2.1, by simp only [Device.width]; omega⟩, List.getD_eq_getElem _ _ (by
      rw [List.length_replicate]; simp only [Device.width]; omega), List.getElem_replicate]
  · rw [if_neg h, if_neg fun h' => h ⟨h'.1, h'.2.1, by have := h'.2.2; simp only [Device.width] at this; omega⟩]

theorem levelsFitted_mapDevice {s : State} {a : FabricArgs} (hs : LevelsFitted s) (fresh : s.device? a.device = none)
    (free : s.rangeTaken a.level a.first a.last = false) : LevelsFitted (mapDevice a.device a s) := by
  have devices : ∀ m, m ≠ a.device → (mapDevice a.device a s).device? m = s.device? m := fun m hm => by
    unfold mapDevice
    rw [State.device?_setDevice_ne _ hm, State.device?, writeLevels_devices]; rfl
  have mapped : (mapDevice a.device a s).device? a.device =
      some ⟨a.level, a.first, a.last, a.address, .readback .startUp true⟩ := State.device?_setDevice_self ..
  have apart : ∀ m v d l, s.device? m = some v → v.covers d l = true → ¬(l = a.level ∧ a.first ≤ d ∧ d ≤ a.last) := by
    rintro m v d l hv hc ⟨rfl, hd⟩
    rw [rangeTaken_covers free hv hd] at hc; cases hc
  have other : ∀ m v, s.device? m = some v → m ≠ a.device := by
    rintro m v hv rfl; rw [fresh] at hv; cases hv
  constructor
  · intro d l
    rw [levelAt_mapDevice]
    by_cases h : l = a.level ∧ a.first ≤ d ∧ d ≤ a.last
    · rw [if_pos h]
      exact iff_of_true nofun ⟨a.device, _, mapped, Device.covers_iff.2 ⟨h.1.symm, h.2⟩⟩
    · rw [if_neg h, hs.fitted]
      constructor
      · rintro ⟨n, v, hv, hc⟩
        exact ⟨n, v, (devices n (other n v hv)).trans hv, hc⟩
      · rintro ⟨n, v, hv, hc⟩
        by_cases hn : n = a.device
        · rw [hn, mapped] at hv; cases hv
          obtain ⟨level, range⟩ := Device.covers_iff.1 hc
          exact absurd ⟨level.symm, range⟩ h
        · exact ⟨n, v, (devices n hn) ▸ hv, hc⟩
  · intro m n v w d l hv hw hcv hcw
    by_cases hm : m = a.device <;> by_cases hn : n = a.device
    · rw [hm, hn]
    · rw [hm, mapped] at hv; cases hv
      rw [devices n hn] at hw
      obtain ⟨level, range⟩ := Device.covers_iff.1 hcv
      exact absurd ⟨level.symm, range⟩ (apart n w d l hw hcw)
    · rw [hn, mapped] at hw; cases hw
      rw [devices m hm] at hv
      obtain ⟨level, range⟩ := Device.covers_iff.1 hcw
      exact absurd ⟨level.symm, range⟩ (apart m v d l hv hcv)
    · rw [devices m hm] at hv; rw [devices n hn] at hw
      exact hs.single m n v w d l hv hw hcv hcw

theorem endReadback_rc (n : Nat) (v : Device) (k : ReadbackKind) (p : DevicePhase) (x : List LevelState) (s : State) :
    (endReadback n v k p x s).fabric = ((writeLevels v.level v.first x s).setDevice n { v with phase := p }).fabric := by
  have routed : ∀ y, (routeChange y).fabric = y.fabric := fun y => State.fabric_of_rc (by simp)
  have done : ∀ y, (readbackDone k y).fabric = y.fabric := fun y => State.fabric_of_rc (by simp)
  exact (routed _).trans ((fabric_evaluateFabric _).trans (done _))

/-- R14, R15: a readback writes fitted values over the range of its device. -/
theorem levelsFitted_endReadback {s : State} {n : Nat} {v : Device} (hs : LevelsFitted s) (hv : s.device? n = some v)
    (k : ReadbackKind) (p : DevicePhase) {x : List LevelState} (hx : ∀ y ∈ x, y ≠ .notFitted) (hl : x.length = v.width) :
    LevelsFitted (endReadback n v k p x s) := by
  have written : (writeLevels v.level v.first x s).device? n = some v := by
    rw [State.device?, writeLevels_devices]; exact hv
  have fitted : LevelsFitted ((writeLevels v.level v.first x s).setDevice n { v with phase := p }) := by
    have spans : (writeLevels v.level v.first x s).spans = s.spans := by
      funext m; rw [State.spans, State.device?, writeLevels_devices]; rfl
    refine hs.congr (fun d l => ?_) ((spans_setDevice (w := { v with phase := p }) written rfl).trans spans)
    rw [levelAt_setDevice, levelAt_writeLevels]
    split
    · next h =>
      obtain ⟨level, first, last⟩ := h
      have covered : v.covers d l = true := Device.covers_iff.2 ⟨level.symm, first, by
        rw [hl] at last; simp only [Device.width] at last; omega⟩
      refine iff_of_false ?_ ((hs.fitted d l).2 ⟨n, v, hv, covered⟩)
      rw [List.getD_eq_getElem _ _ (by omega)]
      exact hx _ (List.getElem_mem _)
    · rfl
  exact fitted.kept (endReadback_rc n v k p x s)

theorem readLevel_fitted (x : Nat) : readLevel x ≠ .notFitted := by
  unfold readLevel; split <;> nofun

theorem levelsFitted_completeReadback {s : State} (hs : LevelsFitted s) (n : Nat) (x : List Nat) :
    LevelsFitted (completeReadback n x s) := by
  unfold completeReadback
  split
  · exact hs
  · next v hv =>
    split
    · split
      · next h =>
        refine levelsFitted_endReadback hs hv _ _ (fun y hy => ?_) (by rw [List.length_map, h])
        obtain ⟨z, -, rfl⟩ := List.mem_map.1 hy
        exact readLevel_fitted z
      · exact hs
    · exact hs

theorem levelsFitted_failReadback {s : State} (hs : LevelsFitted s) (n : Nat) : LevelsFitted (failReadback n s) := by
  unfold failReadback
  split
  · exact hs
  · next v hv =>
    split
    · refine levelsFitted_endReadback hs hv _ _ (fun y hy => ?_) (List.length_replicate ..)
      rw [List.eq_of_mem_replicate hy]; nofun
    · exact hs

theorem levelsFitted_closeWindow {s : State} (hs : LevelsFitted s) (w : Window) : LevelsFitted (closeWindow w s) := by
  obtain ⟨levels, spans⟩ := closeWindow_fabric w s
  refine hs.congr (fun d l => ?_) spans
  rw [levels]
  exact iff_of_eq (foldl_keeps applyWrite (fun x => x.levelAt d l = .notFitted)
    (fun x y => propext (applyWrite_fitted x y d l)) w.writes s)

theorem levelsFitted_switchPoint {s : State} (hs : LevelsFitted s) : LevelsFitted (switchPoint s) := by
  unfold switchPoint openWindow
  split
  · exact hs
  · split
    · exact hs
    · have opened : ∀ q w n, LevelsFitted { s with rc := { s.rc with queue := q, window := w, windows := n } } :=
        fun _ _ _ => hs.kept rfl
      exact ite_keeps (P := LevelsFitted) (fun _ => levelsFitted_closeWindow (opened _ _ _) _) fun _ => opened _ _ _

theorem levelsFitted_takeAnswer {s : State} (hs : LevelsFitted s) (n d : Nat) (l : Level) (a : Bool) :
    LevelsFitted (takeAnswer n d l a s) := by
  unfold takeAnswer
  split
  · exact hs
  · split
    · exact ite_keeps (P := LevelsFitted) (fun _ => hs.kept rfl) fun _ => levelsFitted_closeWindow hs _
    · exact hs

theorem levelsFitted_expireWindow {s : State} (hs : LevelsFitted s) : LevelsFitted (expireWindow s) := by
  unfold expireWindow
  split
  · exact hs
  · exact levelsFitted_closeWindow hs _

/-- R2, R11: no device is mapped and no level is fitted. -/
theorem levelsFitted_start {t : State} (hd : t.rc.dests = ⟨[]⟩) (hv : t.rc.devices = ⟨[]⟩) : LevelsFitted t := by
  have devices : ∀ n, t.device? n = none := fun n => by rw [State.device?, hv]; rfl
  have levels : ∀ d l, t.levelAt d l = .notFitted := fun d l => by
    rw [State.levelAt, State.dest, hd]; cases l <;> rfl
  refine ⟨fun d l => iff_of_false (fun h => h (levels d l)) ?_, ?_⟩
  · rintro ⟨n, v, h, -⟩; rw [devices] at h; cases h
  · intro m n v w d l h; rw [devices] at h; cases h

theorem levelsFitted_offline : Offline LevelsFitted := ⟨fun _ _ hs => hs.kept rfl, fun _ _ hs => hs.kept rfl⟩

theorem levelsFitted_effect {s t : State} {mark : Bool} (h : Effect s mark t) (hs : LevelsFitted s) : LevelsFitted t := by
  cases h with
  | powerOn | restartAll => exact levelsFitted_start rfl rfl
  | setDomain d dom => exact hs.kept (fabric_setDest rfl)
  | setProtect d v => exact hs.kept (fabric_setProtect d v s)
  | rewriteProtects f => exact LevelsFitted.kept (hs.kept (fabric_rewriteProtects f s)) (State.fabric_of_rc (relamp_rc _))
  | mapDevice a fresh free => exact (levelsFitted_mapDevice hs fresh free).kept rfl
  | retryDevice n v found => exact hs.kept (fabric_retryDevice found)
  | completeReadback n x => exact levelsFitted_completeReadback hs n x
  | failReadback n => exact levelsFitted_failReadback hs n
  | take e t accepted => exact (hs.kept (fabric_offerTake accepted)).kept rfl
  | fireSalvo n o f t accepted => exact (hs.kept (fabric_fireSalvo accepted)).kept rfl
  | switchPoint v => exact levelsFitted_switchPoint (hs.kept rfl)
  | takeAnswer n d l a => exact levelsFitted_takeAnswer hs n d l a
  | expireWindow => exact levelsFitted_expireWindow hs
  | removePanel p v => exact hs.kept (fabric_removePanel p v s)
  | press p k es => exact hs.kept (fabric_handlePress p k (s.withEvents es))
  | storeSalvo => exact hs.kept rfl
  | _ => exact hs.kept (State.fabric_of_rc (by simp <;> rfl))

end Sys2Proof.Machine

/-! The source colours (R57, R58): every step keeps the colour set of a source the union of the colours of the enabled roots
whose trace ends there. -/

namespace Sys2Proof.Machine

/-! ### What a trace reads -/

/-- R53: the source that a level brings on, 0 where it is not fitted. -/
def State.feeds (s : State) (d : Nat) (l : Level) : Nat :=
  match s.levelAt d l with
  | .notFitted => 0
  | .fitted x _ => x

/-- R53: a trace reads the sources of the levels and the ties. -/
theorem traceFrom_step (s : State) (l : Level) (hops : Nat) (visited : List Nat) (d : Nat) :
    s.traceFrom l hops visited d =
      if s.feeds d l = 0 then .noTerminal
      else match s.tie? (s.feeds d l) with
        | none => .terminal (s.feeds d l)
        | some d2 =>
          if (d :: visited).contains d2 then .fault .loop d
          else match hops with
            | 0 => .fault .depth d
            | n + 1 => s.traceFrom l n (d :: visited) d2 := by
  rw [State.traceFrom, State.feeds]
  cases s.levelAt d l with
  | notFitted => rfl
  | fitted x f => rfl

theorem traceFrom_same {s t : State} (feeds : t.feeds = s.feeds) (ties : t.tie? = s.tie?) (l : Level) (hops : Nat)
    (visited : List Nat) (d : Nat) : t.traceFrom l hops visited d = s.traceFrom l hops visited d := by
  induction hops generalizing visited d with
  | zero => rw [traceFrom_step, traceFrom_step s, feeds, ties]
  | succ n ih =>
    rw [traceFrom_step, traceFrom_step s, feeds, ties]
    simp only [ih]

/-- The selections of the mixer buses. -/
def State.selections (s : State) (m b : Nat) : Nat := ((s.mixer m).bus b).selection

/-- What the colours are derived from, and the colours. -/
def State.tracing (s : State) : Table Root × (Domain → Nat → ColourSet) × (Nat → Level → Nat) × (Nat → Option Nat) ×
    (Nat → Nat → Nat) × (Nat → Nat → Option Nat) :=
  (s.tt.roots, s.colours, s.feeds, s.tie?, s.selections, s.mapEntry)

theorem trace_same {s t : State} (feeds : t.feeds = s.feeds) (ties : t.tie? = s.tie?) (selections : t.selections = s.selections)
    (maps : t.mapEntry = s.mapEntry) (k : RootKind) : t.trace k = s.trace k := by
  cases k with
  | dest d l => exact traceFrom_same feeds ties l _ _ d
  | mixerBus m b =>
    unfold State.trace
    dsimp only
    rw [show ((t.mixer m).bus b).selection = ((s.mixer m).bus b).selection from congrFun (congrFun selections m) b, maps]
    simp only [traceFrom_same feeds ties]

theorem ColoursAgree.congr {s t : State} (hs : ColoursAgree s) (h : t.tracing = s.tracing) : ColoursAgree t := by
  simp only [State.tracing, Prod.mk.injEq] at h
  obtain ⟨roots, colours, feeds, ties, selections, maps⟩ := h
  refine ⟨by rw [roots]; exact hs.listed, fun dom x c => ?_⟩
  rw [colours, hs.union]
  unfold State.root
  rw [roots]
  simp only [trace_same feeds ties selections maps]

theorem State.feeds_of_levels {s t : State} (h : t.levelAt = s.levelAt) : t.feeds = s.feeds := by
  funext d l; unfold State.feeds; rw [h]

/-- The levels and the Tally Tracer as they were. -/
theorem ColoursAgree.kept {s t : State} (hs : ColoursAgree s) (levels : t.levelAt = s.levelAt) (tt : t.tt = s.tt) :
    ColoursAgree t := by
  refine hs.congr ?_
  unfold State.tracing
  rw [State.feeds_of_levels levels]
  unfold State.colours State.tie? State.selections State.mixer State.mapEntry
  rw [tt]

theorem State.levelAt_of_rc {s t : State} (h : t.rc = s.rc) : t.levelAt = s.levelAt := by
  funext d l; unfold State.levelAt State.dest; rw [h]

theorem State.levelAt_of_fabric {s t : State} (h : t.fabric = s.fabric) : t.levelAt = s.levelAt := (Prod.ext_iff.1 h).1

/-! ### A recomputation -/

theorem ColourSet.has_add (c : ColourSet) (x y : Colour) : (c.add x).has y = true ↔ c.has y = true ∨ y = x := by
  cases x <;> cases y <;> simp [ColourSet.add, ColourSet.has]

/-- R57: a root adds its colour to the set of its terminal. -/
theorem has_addRoot (s : State) (dom : Domain) (tb : Table ColourSet) (r : Root) (x : Nat) (c : Colour) :
    ((addRoot s dom tb r).get ColourSet.none x).has c = true ↔ (tb.get ColourSet.none x).has c = true ∨
      ∃ cfg, s.traceRoot r = some (.terminal x) ∧ r.config = some cfg ∧ cfg.domain = dom ∧ cfg.colour = c := by
  unfold addRoot
  split
  · next y cfg traced configured =>
    rw [traced, configured]
    split
    · next hdom =>
      by_cases hx : x = y
      · subst hx
        rw [Table.get_set_self, ColourSet.has_add]
        refine or_congr Iff.rfl ⟨fun h => ⟨cfg, rfl, rfl, hdom, h.symm⟩, ?_⟩
        rintro ⟨_, -, h, -, hc⟩
        cases h; exact hc.symm
      · rw [Table.get_set_ne _ _ hx]
        simp [Ne.symm hx]
    · next hdom => simp [hdom]
  · next other =>
    constructor
    · exact .inl
    · rintro (h | ⟨cfg, traced, configured, -⟩)
      · exact h
      · exact (other _ _ traced configured).elim

theorem has_foldl_addRoot (s : State) (dom : Domain) (rs : List Root) (tb : Table ColourSet) (x : Nat) (c : Colour) :
    ((rs.foldl (addRoot s dom) tb).get ColourSet.none x).has c = true ↔ (tb.get ColourSet.none x).has c = true ∨
      ∃ r ∈ rs, ∃ cfg, s.traceRoot r = some (.terminal x) ∧ r.config = some cfg ∧ cfg.domain = dom ∧ cfg.colour = c := by
  induction rs generalizing tb with
  | nil => simp
  | cons r rs ih =>
    rw [List.foldl_cons, ih, has_addRoot, or_assoc]
    simp only [List.mem_cons, exists_eq_or_imp]

/-- R57: the colour set that a recomputation gives a source. -/
theorem has_buildColours (s : State) (dom : Domain) (x : Nat) (c : Colour) :
    ((s.buildColours dom).get ColourSet.none x).has c = true ↔
      ∃ r ∈ s.tt.roots.values, ∃ cfg, s.traceRoot r = some (.terminal x) ∧ r.config = some cfg ∧ cfg.domain = dom ∧
        cfg.colour = c := by
  unfold State.buildColours
  rw [has_foldl_addRoot, Table.get_empty]
  refine or_iff_right ?_
  cases c <;> nofun

theorem traceRoot_terminal {s : State} {r : Root} {x : Nat} :
    s.traceRoot r = some (.terminal x) ↔ r.enabled = true ∧ ∃ cfg, r.config = some cfg ∧ s.trace cfg.kind = .terminal x := by
  unfold State.traceRoot
  split
  · next h => rw [Option.map_eq_some_iff]; simp [h]
  · next h => simp [h]

/-- The roots that are enabled are listed. -/
theorem mem_roots {s : State} (listed : ascending s.tt.roots.entries = true) {P : Root → Prop} :
    (∃ v ∈ s.tt.roots.values, v.enabled = true ∧ P v) ↔ ∃ r, (s.root r).enabled = true ∧ P (s.root r) := by
  constructor
  · rintro ⟨v, hv, enabled, hp⟩
    obtain ⟨⟨r, w⟩, he, rfl⟩ := List.mem_map.1 hv
    have : s.root r = w := by rw [State.root, Table.get, Table.find?, mem_lookup listed he]; rfl
    exact ⟨r, by rw [this]; exact enabled, by rw [this]; exact hp⟩
  · rintro ⟨r, enabled, hp⟩
    cases h : s.tt.roots.find? r with
    | none =>
      rw [State.root, Table.get, h] at enabled
      cases enabled
    | some v =>
      have : s.root r = v := by rw [State.root, Table.get, h]; rfl
      rw [this] at enabled hp
      exact ⟨v, List.mem_map.2 ⟨(r, v), lookup_mem h, rfl⟩, enabled, hp⟩

theorem trace_retrace (s : State) (k : RootKind) : (retrace s).trace k = s.trace k :=
  trace_same (s := s) (t := retrace s) rfl rfl rfl rfl k

/-- R57, R58: the colours after a recomputation are those of the traces. -/
theorem coloursAgree_retrace {s : State} (listed : ascending s.tt.roots.entries = true) : ColoursAgree (retrace s) := by
  refine ⟨Table.ascending_mapValues _ _ listed, fun dom x c => ?_⟩
  have built : (retrace s).colours dom x = (s.buildColours dom).get ColourSet.none x := by cases dom <;> rfl
  have roots : ∀ r, ((retrace s).root r).enabled = (s.root r).enabled ∧ ((retrace s).root r).config = (s.root r).config :=
    fun r => by rw [root_retrace]; exact after_kept _ _
  rw [built, has_buildColours]
  simp only [traceRoot_terminal, roots, trace_retrace]
  have regroup : ∀ v : Root,
      (∃ cfg, (v.enabled = true ∧ ∃ cfg, v.config = some cfg ∧ s.trace cfg.kind = .terminal x) ∧ v.config = some cfg ∧
        cfg.domain = dom ∧ cfg.colour = c) ↔
      v.enabled = true ∧ ∃ cfg, v.config = some cfg ∧ cfg.domain = dom ∧ cfg.colour = c ∧ s.trace cfg.kind = .terminal x := by
    intro v
    constructor
    · rintro ⟨cfg, ⟨enabled, cfg', h', traced⟩, h, hd, hc⟩
      rw [h'] at h; cases h
      exact ⟨enabled, _, h', hd, hc, traced⟩
    · rintro ⟨enabled, cfg, h, hd, hc, traced⟩
      exact ⟨cfg, ⟨enabled, cfg, h, traced⟩, h, hd, hc⟩
  simp only [regroup]
  rw [mem_roots listed]
  exact exists_congr fun r => ⟨fun ⟨e, cfg, h⟩ => ⟨cfg, e, h⟩, fun ⟨cfg, e, h⟩ => ⟨e, cfg, h⟩⟩

theorem coloursAgree_recomputeTally {s : State} (listed : ascending s.tt.roots.entries = true) :
    ColoursAgree (recomputeTally s) := by
  obtain ⟨tt, rc⟩ := recomputeTally_cases s
  exact (coloursAgree_retrace listed).kept (State.levelAt_of_rc rc) tt

theorem coloursAgree_routeChange {s : State} (listed : ascending s.tt.roots.entries = true) :
    ColoursAgree (routeChange s) := (coloursAgree_recomputeTally listed).kept rfl rfl

/-! ### Every step keeps the colours -/

theorem allStale_selection (m : Mixer) (b : Nat) : (m.allStale.bus b).selection = (m.bus b).selection := by
  unfold Mixer.allStale
  generalize numbers 1 8 = bs
  induction bs generalizing m with
  | nil => rfl
  | cons a bs ih =>
    rw [List.foldl_cons, ih]
    unfold Mixer.setBus Mixer.bus
    by_cases h : b = a
    · rw [h, Table.get_set_self]
    · rw [Table.get_set_ne _ _ h]

theorem allStale_source_selection (m : Mixer) (v : MixerSource) (b : Nat) :
    ({ m.allStale with source := v }.bus b).selection = (m.bus b).selection := by
  rw [← allStale_selection m b, Mixer.bus, Mixer.bus]

/-- A mixer written with the selections that it has. -/
theorem tracing_setMixer {s : State} {m : Nat} {v : Mixer} (h : ∀ b, (v.bus b).selection = ((s.mixer m).bus b).selection) :
    (s.setMixer m v).tracing = s.tracing := by
  have selections : (s.setMixer m v).selections = s.selections := by
    funext n b
    unfold State.selections
    by_cases hn : n = m
    · rw [hn, State.mixer_setMixer_self, h]
    · rw [State.mixer_setMixer_ne _ hn]
  unfold State.tracing; rw [selections]; rfl

theorem tracing_staleBridge (p : Nat) (s : State) : (staleBridge p s).tracing = s.tracing := by
  unfold staleBridge
  refine foldl_keeps _ State.tracing (fun s m => ?_) _ s
  split
  · exact tracing_setMixer (allStale_selection _)
  · rfl

theorem tracing_staleAllBridges (s : State) : (staleAllBridges s).tracing = s.tracing := by
  unfold staleAllBridges
  refine foldl_keeps _ State.tracing (fun s m => ?_) _ s
  split
  · rfl
  · exact tracing_setMixer (allStale_selection _)

/-- R11: a mapped range brings on source 0, as it did while it was not fitted. -/
theorem coloursAgree_mapDevice {s : State} {a : FabricArgs} (hf : LevelsFitted s) (hs : ColoursAgree s)
    (free : s.rangeTaken a.level a.first a.last = false) : ColoursAgree (mapDevice a.device a s) := by
  have feeds : (mapDevice a.device a s).feeds = s.feeds := by
    funext d l
    unfold State.feeds
    rw [levelAt_mapDevice]
    by_cases h : l = a.level ∧ a.first ≤ d ∧ d ≤ a.last
    · rw [if_pos h]
      obtain ⟨rfl, hd⟩ := h
      have : s.levelAt d a.level = .notFitted := by
        by_contra fitted
        obtain ⟨n, v, hv, covered⟩ := (hf.fitted d a.level).1 fitted
        rw [rangeTaken_covers free hv hd] at covered; cases covered
      rw [this]
    · rw [if_neg h]
  refine hs.congr ?_
  unfold State.tracing State.colours State.tie? State.selections State.mixer State.mapEntry
  rw [feeds, mapDevice_tt]

theorem coloursAgree_closeWindow {s : State} (hs : ColoursAgree s) (w : Window) : ColoursAgree (closeWindow w s) := by
  obtain ⟨levels, -⟩ := closeWindow_fabric w s
  have traced := foldl_keeps applyWrite State.tt (fun s w => applyWrite_tt s w) w.writes s
  have reported := foldl_keeps (reportGroup w.writes) State.tt (fun s g => reportGroup_tt _ s g) w.groups
  have before : ∀ rc, (w.groups.foldl (reportGroup w.writes)
      { evaluateFabric (w.writes.foldl applyWrite s) with rc := rc }).tt = s.tt := fun rc => by rw [reported]; simp [traced]
  unfold closeWindow at levels ⊢
  dsimp only at levels ⊢
  split at levels
  · next changed =>
    rw [if_pos changed]
    exact (coloursAgree_routeChange (by rw [before]; exact hs.listed)).kept rfl rfl
  · next unchanged =>
    rw [if_neg unchanged]
    have same : (w.writes.foldl applyWrite s).levelAt = s.levelAt := by
      funext d l
      by_cases written : ∃ x ∈ w.writes, x.dest = d ∧ x.level = l
      · obtain ⟨x, hx, rfl, rfl⟩ := written
        by_contra h
        exact unchanged (List.any_eq_true.2 ⟨x, hx, by simpa [bne_iff_ne] using Ne.symm h⟩)
      · rw [levels_fold, closedLevel, List.filter_eq_nil_iff.2 fun x hx h => written ⟨x, hx, by simpa using h⟩]; rfl
    exact hs.kept (levels.trans same) (before _)

theorem coloursAgree_switchPoint {s : State} (hs : ColoursAgree s) : ColoursAgree (switchPoint s) := by
  unfold switchPoint openWindow
  split
  · exact hs
  · split
    · exact hs
    · have opened : ∀ q w n, ColoursAgree { s with rc := { s.rc with queue := q, window := w, windows := n } } :=
        fun _ _ _ => hs.kept rfl rfl
      exact ite_keeps (P := ColoursAgree) (fun _ => coloursAgree_closeWindow (opened _ _ _) _) fun _ => opened _ _ _

theorem coloursAgree_takeAnswer {s : State} (hs : ColoursAgree s) (n d : Nat) (l : Level) (a : Bool) :
    ColoursAgree (takeAnswer n d l a s) := by
  unfold takeAnswer
  split
  · exact hs
  · split
    · exact ite_keeps (P := ColoursAgree) (fun _ => hs.kept rfl rfl) fun _ => coloursAgree_closeWindow hs _
    · exact hs

theorem coloursAgree_expireWindow {s : State} (hs : ColoursAgree s) : ColoursAgree (expireWindow s) := by
  unfold expireWindow
  split
  · exact hs
  · exact coloursAgree_closeWindow hs _

theorem coloursAgree_endReadback {s : State} (hs : ColoursAgree s) (n : Nat) (v : Device) (k : ReadbackKind) (p : DevicePhase)
    (x : List LevelState) : ColoursAgree (endReadback n v k p x s) :=
  coloursAgree_routeChange (by simp [hs.listed])

theorem coloursAgree_completeReadback {s : State} (hs : ColoursAgree s) (n : Nat) (x : List Nat) :
    ColoursAgree (completeReadback n x s) := by
  unfold completeReadback
  split
  · exact hs
  · split
    · exact ite_keeps (fun _ => coloursAgree_endReadback hs ..) fun _ => hs
    · exact hs

theorem coloursAgree_failReadback {s : State} (hs : ColoursAgree s) (n : Nat) : ColoursAgree (failReadback n s) := by
  unfold failReadback
  split
  · exact hs
  · split
    · exact coloursAgree_endReadback hs ..
    · exact hs

theorem tracing_of_blocks {s t : State} (rc : t.rc = s.rc) (tt : t.tt = s.tt) : t.tracing = s.tracing := by
  unfold State.tracing
  rw [State.feeds_of_levels (State.levelAt_of_rc rc)]
  unfold State.colours State.tie? State.selections State.mixer State.mapEntry
  rw [tt]

/-- R49: the loss or the removal of a panel leaves the selections of its mixer. -/
theorem tracing_dropPanel (p : Nat) (s : State) :
    (staleBridge p (dropPanelCalls p (dropPanelTalks p s))).tracing = s.tracing :=
  (tracing_staleBridge p _).trans (tracing_of_blocks (by simp) (by simp))

theorem tracing_panelStateChanged (s : State) : (panelStateChanged s).tracing = s.tracing :=
  tracing_of_blocks (by simp) (by simp)

theorem tracing_missPoll (p : Nat) (s : State) : (missPoll p s).tracing = s.tracing := by
  unfold missPoll
  split
  · rfl
  · split
    · exact (tracing_panelStateChanged _).trans ((tracing_dropPanel p _).trans rfl)
    · rfl

theorem tracing_outcome (t : Transaction) (j : BusJudgement) (s : State) : (outcome t j s).tracing = s.tracing := by
  unfold outcome
  split
  case h_5 | h_6 | h_8 => exact (tracing_missPoll _ _).trans (tracing_of_blocks (by simp) (by simp))
  all_goals exact tracing_of_blocks (by simp) (by simp)

theorem tracing_endTransaction (j : Transaction → State → BusJudgement) (s : State) :
    (endTransaction j s).tracing = s.tracing := by
  unfold endTransaction
  split
  · rfl
  · next t _ =>
    show State.tracing (if _ then _ else _) = _
    split
    · rfl
    · exact tracing_outcome t _ { s with pbc := { s.pbc with transaction := none } }

theorem tracing_restartPanels (s : State) : (restartPanels s).tracing = s.tracing := by
  have dropped : ∀ x, (staleAllBridges (dropAllCalls (idleAllKeys (endTalks (State.talkIds x Talk.ofAnyPanel) x)))).tracing =
      x.tracing := fun x => (tracing_staleAllBridges _).trans (tracing_of_blocks (by simp) (by simp))
  have changed : ∀ (c : Prop) [Decidable c] (x : State), (relamp (if c then panelStateChanged x else evaluatePanelErrors x)).tracing =
      x.tracing := fun c _ x => by
    show State.tracing (if c then panelStateChanged x else evaluatePanelErrors x) = _
    split
    · exact tracing_panelStateChanged x
    · exact tracing_of_blocks (by simp) (by simp)
  unfold restartPanels
  dsimp only
  have both := (changed (s.pbc.panels.values.any (fun v => v.state != .absent) = true) _).trans (dropped
    { s with pbc := restartBus s.pbc, fd := { s.fd with contexts := ⟨[]⟩, held := ⟨[]⟩ } })
  exact ite_keeps (P := fun t => t.tracing = s.tracing) (fun _ => both.trans rfl) fun _ => both.trans rfl

theorem tracing_removePanel (p : Nat) (v : Panel) (s : State) : (removePanel p v s).tracing = s.tracing := by
  have cleared : ∀ x, (dropHeld p ((clearProtects p x).setContext p Context.start)).tracing = x.tracing := fun x => by
    have levels : (clearProtects p x).levelAt = x.levelAt := State.levelAt_of_fabric (fabric_rewriteProtects _ x)
    rw [tracing_of_blocks (s := clearProtects p x) (by simp) (by simp)]
    unfold State.tracing
    rw [State.feeds_of_levels levels]
    unfold State.colours State.tie? State.selections State.mixer State.mapEntry
    rw [clearProtects_tt]
  unfold removePanel
  dsimp only
  split
  · exact (tracing_dropPanel p _).trans (cleared _)
  · exact (tracing_panelStateChanged _).trans ((tracing_dropPanel p _).trans (cleared _))

/-- No root is enabled and no colour is shown. -/
theorem coloursAgree_start {t : State} (h : t.tt = TallyTracer.start) : ColoursAgree t := by
  have root : ∀ r, t.root r = Root.start := fun r => by rw [State.root, h]; rfl
  have colours : ∀ dom x, t.colours dom x = ColourSet.none := fun dom x => by
    unfold State.colours; rw [h]; cases dom <;> rfl
  refine ⟨by rw [h]; rfl, fun dom x c => iff_of_false ?_ ?_⟩
  · rw [colours]; cases c <;> nofun
  · rintro ⟨r, cfg, enabled, -⟩; rw [root] at enabled; cases enabled

theorem coloursAgree_applyBusState {s : State} (hs : ColoursAgree s) (p b i : Nat) : ColoursAgree (applyBusState p b i s) := by
  unfold applyBusState
  split
  · exact hs
  · exact ite_keeps (fun _ => coloursAgree_recomputeTally hs.listed) fun _ => hs

theorem fabricAndColours_offline : Offline fun s => LevelsFitted s ∧ ColoursAgree s :=
  ⟨fun _ _ hs => ⟨hs.1.kept rfl, hs.2.kept rfl rfl⟩, fun _ _ hs => ⟨hs.1.kept rfl, hs.2.kept rfl rfl⟩⟩

theorem coloursAgree_effect {s t : State} {mark : Bool} (h : Effect s mark t) (hf : LevelsFitted s) (hs : ColoursAgree s) : ColoursAgree t := by
  cases h with
  | powerOn | restartAll => exact coloursAgree_start rfl
  | restartPanels => exact hs.congr (tracing_restartPanels s)
  | setDomain d dom => exact hs.kept (State.levelAt_of_fabric (fabric_setDest rfl)) rfl
  | setProtect d v => exact hs.kept (State.levelAt_of_fabric (fabric_setProtect d v s)) rfl
  | rewriteProtects f =>
    have levels := State.levelAt_of_fabric (fabric_rewriteProtects f s)
    exact (hs.kept levels (rewriteProtects_tt f s)).kept (State.levelAt_of_rc (relamp_rc _)) (relamp_tt _)
  | mapDevice a fresh free => exact (coloursAgree_mapDevice hf hs free).kept rfl rfl
  | retryDevice n v found =>
    exact (hs.kept (State.levelAt_of_fabric (fabric_retryDevice found)) (by simp)).kept rfl rfl
  | completeReadback n x => exact coloursAgree_completeReadback hs n x
  | failReadback n => exact coloursAgree_failReadback hs n
  | take e t accepted =>
    exact (hs.kept (State.levelAt_of_fabric (fabric_offerTake accepted)) (offerTake_tt accepted)).kept rfl rfl
  | fireSalvo n o f t accepted =>
    exact (hs.kept (State.levelAt_of_fabric (fabric_fireSalvo accepted)) (fireSalvo_tt accepted)).kept rfl rfl
  | switchPoint v => exact coloursAgree_switchPoint (hs.kept rfl rfl)
  | takeAnswer n d l a => exact coloursAgree_takeAnswer hs n d l a
  | expireWindow => exact coloursAgree_expireWindow hs
  | setRoot r v => exact coloursAgree_routeChange (Table.ascending_put _ r v hs.listed)
  | selectBuses | setMaps | setTie | clearTie => exact coloursAgree_routeChange hs.listed
  | setMixerSource m v => exact hs.congr (tracing_setMixer fun b => allStale_source_selection (s.mixer m) v b)
  | removePanel p v =>
    exact (hs.congr (tracing_removePanel p v s)).kept (State.levelAt_of_rc (relamp_rc _)) (relamp_tt _)
  | endTransaction j => exact hs.congr (tracing_endTransaction j s)
  | press p k es =>
    have levels : (handlePress p k (s.withEvents es)).levelAt = (s.withEvents es).levelAt :=
      State.levelAt_of_fabric (fabric_handlePress p k _)
    have pressed : ColoursAgree (handlePress p k (s.withEvents es)) :=
      ColoursAgree.kept (s := s.withEvents es) (hs.kept rfl rfl) levels (handlePress_tt ..)
    exact pressed.kept (State.levelAt_of_rc (relamp_rc _)) (relamp_tt _)
  | busState p b i es => exact (coloursAgree_applyBusState (s := s.withEvents es) (hs.kept rfl rfl) p b i).kept rfl rfl
  | storeSalvo => exact hs.kept rfl rfl
  | _ => exact hs.kept (State.levelAt_of_rc (by simp <;> rfl)) (by simp <;> rfl)

/-- Settles O56: a level changes between not fitted and fitted with its device alone, and every change of what a trace reads
is followed by a recomputation or leaves its terminals. -/
theorem coloursStayTraced : Obligations.ColoursStayTraced :=
  ⟨fun _ _ hs h => step_keeps levelsFitted_offline (fun _ _ => levelsFitted_effect) h hs,
    fun _ _ hf hs h => (step_keeps fabricAndColours_offline (fun _ _ _ e ⟨f, c⟩ =>
      ⟨levelsFitted_effect e f, coloursAgree_effect e f c⟩) h ⟨hf, hs⟩).2⟩

end Sys2Proof.Machine

/-! The talk events: what one step can do to the talk set, the IFBs and the path table, as a chain of creations, endings and
other handlings.  An invariant over them is kept by every step when every talk event keeps it. -/

namespace Sys2Proof.Machine

/-- What the talk set, the IFBs and the path table are, and what their derived parts read besides: the ports, the groups, the
cameras, the colours and the functions. -/
structure Conference where
  talks : List Talk
  counter : Nat
  ifbs : Table Ifb
  ports : Table Port
  groups : Table (List Nat)
  mix : TalkMix
  cameras : Table Camera
  colours : Domain → Nat → ColourSet
  functions : Table KeyFunction

/-- The conference of a state. -/
def State.conference (s : State) : Conference :=
  ⟨s.tc.talks, s.tc.counter, s.tc.ifbs, s.tc.ports, s.tc.groups, s.tme, s.tou.cameras, s.colours, s.fd.functions⟩

/-- The talk events.  A talk of panel origin is created for a panel of `served` alone. -/
inductive TalkEvent (served : Nat → Prop) (s : State) : State → Prop
  | same {t : State} (h : t.conference = s.conference) : TalkEvent served s t
  | ended (ids : List Nat) : TalkEvent served s (endTalks ids s)
  | created (o : TalkOffer) (q : Nat) (talker : o.talker = some q) (passes : s.offerRefusal o = none)
      (priority : o.priority ≤ 7 ∨ ∃ f x target dom mode level, s.function? f = some x ∧
        x.action = .talk target dom mode level o.priority)
      (origin : ∀ p k, o.origin = .panel p k → served p) : TalkEvent served s (createTalk (s.newTalk o q) s)
  | recoloured {u : State} (h : u.conference = { s.conference with colours := u.colours }) : TalkEvent served s (resolveOnair u)
  | camera (c : Nat) (v : Option Camera) :
      TalkEvent served s (cameraChange c (cameraDomains (s.camera? c) v) (driveAll (writeCamera c v s)))
  | ifbConfigured (n : Nat) (a : IfbArgs) (range : 1 ≤ n ∧ n ≤ 16) (fits : s.ifbPortsFit n a = true) :
      TalkEvent served s (writeIfb n (some (s.configuredIfb n a)) s)
  | ifbCleared (n : Nat) (unaddressed : s.ifbAddressed n = false) : TalkEvent served s (writeIfb n none s)
  | port (q : Nat) (v : Port) : TalkEvent served s (recompute (s.setPort q v))
  | group (g : Nat) (ports : List Nat) (unaddressed : ∀ t ∈ s.tc.talks, t.target ≠ .group g) :
      TalkEvent served s { s with tc := { s.tc with groups := s.tc.groups.set [] g ports } }
  | function (f : Nat) (x : KeyFunction) (fits : x.action.inRange = true) :
      TalkEvent served s { s with fd := { s.fd with functions := s.fd.functions.put f x } }
  | functionErased (f : Nat) : TalkEvent served s { s with fd := { s.fd with functions := s.fd.functions.erase f } }
  | recounted (none_left : s.tc.talks = []) : TalkEvent served s { s with tc := { s.tc with counter := 1 } }
  | started {t : State} (h : t.conference = State.reset.conference) : TalkEvent served s t

/-- A chain of talk events. -/
abbrev TalkChain (served : Nat → Prop) : State → State → Prop := Relation.ReflTransGen (TalkEvent served)

section
variable {served : Nat → Prop}

theorem TalkEvent.chain {s t : State} (h : TalkEvent served s t) : TalkChain served s t := .single h

theorem TalkChain.still {s t : State} (h : t.conference = s.conference) : TalkChain served s t := .single (.same h)

/-- A chain of talk events followed by what leaves the conference. -/
theorem TalkChain.then {s t u : State} (h : TalkChain served s t) (hu : u.conference = t.conference) : TalkChain served s u :=
  h.tail (.same hu)

/-- A chain of talk events after what leaves the conference. -/
theorem TalkChain.after {s t u : State} (ht : t.conference = s.conference) (h : TalkChain served t u) : TalkChain served s u :=
  .head (.same ht) h

/-- The blocks that a conference reads as they were. -/
theorem conference_of_blocks {s t : State} (tc : t.tc = s.tc) (tme : t.tme = s.tme) (tou : t.tou = s.tou) (tt : t.tt = s.tt)
    (fd : t.fd.functions = s.fd.functions) : t.conference = s.conference := by
  unfold State.conference State.colours; rw [tc, tme, tou, tt, fd]

@[simp] theorem conference_relamp (s : State) : (relamp s).conference = s.conference := rfl

@[simp] theorem conference_raise (f : Flag) (s : State) : (raise f s).conference = s.conference := by rw [raise_eq]; rfl

@[simp] theorem conference_driveAll (s : State) : (driveAll s).conference = s.conference := rfl

@[simp] theorem conference_setKey (p k : Nat) (v : KeyTalk) (s : State) : (s.setKey p k v).conference = s.conference := rfl

@[simp] theorem conference_keyRefusal (p k : Nat) (why : Reason) (s : State) :
    (keyRefusal p k why s).conference = s.conference := conference_of_blocks (by simp) (by simp) (by simp) (by simp) (by simp)

@[simp] theorem conference_panelStateChanged (s : State) : (panelStateChanged s).conference = s.conference :=
  conference_of_blocks (by simp) (by simp) (by simp) (by simp) (by simp)

theorem conference_dropPanelCalls (p : Nat) (s : State) : (dropPanelCalls p s).conference = s.conference := by
  unfold dropPanelCalls; split <;> rfl

theorem conference_dropAllCalls (s : State) : (dropAllCalls s).conference = s.conference := by
  unfold dropAllCalls; split <;> rfl

theorem conference_staleBridge (p : Nat) (s : State) : (staleBridge p s).conference = s.conference := by
  unfold State.conference; rw [staleBridge_colours]; simp

theorem conference_staleAllBridges (s : State) : (staleAllBridges s).conference = s.conference := by
  unfold State.conference; rw [staleAllBridges_colours]; simp

/-! ### The chains of the effects -/

/-- R61, R98: a recomputation resolves the ONAIR talks again when a colour set changes. -/
theorem recomputeTally_chain (s : State) : TalkChain served s (recomputeTally s) := by
  have differs := retrace_differs_iff s
  have faulted : ∀ b : Bool, (if b = true then raise .traceFault (retrace s) else retrace s).conference =
      (retrace s).conference := by
    intro b; split
    · exact conference_raise _ _
    · rfl
  unfold recomputeTally
  dsimp only
  split
  · refine TalkEvent.chain (.recoloured ?_)
    rw [conference_driveAll, conference_raise, faulted]
    have colours : (driveAll (raise .tallyChange (if newFault s.tt.roots (retrace s).tt.roots then raise .traceFault (retrace s)
        else retrace s))).colours = (retrace s).colours := by
      show (raise .tallyChange _).colours = _
      rw [raise_eq]
      exact congrArg Conference.colours (faulted _)
    rw [colours]; rfl
  · next same =>
    refine TalkChain.still ((faulted _).trans ?_)
    have colours : (retrace s).colours = s.colours := by
      funext dom x
      by_contra h
      exact same (differs.2 ⟨dom, x, h⟩)
    unfold State.conference; rw [colours]; rfl

theorem routeChange_chain (s : State) : TalkChain served s (routeChange s) := (recomputeTally_chain s).then rfl

/-- A recomputation after a change of the Tally Tracer that leaves the colours. -/
theorem retraced_chain {s t : State} (h : t.conference = s.conference) : TalkChain served s (relamp (recomputeTally t)) :=
  (TalkChain.after h (recomputeTally_chain t)).then rfl

theorem endReadback_chain (n : Nat) (v : Device) (k : ReadbackKind) (p : DevicePhase) (x : List LevelState) (s : State) :
    TalkChain served s (endReadback n v k p x s) :=
  TalkChain.after (conference_of_blocks (by simp) (by simp) (by simp) (by simp) (by simp)) (routeChange_chain _)

theorem completeReadback_chain (n : Nat) (x : List Nat) (s : State) : TalkChain served s (completeReadback n x s) := by
  unfold completeReadback
  split
  · exact .refl
  · split
    · exact ite_keeps (fun _ => endReadback_chain ..) fun _ => .refl
    · exact .refl

theorem failReadback_chain (n : Nat) (s : State) : TalkChain served s (failReadback n s) := by
  unfold failReadback
  split
  · exact .refl
  · split
    · exact endReadback_chain ..
    · exact .refl

theorem conference_reportGroup (ws : List Write) (s : State) (g : DrawnGroup) :
    (reportGroup ws s g).conference = s.conference := by
  have ended : ∀ (f : Firing) (x : State), (endFiring f x).conference = x.conference := fun f x => by
    obtain ⟨fs, eq, -⟩ := endFiring_eq f x
    rw [eq]; rfl
  unfold reportGroup
  split
  · refine foldl_keeps _ State.conference (fun x d => ?_) _ s
    unfold reportTake
    split <;> first | exact conference_keyRefusal .. | rfl
  · exact ended _ s

theorem closeWindow_chain (w : Window) (s : State) : TalkChain served s (closeWindow w s) := by
  have written := foldl_keeps applyWrite State.conference
    (fun s w => conference_of_blocks (by simp) (by simp) (by simp) (by simp) (by simp)) w.writes s
  have reported := foldl_keeps (reportGroup w.writes) State.conference (conference_reportGroup w.writes) w.groups
  have before : ∀ rc, (w.groups.foldl (reportGroup w.writes)
      { evaluateFabric (w.writes.foldl applyWrite s) with rc := rc }).conference = s.conference := fun rc => by
    rw [reported]
    refine Eq.trans ?_ written
    exact conference_of_blocks (by simp) (by simp) (by simp) (by simp) (by simp)
  unfold closeWindow
  dsimp only
  split
  · exact (TalkChain.after (before _) (routeChange_chain _)).then rfl
  · exact TalkChain.still (before _)

theorem switchPoint_chain (s : State) : TalkChain served s (switchPoint s) := by
  unfold switchPoint openWindow
  split
  · exact .refl
  · split
    · exact .refl
    · exact ite_keeps (P := TalkChain served s) (fun _ => TalkChain.after (by rfl) (closeWindow_chain _ _)) fun _ => .still rfl

theorem takeAnswer_chain (n d : Nat) (l : Level) (a : Bool) (s : State) : TalkChain served s (takeAnswer n d l a s) := by
  unfold takeAnswer
  split
  · exact .refl
  · split
    · exact ite_keeps (P := TalkChain served s) (fun _ => .still rfl) fun _ => closeWindow_chain _ s
    · exact .refl

theorem expireWindow_chain (s : State) : TalkChain served s (expireWindow s) := by
  unfold expireWindow
  split
  · exact .refl
  · exact closeWindow_chain _ s

/-- R151, R135: the loss or the removal of a panel ends its talks. -/
theorem dropPanel_chain (p : Nat) (s : State) :
    TalkChain served s (staleBridge p (dropPanelCalls p (dropPanelTalks p s))) :=
  (TalkEvent.chain (.ended (s.talkIds (Talk.ofPanel p)))).then
    ((conference_staleBridge p _).trans ((conference_dropPanelCalls p _).trans rfl))

theorem missPoll_chain (p : Nat) (s : State) : TalkChain served s (missPoll p s) := by
  unfold missPoll
  split
  · exact .refl
  · split
    · next v _ _ =>
      have lost : TalkChain served s ((s.setPanel p { v with state := .lost, missed := 0, page := false }).setContext p
        Context.start) := .still rfl
      exact TalkChain.then (lost.trans (dropPanel_chain p _)) (conference_panelStateChanged _)
    · exact .still rfl

theorem countError_conference (p : Nat) (k : ErrorKind) (s : State) : (countError p k s).conference = s.conference :=
  conference_of_blocks (by simp) (by simp) (by simp) (by simp) (by simp)

theorem outcome_chain (t : Transaction) (j : BusJudgement) (s : State) : TalkChain served s (outcome t j s) := by
  unfold outcome
  split
  · exact .refl
  · exact .still (countError_conference ..)
  · refine .still ?_
    unfold takeIdent
    split
    · rfl
    · split
      · exact conference_panelStateChanged _
      · exact countError_conference ..
  · exact .still (countError_conference ..)
  · exact TalkChain.after (countError_conference ..) (missPoll_chain _ _)
  · exact TalkChain.after (countError_conference ..) (missPoll_chain _ _)
  · exact .still (conference_of_blocks (by simp) (by simp) (by simp) (by simp) (by simp))
  · exact TalkChain.after (countError_conference ..) (missPoll_chain _ _)

theorem endTransaction_chain (j : Transaction → State → BusJudgement) (s : State) : TalkChain served s (endTransaction j s) := by
  unfold endTransaction
  split
  · exact .refl
  · next t _ =>
    have judged : TalkChain served s (if t.discard then { s with pbc := { s.pbc with transaction := none } }
        else relamp (outcome t (j t s) { s with pbc := { s.pbc with transaction := none } })) :=
      ite_keeps (fun _ => .still rfl) fun _ =>
        (TalkChain.after (s := s) (t := { s with pbc := { s.pbc with transaction := none } }) rfl
          (outcome_chain t (j t s) _)).then (conference_relamp _)
    exact judged.then rfl

theorem removePanel_chain (p : Nat) (v : Panel) (s : State) : TalkChain served s (removePanel p v s) := by
  have cleared : ∀ b, (dropHeld p ((clearProtects p { s with pbc := b }).setContext p Context.start)).conference =
      s.conference := fun b => conference_of_blocks (by simp) (by simp) (by simp) (by simp) (by simp [dropHeld])
  have dropped := fun b => TalkChain.after (served := served) (cleared b) (dropPanel_chain p _)
  unfold removePanel
  dsimp only
  split
  · exact dropped _
  · exact (dropped _).then (conference_panelStateChanged _)

theorem restartPanels_chain (s : State) : TalkChain served s (restartPanels s) := by
  have evaluated : ∀ x, (evaluatePanelErrors x).conference = x.conference :=
    fun x => conference_of_blocks (by simp) (by simp) (by simp) (by simp) (by simp)
  have changed : ∀ (b : Bool) x, (if b = true then panelStateChanged x else evaluatePanelErrors x).conference =
      x.conference := fun b x => by
    split
    · exact conference_panelStateChanged x
    · exact evaluated x
  have start : TalkChain served s { s with pbc := restartBus s.pbc, fd := { s.fd with contexts := ⟨[]⟩, held := ⟨[]⟩ } } := .still rfl
  have ended := start.tail (.ended (State.talkIds
    { s with pbc := restartBus s.pbc, fd := { s.fd with contexts := ⟨[]⟩, held := ⟨[]⟩ } } Talk.ofAnyPanel))
  have dropped := TalkChain.then ended ((conference_staleAllBridges _).trans ((conference_dropAllCalls (idleAllKeys _)).trans rfl))
  unfold restartPanels
  dsimp only
  exact ite_keeps (P := TalkChain served s) (fun _ => TalkChain.then dropped (changed _ _)) fun _ =>
    TalkChain.then dropped (changed _ _)

/-- R87: every talk ends. -/
theorem endTalks_all (s : State) : (endTalks (s.talkIds fun _ => true) s).tc.talks = [] := by
  unfold endTalks
  split
  · simp only [announceInterrupters_tc, handling_tc, removeTalks, resolveAgain, List.map_eq_nil_iff, List.filter_eq_nil_iff]
    intro t ht
    simp only [State.talkIds, List.filter_true, Bool.not_eq_true, Bool.not_eq_false', List.contains_iff_mem]
    exact List.mem_map.2 ⟨t, ht, rfl⟩
  · next h =>
    by_contra some_talk
    obtain ⟨t, ts, ht⟩ := List.exists_cons_of_ne_nil some_talk
    refine h (List.any_eq_true.2 ⟨t, by rw [ht]; exact .head _, ?_⟩)
    simp only [State.talkIds, List.filter_true, List.contains_iff_mem]
    exact List.mem_map.2 ⟨t, by rw [ht]; exact .head _, rfl⟩

theorem restartTalk_chain (s : State) : TalkChain served s (restartTalk s) := by
  have start : TalkChain served s { s with fd := { s.fd with contexts := ⟨[]⟩ } } := .still rfl
  have ended := TalkChain.then (u := idleAllKeys _) (start.tail (.ended
    (State.talkIds { s with fd := { s.fd with contexts := ⟨[]⟩ } } fun _ => true))) rfl
  exact TalkChain.then (ended.tail (.recounted (endTalks_all { s with fd := { s.fd with contexts := ⟨[]⟩ } }))) rfl

/-- R89: a press of a talk key creates a talk at most. -/
theorem pressIdle_chain {p k : Nat} {target : Target} {mode : TalkMode} {level : Int} {priority : Nat} (s : State)
    (service : s.inService p = true → served p)
    (h : ∃ f x dom, s.function? f = some x ∧ x.action = .talk target dom mode level priority) :
    TalkChain served s (pressIdle p k target mode level priority s) := by
  unfold pressIdle
  split
  · exact .refl
  · next v hv =>
    split
    · next inService =>
      dsimp only
      split
      · next q passes talker =>
        obtain ⟨f, x, dom, hf, hx⟩ := h
        have created : TalkChain served s (createTalk (s.newTalk _ q) s) :=
          TalkEvent.chain (.created _ q talker passes (.inr ⟨f, x, target, dom, mode, level, hf, hx⟩)
            fun _ _ e => (TalkOrigin.panel.inj e).1 ▸ service inService)
        split
        all_goals exact created.then rfl
      · exact .still (conference_keyRefusal ..)
      · exact .refl
    · exact .refl

theorem pressOwned_chain (p k : Nat) (s : State) : TalkChain served s (pressOwned p k s) := by
  unfold pressOwned
  dsimp only
  split
  · exact (TalkEvent.chain (.ended _)).then (conference_setKey ..)
  · exact (TalkEvent.chain (.ended _)).then (conference_setKey ..)
  · exact .refl

theorem releaseOwned_chain (p k : Nat) (s : State) : TalkChain served s (releaseOwned p k s) := by
  unfold releaseOwned
  dsimp only
  split
  case h_1 | h_5 => exact (TalkEvent.chain (.ended _)).then (conference_setKey ..)
  all_goals exact .still rfl

theorem conference_offerTake {e : Entry} {s t : State} (h : offerTake e s = .ok t) : t.conference = s.conference := by
  unfold offerTake at h
  split at h
  · cases h
  · split at h
    · cases h
    · obtain ⟨fs, eq, -⟩ := supersede_eq _ _ s
      cases h; rw [eq]; rfl

theorem conference_fireSalvo {n : Nat} {o : Origin} {force : Bool} {s t : State} (h : fireSalvo n o force s = .accepted t) :
    t.conference = s.conference := by
  unfold fireSalvo at h
  dsimp only at h
  split at h
  · cases h
  · split at h
    · cases h
    · obtain ⟨fs, eq, -⟩ := acceptEntries_eq (s.passing n o force) [] s
      cases h; rw [eq]; rfl

theorem conference_panelTake (p k d : Nat) (m : LevelMask) (x : Nat) (s : State) :
    (panelTake p k d m x s).conference = s.conference := by
  unfold panelTake
  split
  · next h => exact conference_offerTake h
  · exact conference_keyRefusal ..

theorem conference_panelFiring (p k n : Nat) (s : State) : (panelFiring p k n s).conference = s.conference := by
  unfold panelFiring
  split
  · exact conference_keyRefusal ..
  · rfl
  · next t h => exact (rfl : _ = t.conference).trans (conference_fireSalvo h)

theorem conference_panelToggle (p k d : Nat) (s : State) : (panelToggle p k d s).conference = s.conference := by
  unfold panelToggle
  split
  · rfl
  · exact conference_keyRefusal ..

theorem conference_callPress (p k c : Nat) (s : State) : (callPress p k c s).conference = s.conference := by
  unfold callPress
  (repeat' split) <;> first | exact conference_keyRefusal .. | rfl

theorem carryOut_chain {p k : Nat} {x : KeyFunction} (s : State) (service : s.inService p = true → served p) (h : ∃ f, s.function? f = some x) :
    TalkChain served s (carryOut p k x.action s) := by
  unfold carryOut
  split
  · exact .still (conference_panelTake ..)
  · exact .still rfl
  · exact .still rfl
  · split
    · exact .still (conference_panelTake ..)
    · exact .still (conference_keyRefusal ..)
  · exact .still (conference_panelFiring ..)
  · exact .still (conference_panelToggle ..)
  · split
    · exact .still (conference_panelToggle ..)
    · exact .still (conference_keyRefusal ..)
  · next hx => obtain ⟨f, hf⟩ := h; exact pressIdle_chain s service ⟨f, x, _, hf, hx⟩
  · exact .still (conference_callPress ..)
  · exact .still (by unfold togglePage; split <;> rfl)
  · exact .still (by rw [offerSystemKey, conference_raise]; split <;> rfl)

theorem usedFunction_bound {s : State} {p k : Nat} {v : Panel} {x : KeyFunction} (h : s.usedFunction p k v = .ok x) :
    ∃ f, s.function? f = some x := by
  unfold State.usedFunction at h
  split at h
  · cases h
  · split at h
    · cases h
    · next f hf =>
      split at h
      · cases h; exact ⟨_, hf⟩
      · cases h

theorem handlePress_chain (p k : Nat) (s : State) (service : s.inService p = true → served p) :
    TalkChain served s (handlePress p k s) := by
  unfold handlePress
  split
  · split
    · exact .refl
    · split
      · exact ite_keeps (fun _ => .still (conference_keyRefusal ..)) fun _ => .refl
      · next x hx =>
        have bound := usedFunction_bound hx
        refine ite_keeps (fun _ => carryOut_chain s service bound) fun _ => ?_
        unfold handOnUncaptured
        split
        · next hx => obtain ⟨f, hf⟩ := bound; exact pressIdle_chain s service ⟨f, x, _, hf, hx⟩
        · exact .still (conference_callPress ..)
        · exact .refl
  · exact pressOwned_chain p k s

theorem handleRelease_chain (p k : Nat) (s : State) : TalkChain served s (handleRelease p k s) := by
  unfold handleRelease
  split
  · split
    · exact .refl
    · refine .still ?_
      show (callRelease p k s).conference = _
      unfold callRelease; split <;> rfl
    · refine .still ?_
      show (offerSystemKey _ s).conference = _
      rw [offerSystemKey, conference_raise]; split <;> rfl
  · exact releaseOwned_chain p k s

theorem handleKnob_chain (p : Nat) (delta : Int) (s : State) : TalkChain served s (handleKnob p delta s) := by
  unfold handleKnob
  split
  · exact .refl
  · exact ite_keeps (fun _ => ite_keeps (fun _ => .refl) fun _ => TalkEvent.chain (.port _ _)) fun _ => .refl

theorem applyBusState_chain (p b i : Nat) (s : State) : TalkChain served s (applyBusState p b i s) := by
  unfold applyBusState
  split
  · exact .refl
  · exact ite_keeps (fun _ => TalkChain.after (by rfl) (recomputeTally_chain _)) fun _ => .refl

end

/-- Every effect is a chain of talk events. -/
theorem effect_chain {s t : State} {mark : Bool} (h : Effect s mark t) : TalkChain (fun p => s.inService p = true) s t := by
  cases h with
  | powerOn | restartAll => exact TalkEvent.chain (.started rfl)
  | restartPanels => exact restartPanels_chain s
  | restartTalk => exact restartTalk_chain s
  | completeReadback n x => exact completeReadback_chain n x s
  | failReadback n => exact failReadback_chain n s
  | take e t accepted => exact .still ((conference_relamp _).trans (conference_offerTake accepted))
  | fireSalvo n o f t accepted => exact .still ((conference_relamp _).trans (conference_fireSalvo accepted))
  | switchPoint v => exact TalkChain.after (by rfl) (switchPoint_chain _)
  | takeAnswer n d l a => exact takeAnswer_chain n d l a s
  | expireWindow => exact expireWindow_chain s
  | setRoot | selectBuses | setMaps | setTie | clearTie => exact retraced_chain rfl
  | setCamera c v => exact (TalkEvent.chain (.camera c v)).then rfl
  | setPort q v => exact TalkEvent.chain (.port q v)
  | setGroup g ports unaddressed => exact TalkEvent.chain (.group g ports unaddressed)
  | talkOn a fits passes =>
    simp only [TalkOnArgs.inRange, Bool.and_eq_true, within_iff] at fits
    have ended : TalkChain (fun p => s.inService p = true) s (endSlot a.slot s) := TalkEvent.chain (.ended _)
    exact TalkChain.then (ended.tail (.created a.offered a.talker rfl passes (.inl fits.2.2) nofun)) rfl
  | endSlot slot => exact TalkChain.then (t := endSlot slot s) (TalkEvent.chain (.ended _)) rfl
  | expireTimer p k => exact .still (by unfold expireTimer; dsimp only; split <;> rfl)
  | configureIfb n a range fits still => exact (TalkEvent.chain (.ifbConfigured n a range fits)).then rfl
  | unconfigureIfb n unaddressed => exact (TalkEvent.chain (.ifbCleared n unaddressed)).then rfl
  | removePanel p v => exact (removePanel_chain p v s).then rfl
  | endTransaction j => exact endTransaction_chain j s
  | press p k es => exact (TalkChain.after (s := s) (t := s.withEvents es) rfl (handlePress_chain p k _ id)).then (conference_relamp _)
  | release p k es => exact (TalkChain.after (s := s) (t := s.withEvents es) rfl (handleRelease_chain p k _)).then (conference_relamp _)
  | knob p delta es => exact TalkChain.after (s := s) (t := s.withEvents es) rfl (handleKnob_chain p delta _)
  | busState p b i es => exact (TalkChain.after (s := s) (t := s.withEvents es) rfl (applyBusState_chain p b i _)).then (conference_relamp _)
  | setFunction f v fits =>
    cases v with
    | none => exact (TalkEvent.chain (.functionErased f)).then rfl
    | some x => exact (TalkEvent.chain (.function f x (fits x rfl))).then rfl
  | transfer =>
    exact .still (conference_of_blocks (by simp) (by simp) (by simp) (by simp) (by simp))
  | writeOutput => exact .still (by rw [writeOutput, evaluateLampFault, handOver_eq]; rfl)
  | setFault => exact .still (by rw [setFault, evaluateLampFault, handOver_eq]; rfl)
  | retryDevice | rewriteProtects | endEmptyCycle =>
    exact .still (conference_of_blocks (by simp) (by simp) (by simp) (by simp) (by simp))
  | none | setDomain | setProtect | storeSalvo | timing | setMixerSource | flashClock | declarePanel | changePanel | countMode
  | setBinding | setLamp | takeSystemKeys => exact .still rfl
  | mapDevice => exact .still (conference_of_blocks (by simp) (by simp) (by simp) (by simp) (by simp))

/-- An invariant that every talk event keeps is kept along a chain. -/
theorem TalkChain.keeps {served : Nat → Prop} {P : State → Prop} (event : ∀ s t, TalkEvent served s t → P s → P t) {s t : State} (h : TalkChain served s t)
    (hs : P s) : P t := by
  induction h with
  | refl => exact hs
  | tail _ e ih => exact event _ _ e ih

/-- An invariant over the conference is kept by every step when every talk event keeps it. -/
theorem step_keeps_talks {P : State → Prop} (event : ∀ served s t, TalkEvent served s t → P s → P t) {s t : State}
    (h : step s = .next t) (hs : P s) : P t :=
  step_keeps ⟨fun s h hs => event (fun _ => True) s { s with hlc := h } (.same rfl) hs,
    fun s cs hs => event (fun _ => True) s { s with pending := cs } (.same rfl) hs⟩ (fun _ _ _ e => (effect_chain e).keeps (event _)) h hs

end Sys2Proof.Machine

/-! The bounds of the talk set (R84, R85), which every step keeps. -/

namespace Sys2Proof.Machine

/-! ### What the bounds read -/

/-- What the bounds of the talk set read of a talk: its id, its creation number and its reservation. -/
def Talk.numbers (t : Talk) : Nat × Nat × Nat := (t.id, t.creation, t.reservation)

/-- R84, R85: the bounds of a talk set but those of the creation numbers. -/
structure NumbersFit (ns : List (Nat × Nat × Nat)) : Prop where
  ids : (ns.map fun n => n.1).Nodup
  range : ∀ n ∈ ns, 1 ≤ n.1 ∧ n.1 ≤ Config.talkPlaces
  places : ns.length ≤ Config.talkPlaces
  total : (ns.map fun n => n.2.2).sum ≤ Config.reservationTotal

/-- R84, R85: the bounds of a talk set, over the numbers of its talks. -/
structure NumbersBounded (ns : List (Nat × Nat × Nat)) (counter : Nat) : Prop extends NumbersFit ns where
  order : ns.Pairwise fun m n => m.2.1 < n.2.1
  created : ∀ n ∈ ns, 1 ≤ n.2.1 ∧ n.2.1 < counter
  counter : 1 ≤ counter ∧ counter ≤ Config.lastNumber

theorem talkSetBounded_iff (s : State) :
    TalkSetBounded s ↔ NumbersBounded (s.tc.talks.map Talk.numbers) s.tc.counter := by
  constructor
  · rintro ⟨ids, range, places, order, created, counter, total⟩
    exact ⟨⟨by rw [List.map_map]; exact ids, by simpa [Talk.numbers] using range, by rw [List.length_map]; exact places,
      by rw [List.map_map]; exact total⟩, List.pairwise_map.2 order,
      by simpa [Talk.numbers] using created, counter⟩
  · rintro ⟨⟨ids, range, places, total⟩, order, created, counter⟩
    rw [List.map_map] at ids total
    rw [List.length_map] at places
    exact ⟨ids, by simpa [Talk.numbers] using range, places, by simpa [List.pairwise_map, Talk.numbers] using order,
      by simpa [Talk.numbers] using created, counter, total⟩

theorem TalkSetBounded.congr {s t : State} (hs : TalkSetBounded s)
    (talks : t.tc.talks.map Talk.numbers = s.tc.talks.map Talk.numbers) (counter : t.tc.counter = s.tc.counter) :
    TalkSetBounded t := by
  rw [talkSetBounded_iff, talks, counter]; exact (talkSetBounded_iff s).1 hs

theorem sameTalks_numbers {ts us : List Talk} (h : SameTalks ts us) : ts.map Talk.numbers = us.map Talk.numbers := by
  have : Talk.numbers = Talk.numbers ∘ Talk.bare := rfl
  rw [this, ← List.map_map, ← List.map_map, show ts.map Talk.bare = us.map Talk.bare from h]

/-- Fewer talks, in the same order, keep the bounds while the reservations do. -/
theorem NumbersBounded.fewer {ns ms : List (Nat × Nat × Nat)} {counter : Nat} (h : NumbersBounded ns counter)
    (sub : (ms.map fun n => (n.1, n.2.1)).Sublist (ns.map fun n => (n.1, n.2.1)))
    (total : (ms.map fun n => n.2.2).sum ≤ Config.reservationTotal) : NumbersBounded ms counter := by
  have ids : (ns.map fun n => (n.1, n.2.1)).map Prod.fst = ns.map fun n => n.1 := List.map_map ..
  have ids' : (ms.map fun n => (n.1, n.2.1)).map Prod.fst = ms.map fun n => n.1 := List.map_map ..
  have known : ∀ m ∈ ms, ∃ n ∈ ns, n.1 = m.1 ∧ n.2.1 = m.2.1 := fun m hm => by
    obtain ⟨n, hn, e⟩ := List.mem_map.1 (sub.subset (List.mem_map_of_mem hm))
    exact ⟨n, hn, (Prod.mk.inj e).1, (Prod.mk.inj e).2⟩
  refine ⟨⟨?_, fun m hm => ?_, ?_, total⟩, ?_, fun m hm => ?_, h.counter⟩
  · rw [← ids']; exact (ids ▸ h.ids : List.Nodup _).sublist (sub.map _)
  · obtain ⟨n, hn, id, -⟩ := known m hm
    rw [← id]; exact h.range n hn
  · simpa using sub.length_le.trans (by simpa using h.places)
  · have order : (ns.map fun n => (n.1, n.2.1)).Pairwise fun m n => m.2 < n.2 := List.pairwise_map.2 h.order
    exact (List.pairwise_map (f := fun n : Nat × Nat × Nat => (n.1, n.2.1))).1 (order.sublist sub)
  · obtain ⟨n, hn, -, creation⟩ := known m hm
    rw [← creation]; exact h.created n hn

theorem NumbersBounded.sublist {ns ms : List (Nat × Nat × Nat)} {counter : Nat} (h : NumbersBounded ns counter)
    (sub : ms.Sublist ns) : NumbersBounded ms counter :=
  h.fewer (sub.map _) (((sub.map _).sum_le_sum fun _ _ => Nat.zero_le _).trans h.total)

/-! ### Endings -/

theorem endTalks_counter (ids : List Nat) (s : State) : (endTalks ids s).tc.counter = s.tc.counter := by
  unfold endTalks
  split
  · simp only [announceInterrupters_tc, handling_tc]; rfl
  · rfl

theorem talkSetBounded_endTalks {s : State} (ids : List Nat) (hs : TalkSetBounded s) : TalkSetBounded (endTalks ids s) := by
  rw [talkSetBounded_iff, endTalks_counter, sameTalks_numbers (endTalks_talks ids s)]
  exact ((talkSetBounded_iff s).1 hs).sublist (List.filter_sublist.map _)

/-! ### Creations -/

theorem talk?_isNone {s : State} {id : Nat} : (s.talk? id).isNone = true ↔ id ∉ s.tc.talks.map fun t => t.id := by
  unfold State.talk?
  rw [Option.isNone_iff_eq_none, List.find?_eq_none]
  simp

/-- R84: while a talk place is free, the lowest free id is one of 1..96 that no talk holds. -/
theorem freeTalkId_free {s : State} (room : s.tc.talks.length < Config.talkPlaces) :
    (1 ≤ s.freeTalkId ∧ s.freeTalkId ≤ Config.talkPlaces) ∧ s.freeTalkId ∉ s.tc.talks.map fun t => t.id := by
  unfold State.freeTalkId
  cases h : (numbers 1 Config.talkPlaces).find? fun id => (s.talk? id).isNone with
  | some id =>
    obtain ⟨range, free⟩ := And.intro (mem_numbers.1 (List.mem_of_find?_eq_some h)) (List.find?_some h)
    exact ⟨within_iff.1 range, talk?_isNone.1 free⟩
  | none =>
    have held : numbers 1 Config.talkPlaces ⊆ s.tc.talks.map fun t => t.id := fun id hid => by
      by_contra free
      exact List.find?_eq_none.1 h id hid (talk?_isNone.2 free)
    have all := (List.subperm_of_subset (numbers_nodup 1 Config.talkPlaces) held).length_le
    rw [List.length_map, numbers, List.length_range'] at all
    simp only [Config.talkPlaces] at all room
    omega

/-- R86: an offer that passes finds a talk place and its reservation free. -/
theorem offerRefusal_room {s : State} {o : TalkOffer} {q : Nat} (talker : o.talker = some q) (h : s.offerRefusal o = none) :
    s.tc.talks.length < Config.talkPlaces ∧
      totalReservations s.tc.talks + s.reservationOf o.target q o.domain ≤ Config.reservationTotal := by
  unfold State.offerRefusal at h
  rw [talker] at h
  dsimp only at h
  split at h
  · cases h
  · split at h
    · cases h
    · split at h
      · cases h
      · next places =>
        split at h
        · cases h
        · next total => exact ⟨Nat.not_le.1 places, Nat.not_lt.1 total⟩

theorem renumberTalks_numbers (n : Nat) (ts : List Talk) :
    (renumberTalks n ts).map Talk.numbers = ((ts.map Talk.numbers).zipIdx n).map fun e => (e.1.1, e.2, e.1.2.2) := by
  induction ts generalizing n with
  | nil => rfl
  | cons t ts ih => rw [renumberTalks, List.map_cons, ih]; rfl

/-- R84: talks numbered anew from 1 keep the bounds. -/
theorem NumbersFit.renumbered {ns : List (Nat × Nat × Nat)} (h : NumbersFit ns) :
    NumbersBounded ((ns.zipIdx 1).map fun e => (e.1.1, e.2, e.1.2.2)) (ns.length + 1) := by
  have firsts : ∀ f : Nat × Nat × Nat → Nat, ((ns.zipIdx 1).map fun e => f e.1) = ns.map f := fun f => by
    rw [← List.zipIdx_map_fst 1 ns, List.map_map, List.zipIdx_map_fst]; rfl
  refine ⟨⟨?_, fun n hn => ?_, ?_, ?_⟩, ?_, fun n hn => ?_, ⟨by omega, ?_⟩⟩
  · rw [List.map_map]; exact (firsts fun n => n.1) ▸ h.ids
  · obtain ⟨e, he, rfl⟩ := List.mem_map.1 hn
    exact h.range e.1 (List.fst_mem_of_mem_zipIdx he)
  · rw [List.length_map, List.length_zipIdx]; exact h.places
  · rw [List.map_map]; exact (firsts fun n => n.2.2) ▸ h.total
  · rw [List.pairwise_map, List.pairwise_iff_getElem]
    intro i j hi hj lt
    simp only [List.getElem_zipIdx]
    omega
  · obtain ⟨e, he, rfl⟩ := List.mem_map.1 hn
    have := List.snd_lt_add_of_mem_zipIdx he
    have := List.le_snd_of_mem_zipIdx he
    exact ⟨‹1 ≤ e.2›, by dsimp only; omega⟩
  · have := h.places; simp only [Config.talkPlaces, Config.lastNumber] at *; omega

/-- A talk set with one more talk, for which there is room. -/
theorem NumbersFit.append {ns : List (Nat × Nat × Nat)} (h : NumbersFit ns) {id creation res : Nat}
    (range : 1 ≤ id ∧ id ≤ Config.talkPlaces) (fresh : id ∉ ns.map fun n => n.1) (places : ns.length < Config.talkPlaces)
    (total : (ns.map fun n => n.2.2).sum + res ≤ Config.reservationTotal) : NumbersFit (ns ++ [(id, creation, res)]) := by
  refine ⟨?_, ?_, ?_, ?_⟩
  · rw [List.map_append, List.nodup_append]
    exact ⟨h.ids, List.nodup_singleton _, fun a ha b hb e => fresh (by simp at hb; rw [← hb, ← e]; exact ha)⟩
  · intro n hn
    rcases List.mem_append.1 hn with hn | hn
    · exact h.range n hn
    · rw [List.mem_singleton.1 hn]; exact range
  · rw [List.length_append]; exact places
  · rw [List.map_append, List.sum_append]; simpa using total

/-- A talk set with one more talk, which takes the next creation number. -/
theorem NumbersBounded.append {ns : List (Nat × Nat × Nat)} {counter : Nat} (h : NumbersBounded ns counter) {id res : Nat}
    (fits : NumbersFit (ns ++ [(id, counter, res)])) (last : counter + 1 ≤ Config.lastNumber) :
    NumbersBounded (ns ++ [(id, counter, res)]) (counter + 1) := by
  refine ⟨fits, ?_, ?_, ⟨by omega, last⟩⟩
  · exact List.pairwise_append.2 ⟨h.order, List.pairwise_singleton _ _, fun a ha b hb => by
      rw [List.mem_singleton.1 hb]; exact (h.created a ha).2⟩
  · intro n hn
    rcases List.mem_append.1 hn with hn | hn
    · obtain ⟨low, high⟩ := h.created n hn; exact ⟨low, by omega⟩
    · rw [List.mem_singleton.1 hn]; exact ⟨h.counter.1, by dsimp only; omega⟩

theorem createTalk_records (x : Talk) (s : State) :
    SameTalks (createTalk x s).tc.talks (joinTalk x s).tc.talks ∧ (createTalk x s).tc.counter = (joinTalk x s).tc.counter := by
  have tc : (createTalk x s).tc = (resolveAgain (fun y => y.toIfb || y.id == x.id) (enterArbitration x (joinTalk x s))).tc := by
    simp only [createTalk, announceInterrupters_tc, handling_tc]
  have entered := enterArbitration_talks x (joinTalk x s)
  have talks : (enterArbitration x (joinTalk x s)).tc.talks = (joinTalk x s).tc.talks := by rw [entered]
  rw [tc]
  refine ⟨talks ▸ resolveAgain_same _ _, ?_⟩
  show (enterArbitration x (joinTalk x s)).tc.counter = _
  rw [entered]

theorem talkSetBounded_createTalk {s : State} {o : TalkOffer} {q : Nat} (hs : TalkSetBounded s) (talker : o.talker = some q)
    (passes : s.offerRefusal o = none) : TalkSetBounded (createTalk (s.newTalk o q) s) := by
  obtain ⟨room, reserved⟩ := offerRefusal_room talker passes
  obtain ⟨range, fresh⟩ := freeTalkId_free room
  obtain ⟨talks, counter⟩ := createTalk_records (s.newTalk o q) s
  have bounds := (talkSetBounded_iff s).1 hs
  have joined : (s.tc.talks ++ [s.newTalk o q]).map Talk.numbers = s.tc.talks.map Talk.numbers ++
      [(s.freeTalkId, s.tc.counter, s.reservationOf o.target q o.domain)] := by rw [List.map_append]; rfl
  have fits : NumbersFit (s.tc.talks.map Talk.numbers ++
      [(s.freeTalkId, s.tc.counter, s.reservationOf o.target q o.domain)]) :=
    bounds.toNumbersFit.append range (by rw [List.map_map]; exact fresh) (by rw [List.length_map]; exact room)
      (by rw [List.map_map]; exact reserved)
  rw [talkSetBounded_iff, counter, sameTalks_numbers talks]
  unfold joinTalk
  split
  · next more =>
    show NumbersBounded ((s.tc.talks ++ [_]).map _) _
    rw [joined]
    exact bounds.append fits more
  · show NumbersBounded ((renumberTalks 1 (s.tc.talks ++ [_])).map _) (s.tc.talks.length + 2)
    rw [renumberTalks_numbers, joined]
    simpa using fits.renumbered

/-! ### A camera change (R99) -/

/-- R99: the talks that end are the newest of those asked about, as many as bring the total to 512. -/
theorem overflowing_spec : ∀ (ts : List Talk) (total : Nat), overflowing ts total <+: ts ∧
    (∀ us, us <+: overflowing ts total → us ≠ overflowing ts total → 512 < total - totalReservations us) ∧
    (total - totalReservations (overflowing ts total) ≤ 512 ∨ overflowing ts total = ts)
  | [], total => ⟨List.prefix_rfl, fun us hus ne => absurd (List.prefix_nil.1 hus) ne, .inr rfl⟩
  | t :: ts, total => by
    obtain ⟨newest, needed, enough⟩ := overflowing_spec ts (total - t.reservation)
    unfold overflowing
    split
    · next fits => exact ⟨List.nil_prefix, fun us hus ne => absurd (List.prefix_nil.1 hus) ne, .inl fits⟩
    · next more_than =>
      have more : ∀ us, total - totalReservations (t :: us) = total - t.reservation - totalReservations us := fun us => by
        simp [totalReservations, Nat.sub_sub]
      refine ⟨List.cons_prefix_cons.2 ⟨rfl, newest⟩, fun us hus ne => ?_, ?_⟩
      · cases us with
        | nil => exact Nat.not_le.1 more_than
        | cons u us =>
          obtain ⟨rfl, hus⟩ := List.cons_prefix_cons.1 hus
          rw [more]
          exact needed us hus fun h => ne (congrArg _ h)
      · rw [more]
        exact enough.imp id (congrArg _)

/-- R99: the talks that a camera change gives up. -/
def State.givenUp (s : State) (doms : List Domain) : List Talk :=
  overflowing ((recount doms s).tc.talks.reverse.filter (Talk.onairOf doms)) (totalReservations (recount doms s).tc.talks)

theorem onairOf_eq (doms : List Domain) :
    Talk.onairOf doms = fun t => t.target == .onair && t.domain.any doms.contains := by
  funext t; unfold Talk.onairOf; cases t.domain <;> rfl

theorem givenUp_spec (s : State) (doms : List Domain) : GivenUp doms (recount doms s).tc.talks (s.givenUp doms) := by
  obtain ⟨newest, needed, enough⟩ := overflowing_spec ((recount doms s).tc.talks.reverse.filter (Talk.onairOf doms))
    (totalReservations (recount doms s).tc.talks)
  rw [onairOf_eq] at newest needed enough
  unfold State.givenUp
  rw [onairOf_eq]
  exact ⟨newest, needed, enough⟩

/-- R99: the talk set without the talks given up. -/
def State.relieved (s : State) (doms : List Domain) : State :=
  if (s.givenUp doms).isEmpty then recount doms s else removeTalks ((s.givenUp doms).map (·.id)) (recount doms s)

/-- R85: a recount counts each talk again by itself. -/
theorem recount_talks (doms : List Domain) (s : State) : (recount doms s).tc.talks = s.tc.talks.map (s.recounted doms) := by
  refine List.map_congr_left fun t _ => ?_
  have counts : ∀ d : Domain, s.onairReservation d =
      count (fun c => some c.domain == some d && c.port.isSome) s.tou.cameras.values := fun _ => rfl
  unfold State.recounted
  split
  · next d target hd =>
    rw [target, hd]
    simp [counts]
  · next other =>
    rw [if_neg]
    rintro ⟨target, d, -, hd⟩
    exact other _ target hd

theorem recounted_same (s : State) (doms : List Domain) (t : Talk) :
    s.recounted doms t = { t with reservation := (s.recounted doms t).reservation } := by
  unfold State.recounted; split <;> rfl

/-- R99: beside the talks given up, a camera change resolves talks again and moves keys. -/
theorem cameraChange_tc (c : Nat) (doms : List Domain) (s : State) : (cameraChange c doms s).tc =
    { (resolveAgain (fun t => t.target == .camera c || t.onairOf doms) (s.relieved doms)).tc with
      keys := (cameraChange c doms s).tc.keys } := by
  have keys : ∀ (ts : List Talk) (x : State), (ts.foldl (fun x t => forcedEnding t x) x).tc =
      { x.tc with keys := (ts.foldl (fun x t => forcedEnding t x) x).tc.keys } := by
    intro ts
    induction ts with
    | nil => exact fun _ => rfl
    | cons t ts ih =>
      intro x
      rw [List.foldl_cons, ih (forcedEnding t x)]
      have : (forcedEnding t x).tc = { x.tc with keys := (forcedEnding t x).tc.keys } := by
        unfold forcedEnding
        split
        · rw [keyRefusal_tc]
          rcases loseTalk_writes _ _ x with h | ⟨v, h⟩ <;> rw [h]
          rfl
        · rfl
      rw [this]
  unfold cameraChange
  dsimp only
  rw [keys, announceInterrupters_tc]
  have handed : ∀ (b : Prop) [Decidable b] (x : State), (if b then x else handling s x).tc = x.tc := fun b _ x => by
    split
    · rfl
    · exact handling_tc ..
  rw [handed]; rfl

theorem relieved_talks (s : State) (doms : List Domain) : SameTalks (s.relieved doms).tc.talks
    ((recount doms s).tc.talks.filter fun x => !((s.givenUp doms).map (·.id)).contains x.id) := by
  unfold State.relieved
  split
  · next none_ended =>
    rw [List.isEmpty_iff.1 none_ended]
    simp [SameTalks]
  · exact resolveAgain_same _ _

theorem relieved_counter (s : State) (doms : List Domain) : (s.relieved doms).tc.counter = s.tc.counter := by
  unfold State.relieved; split <;> rfl

/-- The reservations of the talks of some ids and of the others add up to those of all. -/
theorem totalReservations_without {ts os : List Talk} (ids : (ts.map fun t => t.id).Nodup) (nodup : os.Nodup) (sub : os ⊆ ts) :
    totalReservations (ts.filter fun t => !(os.map (·.id)).contains t.id) + totalReservations os = totalReservations ts := by
  have held : ∀ t ∈ ts, t.id ∈ os.map (·.id) → t ∈ os := fun t ht h => by
    obtain ⟨u, hu, e⟩ := List.mem_map.1 h
    rwa [← List.inj_on_of_nodup_map ids (sub hu) ht e]
  have ended : (ts.filter fun t => (os.map (·.id)).contains t.id).Perm os := by
    refine (List.perm_ext_iff_of_nodup ((List.Nodup.of_map _ ids).filter _) nodup).2 fun t => ?_
    rw [List.mem_filter, List.contains_iff_mem]
    exact ⟨fun h => held t h.1 h.2, fun h => ⟨sub h, List.mem_map_of_mem h⟩⟩
  have parts := List.filter_append_perm (fun t => (os.map (·.id)).contains t.id) ts
  unfold totalReservations
  rw [← (parts.map _).sum_eq, List.map_append, List.sum_append, (ended.map _).sum_eq, Nat.add_comm]

/-- R99: after the talks given up, the reservations are within 512. -/
theorem givenUp_total {s : State} (hs : TalkSetBounded s) (doms : List Domain) :
    totalReservations ((recount doms s).tc.talks.filter fun x => !((s.givenUp doms).map (·.id)).contains x.id) ≤ 512 := by
  obtain ⟨newest, -, enough⟩ := givenUp_spec s doms
  have ids : ((recount doms s).tc.talks.map fun t => t.id).Nodup := by
    rw [recount_talks, List.map_map]
    have : (fun t : Talk => t.id) ∘ s.recounted doms = fun t => t.id := funext fun t => by
      simp only [Function.comp]; rw [recounted_same]
    rw [this]; exact hs.ids
  have sub : s.givenUp doms ⊆ (recount doms s).tc.talks := fun t ht =>
    List.mem_reverse.1 (List.mem_filter.1 (newest.subset ht)).1
  have nodup : (s.givenUp doms).Nodup :=
    ((List.nodup_reverse.2 (List.Nodup.of_map _ ids)).filter _).sublist newest.sublist
  have parts := totalReservations_without ids nodup sub
  rcases enough with fits | all
  · omega
  · have others : ∀ t ∈ s.tc.talks, s.recounted doms t ≠ t → s.recounted doms t ∈ s.givenUp doms := fun t ht ne => by
      rw [all, List.mem_filter, List.mem_reverse, recount_talks]
      refine ⟨List.mem_map_of_mem ht, ?_⟩
      unfold State.recounted at ne ⊢
      split at ne
      · next h =>
        obtain ⟨target, d, hd, dom⟩ := h
        rw [if_pos ⟨target, d, hd, dom⟩]
        simp [target, dom, hd]
      · exact absurd rfl ne
    have left : ((recount doms s).tc.talks.filter fun x => !((s.givenUp doms).map (·.id)).contains x.id) =
        s.tc.talks.filter fun x => !((s.givenUp doms).map (·.id)).contains (s.recounted doms x).id := by
      rw [recount_talks, List.filter_map]
      refine (List.map_congr_left fun t ht => ?_).trans (List.map_id _)
      obtain ⟨ht, kept⟩ := List.mem_filter.1 ht
      by_contra ne
      have := others t ht ne
      simp only [Function.comp, Bool.not_eq_true', ← Bool.not_eq_true, List.contains_iff_mem] at kept
      exact kept (List.mem_map_of_mem this)
    rw [left]
    exact ((List.filter_sublist.map _).sum_le_sum fun _ _ => Nat.zero_le _).trans hs.total

theorem talkSetBounded_cameraChange {s : State} (c : Nat) (doms : List Domain) (hs : TalkSetBounded s) :
    TalkSetBounded (cameraChange c doms s) := by
  have total := givenUp_total hs doms
  have bounds := (talkSetBounded_iff s).1 hs
  have talks : SameTalks (cameraChange c doms s).tc.talks
      ((recount doms s).tc.talks.filter fun x => !((s.givenUp doms).map (·.id)).contains x.id) := by
    rw [cameraChange_tc]
    exact (resolveAgain_same _ _).trans (relieved_talks s doms)
  have counter : (cameraChange c doms s).tc.counter = s.tc.counter := by
    rw [cameraChange_tc]; exact relieved_counter s doms
  have same : ∀ t, (s.recounted doms t).id = t.id ∧ (s.recounted doms t).creation = t.creation := fun t => by
    rw [recounted_same]; exact ⟨rfl, rfl⟩
  rw [talkSetBounded_iff, counter, sameTalks_numbers talks]
  refine bounds.fewer ?_ (by rw [List.map_map]; exact total)
  rw [recount_talks, List.filter_map, List.map_map, List.map_map, List.map_map]
  have numbers : (fun n : Nat × Nat × Nat => (n.1, n.2.1)) ∘ Talk.numbers ∘ s.recounted doms =
      (fun n : Nat × Nat × Nat => (n.1, n.2.1)) ∘ Talk.numbers :=
    funext fun t => Prod.ext (same t).1 (same t).2
  rw [Function.comp_assoc] at *
  rw [numbers]
  exact List.filter_sublist.map _

/-! ### Every talk event -/

theorem resolveOnair_records (s : State) :
    SameTalks (resolveOnair s).tc.talks s.tc.talks ∧ (resolveOnair s).tc.counter = s.tc.counter := by
  rcases resolveOnair_eq s with h | h <;> rw [h]
  · exact ⟨rfl, rfl⟩
  · rw [handling_tc]; exact ⟨resolveAgain_same _ _, rfl⟩

theorem writeIfb_records (n : Nat) (v : Option Ifb) (s : State) :
    SameTalks (writeIfb n v s).tc.talks s.tc.talks ∧ (writeIfb n v s).tc.counter = s.tc.counter := by
  unfold writeIfb
  dsimp only
  rw [announceInterrupters_tc, handling_tc]
  exact ⟨resolveAgain_same _ _, rfl⟩

theorem talkSetBounded_reset : TalkSetBounded State.reset := by
  refine ⟨List.nodup_nil, ?_, ?_, List.Pairwise.nil, ?_, ?_, ?_⟩ <;>
    simp [State.reset, totalReservations, TalkController.start, Config.lastNumber]

theorem talkSetBounded_event (served : Nat → Prop) (s t : State) (event : TalkEvent served s t) (hs : TalkSetBounded s) : TalkSetBounded t := by
  have reads : ∀ {x y : State}, x.conference = y.conference → TalkSetBounded y → TalkSetBounded x := fun h hy =>
    hy.congr (congrArg (·.talks.map Talk.numbers) h) (congrArg Conference.counter h)
  have records : ∀ {x y : State}, SameTalks x.tc.talks y.tc.talks ∧ x.tc.counter = y.tc.counter →
      TalkSetBounded y → TalkSetBounded x := fun h hy => hy.congr (sameTalks_numbers h.1) h.2
  cases event with
  | same h => exact reads h hs
  | ended ids => exact talkSetBounded_endTalks ids hs
  | created o q talker passes => exact talkSetBounded_createTalk hs talker passes
  | recoloured h =>
    refine records (resolveOnair_records _) ?_
    exact hs.congr (congrArg (·.talks.map Talk.numbers) h) (congrArg Conference.counter h)
  | camera c v =>
    refine talkSetBounded_cameraChange c _ (hs.congr ?_ ?_) <;> simp
  | ifbConfigured | ifbCleared => exact records (writeIfb_records ..) hs
  | recounted none_left =>
    have counter : 1 ≤ 1 ∧ 1 ≤ Config.lastNumber := by decide
    rw [talkSetBounded_iff] at hs ⊢
    exact ⟨hs.toNumbersFit, hs.order, by simp [none_left], counter⟩
  | port | group | function | functionErased => exact hs.congr (by simp) (by simp)
  | started h => exact reads h talkSetBounded_reset

end Sys2Proof.Machine

/-! The arbitration of the IFBs (R113 to R116): each operation of it over a standing talk set, and what the talk events do to
the talks that it reads. -/

namespace Sys2Proof.Machine

/-! ### The order of a pending list -/

theorem mem_of_talk? {s : State} {id : Nat} {x : Talk} (h : s.talk? id = some x) : x ∈ s.tc.talks ∧ x.id = id :=
  ⟨List.mem_of_find?_eq_some h, by simpa using List.find?_some h⟩

/-- R84: with distinct ids, a talk of the talk set is found by its id. -/
theorem TalkSetBounded.talk? {s : State} (hs : TalkSetBounded s) {x : Talk} (hx : x ∈ s.tc.talks) : s.talk? x.id = some x := by
  cases h : s.talk? x.id with
  | none => simpa using List.find?_eq_none.1 h x hx
  | some y =>
    obtain ⟨hy, id⟩ := mem_of_talk? h
    rw [List.inj_on_of_nodup_map hs.ids hy hx id]

/-- R84: talks of one creation number are one talk. -/
theorem TalkSetBounded.creation_inj {s : State} (hs : TalkSetBounded s) {x y : Talk} (hx : x ∈ s.tc.talks)
    (hy : y ∈ s.tc.talks) (h : x.creation = y.creation) : x = y := by
  have nodup : (s.tc.talks.map fun t => t.creation).Nodup :=
    List.pairwise_map.2 (hs.order.imp fun lt => Nat.ne_of_lt lt)
  exact List.inj_on_of_nodup_map nodup hx hy h

theorem waitsBefore_trans {s : State} {a b c : Nat} (hab : s.waitsBefore a b) (hbc : s.waitsBefore b c) : s.waitsBefore a c := by
  obtain ⟨x, y, hx, hy, xy⟩ := hab
  obtain ⟨y', z, hy', hz, yz⟩ := hbc
  cases hy.symm.trans hy'
  exact ⟨x, z, hx, hz, by omega⟩

/-- R113: of two active talks one waits before the other. -/
theorem waitsBefore_total {s : State} (hs : TalkSetBounded s) {a b : Nat} {x y : Talk} (hx : s.talk? a = some x)
    (hy : s.talk? b = some y) (ne : a ≠ b) : s.waitsBefore a b ∨ s.waitsBefore b a := by
  obtain ⟨mx, ix⟩ := mem_of_talk? hx
  obtain ⟨my, iy⟩ := mem_of_talk? hy
  have created : x.creation ≠ y.creation := fun h => ne (by rw [← ix, ← iy, hs.creation_inj mx my h])
  have : (y.priority < x.priority ∨ (x.priority = y.priority ∧
      (x.talker < y.talker ∨ (x.talker = y.talker ∧ x.creation < y.creation)))) ∨
      (x.priority < y.priority ∨ (y.priority = x.priority ∧
      (y.talker < x.talker ∨ (y.talker = x.talker ∧ y.creation < x.creation)))) := by omega
  exact this.imp (fun h => ⟨x, y, hx, hy, h⟩) fun h => ⟨y, x, hy, hx, h⟩

/-- R113: a talk that takes its place keeps a pending list in order. -/
theorem enterPending_order {s : State} (hs : TalkSetBounded s) {a : Nat} {pending : List Nat} (active : (s.talk? a).isSome = true)
    (others : ∀ b ∈ pending, (s.talk? b).isSome = true) (fresh : a ∉ pending) (order : pending.Pairwise s.waitsBefore) :
    (s.enterPending a pending).Pairwise s.waitsBefore := by
  obtain ⟨x, hx⟩ := Option.isSome_iff_exists.1 active
  obtain ⟨before, after, split, entered, ahead, next⟩ := insertOrdered_split s.pendingBefore a pending
  unfold State.enterPending
  rw [entered]
  subst split
  obtain ⟨first, second, across⟩ := List.pairwise_append.1 order
  have behind : ∀ b ∈ after, s.waitsBefore a b := fun b hb => by
    cases after with
    | nil => cases hb
    | cons c cs =>
      have head := (pendingBefore_iff s a c).1 (next c rfl)
      rcases List.mem_cons.1 hb with rfl | hb
      · exact head
      · exact waitsBefore_trans head ((List.pairwise_cons.1 second).1 b hb)
  have front : ∀ b ∈ before, s.waitsBefore b a := fun b hb => by
    obtain ⟨y, hy⟩ := Option.isSome_iff_exists.1 (others b (List.mem_append_left _ hb))
    have ne : a ≠ b := fun e => fresh (e ▸ List.mem_append_left _ hb)
    refine (waitsBefore_total hs hx hy ne).resolve_left fun h => ?_
    rw [← pendingBefore_iff, ahead b hb] at h
    cases h
  refine List.pairwise_append.2 ⟨first, List.pairwise_cons.2 ⟨behind, second⟩, fun b hb c hc => ?_⟩
  rcases List.mem_cons.1 hc with rfl | hc
  · exact front b hb
  · exact across b hb c hc

theorem priorityOf_eq {s : State} {a : Nat} {x : Talk} (h : s.talk? a = some x) : s.priorityOf a = x.priority := by
  unfold State.priorityOf; rw [h]; rfl

theorem waitsBefore_priority {s : State} {a b : Nat} (h : s.waitsBefore a b) : s.priorityOf b ≤ s.priorityOf a := by
  obtain ⟨x, y, hx, hy, xy⟩ := h
  rw [priorityOf_eq hx, priorityOf_eq hy]; omega

/-! ### The arbitration of one IFB -/

/-- R113: the talk of id c is active, addressed to IFB n and of priority 1..7. -/
def State.contends (s : State) (n c : Nat) : Prop := ∃ t, s.talk? c = some t ∧ t.target = .ifb n ∧ 1 ≤ t.priority

/-- R113: the arbitration of IFB n, whose record is i. -/
structure Arbitrated (s : State) (n : Nat) (i : Ifb) : Prop where
  idle : i.current = none → i.level = 0 ∧ i.pending = []
  current : ∀ c, i.current = some c → s.contends n c ∧ i.level = s.priorityOf c
  pending : ∀ c ∈ i.pending, i.current ≠ some c ∧ s.contends n c
  once : i.pending.Nodup
  room : i.pending.length ≤ Config.ifbPending
  order : i.pending.Pairwise s.waitsBefore
  preempted : i.noPreempt = false → ∀ c ∈ i.pending, s.priorityOf c ≤ i.level

/-- R113: whether talk c is the current interrupter of an IFB or pending at it. -/
def Ifb.holds (i : Ifb) (c : Nat) : Prop := i.current = some c ∨ c ∈ i.pending

theorem ifbArbitrated_iff (s : State) : IfbArbitrated s ↔ (∀ n i, s.ifb? n = some i → Arbitrated s n i) ∧
    ∀ t ∈ s.tc.talks, ∀ n, t.target = .ifb n → 1 ≤ t.priority → ∃ i, s.ifb? n = some i ∧ i.holds t.id := by
  constructor
  · rintro ⟨idle, current, pending, room, order, complete, preempted⟩
    refine ⟨fun n i h => ⟨idle n i h, fun c hc => ?_, fun c => pending n i c h, (room n i h).1, (room n i h).2, order n i h,
      fun np c => preempted n i c h np⟩, complete⟩
    obtain ⟨t, ht, target, level, priority⟩ := current n i c h hc
    exact ⟨⟨t, ht, target, priority⟩, level.trans (priorityOf_eq ht).symm⟩
  · rintro ⟨each, complete⟩
    refine ⟨fun n i h => (each n i h).idle, fun n i c h hc => ?_, fun n i c h => (each n i h).pending c,
      fun n i h => ⟨(each n i h).once, (each n i h).room⟩, fun n i h => (each n i h).order, complete,
      fun n i c h np => (each n i h).preempted np c⟩
    obtain ⟨⟨t, ht, target, priority⟩, level⟩ := (each n i h).current c hc
    exact ⟨t, ht, target, level.trans (priorityOf_eq ht), priority⟩

theorem State.contends.active {s : State} {n c : Nat} (h : s.contends n c) : (s.talk? c).isSome = true := by
  obtain ⟨t, ht, -⟩ := h; rw [ht]; rfl

theorem State.contends.priority {s : State} {n c : Nat} (h : s.contends n c) : 1 ≤ s.priorityOf c := by
  obtain ⟨t, ht, -, p⟩ := h; rwa [priorityOf_eq ht]

theorem mem_enterPending {s : State} {a c : Nat} {pending : List Nat} : c ∈ s.enterPending a pending ↔ c = a ∨ c ∈ pending :=
  mem_insertOrdered _ _ _ _

theorem enterPending_length (s : State) (a : Nat) (pending : List Nat) :
    (s.enterPending a pending).length = pending.length + 1 := by
  obtain ⟨before, after, split, entered, -⟩ := insertOrdered_split s.pendingBefore a pending
  unfold State.enterPending
  rw [entered, split, List.length_append, List.length_append, List.length_cons]; omega

/-- R114: an arrival that an IFB accepts keeps its arbitration. -/
theorem Arbitrated.arrives {s : State} {n c : Nat} {i : Ifb} (hs : TalkSetBounded s) (h : Arbitrated s n i)
    (contends : s.contends n c) (fresh : ¬i.holds c) (accepts : i.accepts (s.priorityOf c) = true) :
    Arbitrated s n (s.arbitrate i c (s.priorityOf c)) := by
  have positive := contends.priority
  have active : ∀ b ∈ i.pending, (s.talk? b).isSome = true := fun b hb => (h.pending b hb).2.active
  unfold State.arbitrate
  rw [if_neg (by omega)]
  cases current : i.current with
  | none =>
    obtain ⟨-, empty⟩ := h.idle current
    refine ⟨nofun, fun d hd => ?_, ?_, h.once, h.room, h.order, ?_⟩
    · cases hd; exact ⟨contends, rfl⟩
    · intro d hd; rw [empty] at hd; cases hd
    · intro _ d hd; rw [empty] at hd; cases hd
  | some cur =>
    obtain ⟨held, level⟩ := h.current cur current
    have room : i.pending.length < Config.ifbPending := by
      have : i.accepts (s.priorityOf c) = decide (i.pending.length < Config.ifbPending) := by
        unfold Ifb.accepts; rw [current]; simp; omega
      rw [this] at accepts; exact of_decide_eq_true accepts
    have apart : cur ∉ i.pending := fun hb => (h.pending cur hb).1 current
    dsimp only
    split
    · next preempts =>
      simp only [Bool.and_eq_true, Bool.not_eq_true', decide_eq_true_eq] at preempts
      obtain ⟨np, lower⟩ := preempts
      refine ⟨nofun, fun d hd => ?_, fun d hd => ?_, nodup_insertOrdered _ h.once apart, ?_,
        enterPending_order hs held.active active apart h.order, fun _ d hd => ?_⟩
      · cases hd; exact ⟨contends, rfl⟩
      · rcases mem_enterPending.1 hd with rfl | hd
        · exact ⟨fun e => fresh (.inl (by rw [current, Option.some.inj e])), held⟩
        · exact ⟨fun e => fresh (.inr (Option.some.inj e ▸ hd)), (h.pending d hd).2⟩
      · rw [enterPending_length]; exact room
      · rcases mem_enterPending.1 hd with rfl | hd
        · exact level ▸ lower.le
        · exact (h.preempted np d hd).trans lower.le
    · next waits =>
      have fresh' : c ∉ i.pending := fun hc => fresh (.inr hc)
      refine ⟨fun e => ?_, fun d hd => ?_, fun d hd => ?_, nodup_insertOrdered _ h.once fresh', ?_,
        enterPending_order hs contends.active active fresh' h.order, fun np d hd => ?_⟩
      · cases e
      · exact h.current d (current.trans hd)
      · rcases mem_enterPending.1 hd with rfl | hd
        · exact ⟨fun e => fresh (.inl (current.trans e)), contends⟩
        · exact ⟨fun e => (h.pending d hd).1 (current.trans e), (h.pending d hd).2⟩
      · rw [enterPending_length]; exact room
      · rcases mem_enterPending.1 hd with rfl | hd
        · rw [np] at waits; simpa using waits
        · exact h.preempted np d hd

theorem arbitrate_zero (s : State) (i : Ifb) (c : Nat) : s.arbitrate i c 0 = i := by unfold State.arbitrate; rw [if_pos rfl]

/-- R114: an arrival of priority 1..7 is held, and so is what was. -/
theorem arbitrate_holds (s : State) (i : Ifb) {c priority : Nat} (positive : 1 ≤ priority) (d : Nat) (h : d = c ∨ i.holds d) :
    (s.arbitrate i c priority).holds d := by
  unfold State.arbitrate
  rw [if_neg (by omega)]
  unfold Ifb.holds at *
  cases current : i.current with
  | none => rw [current] at h; dsimp only; rcases h with rfl | h | h <;> simp_all
  | some cur =>
    rw [current] at h
    dsimp only
    split
    · simp only [mem_enterPending, Option.some.injEq] at h ⊢
      rcases h with h | h | h <;> simp_all
    · simp only [mem_enterPending, Option.some.injEq] at h ⊢
      rcases h with h | h | h <;> simp_all

/-- R115: the arbitration after NO_PREEMPT goes. -/
theorem Arbitrated.rearbitrated {s : State} {n : Nat} {i : Ifb} (hs : TalkSetBounded s) (h : Arbitrated s n { i with noPreempt := true }) :
    Arbitrated s n (s.rearbitrate i) ∧ ∀ d, i.holds d → (s.rearbitrate i).holds d := by
  obtain ⟨idle, current, pending, once, room, order, -⟩ := h
  dsimp only at *
  unfold State.rearbitrate
  have highest : ∀ head rest, i.pending = head :: rest → ∀ d ∈ i.pending, s.priorityOf d ≤ s.priorityOf head := by
    intro head rest e d hd
    rw [e] at hd order
    rcases List.mem_cons.1 hd with rfl | hd
    · exact le_rfl
    · exact waitsBefore_priority ((List.pairwise_cons.1 order).1 d hd)
  split
  · next head rest cur hp hc =>
    obtain ⟨held, level⟩ := current cur hc
    have waiting := pending head (hp ▸ List.mem_cons_self)
    obtain ⟨away, once'⟩ := List.nodup_cons.1 (hp ▸ once)
    obtain ⟨-, order'⟩ := List.pairwise_cons.1 (hp ▸ order)
    have others : ∀ d ∈ rest, i.current ≠ some d ∧ s.contends n d := fun d hd => pending d (hp ▸ List.mem_cons_of_mem _ hd)
    have apart : cur ∉ rest := fun hb => (others cur hb).1 hc
    split
    · next lower =>
      refine ⟨⟨nofun, fun d hd => ?_, fun d hd => ?_, nodup_insertOrdered _ once' apart, ?_,
        enterPending_order hs held.active (fun b hb => (others b hb).2.active) apart order', fun _ d hd => ?_⟩, fun d hd => ?_⟩
      · cases hd; exact ⟨waiting.2, rfl⟩
      · rcases mem_enterPending.1 hd with rfl | hd
        · exact ⟨fun e => waiting.1 (by rw [hc, Option.some.inj e]), held⟩
        · exact ⟨fun e => away (Option.some.inj e ▸ hd), (others d hd).2⟩
      · rw [enterPending_length]; rw [hp] at room; exact room
      · rcases mem_enterPending.1 hd with rfl | hd
        · exact level ▸ lower.le
        · exact highest head rest hp d (hp ▸ List.mem_cons_of_mem _ hd)
      · unfold Ifb.holds at hd ⊢
        rw [hc, hp] at hd
        simp only [mem_enterPending, Option.some.injEq, List.mem_cons] at hd ⊢
        rcases hd with h | h | h <;> simp_all
    · next higher =>
      exact ⟨⟨idle, current, pending, once, room, order, fun _ d hd => (highest head rest hp d hd).trans (Nat.le_of_not_lt higher)⟩,
        fun d hd => hd⟩
  · next still =>
    refine ⟨⟨idle, current, pending, once, room, order, fun _ d hd => ?_⟩, fun d hd => hd⟩
    cases hc : i.current with
    | none => rw [(idle hc).2] at hd; cases hd
    | some cur =>
      cases hp : i.pending with
      | nil => rw [hp] at hd; cases hd
      | cons head rest => exact absurd hc (still head rest cur hp)

/-- R116: the arbitration after talks end, over the talk set before they leave it. -/
theorem Arbitrated.without {s : State} {n : Nat} {i : Ifb} (h : Arbitrated s n i) (ended : List Nat) :
    Arbitrated s n (s.withoutTalks ended i) ∧ ∀ d, (s.withoutTalks ended i).holds d ↔ i.holds d ∧ d ∉ ended := by
  obtain ⟨idle, current, pending, once, room, order, preempted⟩ := h
  have kept : ∀ {d}, d ∈ i.pending.filter (fun id => !ended.contains id) ↔ d ∈ i.pending ∧ d ∉ ended := by simp
  have room' : (i.pending.filter fun id => !ended.contains id).length ≤ Config.ifbPending :=
    (List.length_filter_le _ _).trans room
  unfold State.withoutTalks
  dsimp only
  split
  · next hc =>
    obtain ⟨-, empty⟩ := idle hc
    rw [empty]
    refine ⟨⟨fun _ => ⟨(idle hc).1, rfl⟩, current, nofun, List.nodup_nil, Nat.zero_le _, .nil, nofun⟩, fun d => ?_⟩
    unfold Ifb.holds
    simp [hc, empty]
  · next cur hc =>
    split
    · next gone =>
      rw [List.contains_iff_mem] at gone
      split
      · next none_left =>
        refine ⟨⟨fun _ => ⟨rfl, rfl⟩, nofun, nofun, List.nodup_nil, Nat.zero_le _, .nil, nofun⟩, fun d => ?_⟩
        unfold Ifb.holds
        have out : d ∈ i.pending → d ∈ ended := fun hd => by
          by_contra stays
          have := kept.2 ⟨hd, stays⟩
          rw [none_left] at this; cases this
        simp only [reduceCtorEq, List.not_mem_nil, or_self, false_iff, hc, Option.some.injEq]
        rintro ⟨rfl | hd, stays⟩
        · exact stays gone
        · exact stays (out hd)
      · next head rest left =>
        have rest_order := order.filter (fun id => !ended.contains id)
        have rest_once := once.filter (fun id => !ended.contains id)
        rw [left] at rest_order rest_once room'
        obtain ⟨heads, order'⟩ := List.pairwise_cons.1 rest_order
        obtain ⟨away, once'⟩ := List.nodup_cons.1 rest_once
        have among : ∀ {d}, d ∈ head :: rest → d ∈ i.pending ∧ d ∉ ended := fun hd => kept.1 (left ▸ hd)
        refine ⟨⟨nofun, fun d hd => ?_, fun d hd => ⟨fun e => away (Option.some.inj e ▸ hd),
          (pending d (among (List.mem_cons_of_mem _ hd)).1).2⟩, once', Nat.le_of_succ_le room', order',
          fun _ d hd => waitsBefore_priority (heads d hd)⟩, fun d => ?_⟩
        · cases hd; exact ⟨(pending head (among List.mem_cons_self).1).2, rfl⟩
        · unfold Ifb.holds
          have this : d ∈ head :: rest ↔ d ∈ i.pending ∧ d ∉ ended := by rw [← left]; exact kept
          rw [List.mem_cons] at this
          simp only [hc, Option.some.injEq]
          constructor
          · rintro (rfl | hd)
            · exact ⟨.inr (this.1 (.inl rfl)).1, (this.1 (.inl rfl)).2⟩
            · exact ⟨.inr (this.1 (.inr hd)).1, (this.1 (.inr hd)).2⟩
          · rintro ⟨rfl | hd, stays⟩
            · exact absurd gone stays
            · exact (this.2 ⟨hd, stays⟩).imp Eq.symm id
    · next stays =>
      rw [List.contains_iff_mem] at stays
      refine ⟨⟨fun e => ?_, current, fun d hd => pending d (kept.1 hd).1, once.filter _, room', order.filter _,
        fun np d hd => preempted np d (kept.1 hd).1⟩, fun d => ?_⟩
      · rw [hc] at e; cases e
      · unfold Ifb.holds
        rw [hc]
        simp only [kept, Option.some.injEq]
        constructor
        · rintro (rfl | ⟨hd, out⟩)
          · exact ⟨.inl rfl, stays⟩
          · exact ⟨.inr hd, out⟩
        · rintro ⟨rfl | hd, out⟩
          · exact .inl rfl
          · exact .inr ⟨hd, out⟩

/-! ### The talks that an arbitration reads -/

/-- R113: the talks of the ids `cs` are in `t` what they are in `s`, in the same order, as far as an arbitration reads them. -/
structure SameContest (s t : State) (cs : Nat → Prop) : Prop where
  talks : ∀ c, cs c → ∀ x, s.talk? c = some x →
    ∃ y, t.talk? c = some y ∧ y.target = x.target ∧ y.priority = x.priority ∧ y.talker = x.talker
  order : ∀ a b, cs a → cs b → s.waitsBefore a b → t.waitsBefore a b

theorem SameContest.contends {s t : State} {cs : Nat → Prop} (h : SameContest s t cs) {n c : Nat} (hc : cs c)
    (contends : s.contends n c) : t.contends n c ∧ t.priorityOf c = s.priorityOf c := by
  obtain ⟨x, hx, target, priority⟩ := contends
  obtain ⟨y, hy, same_target, same_priority, -⟩ := h.talks c hc x hx
  exact ⟨⟨y, hy, same_target.trans target, same_priority ▸ priority⟩, by
    rw [priorityOf_eq hx, priorityOf_eq hy, same_priority]⟩

/-- R113: an arbitration is in order over other talks that agree where it reads them. -/
theorem Arbitrated.carried {s t : State} {n : Nat} {i : Ifb} {cs : Nat → Prop} (h : Arbitrated s n i) (same : SameContest s t cs)
    (read : ∀ c, i.holds c → cs c) : Arbitrated t n i := by
  have waiting : ∀ c ∈ i.pending, t.contends n c ∧ t.priorityOf c = s.priorityOf c :=
    fun c hc => same.contends (read c (.inr hc)) (h.pending c hc).2
  refine ⟨h.idle, fun c hc => ?_, fun c hc => ⟨(h.pending c hc).1, (waiting c hc).1⟩, h.once, h.room,
    h.order.imp_of_mem fun ha hb => same.order _ _ (read _ (.inr ha)) (read _ (.inr hb)),
    fun np c hc => (waiting c hc).2 ▸ h.preempted np c hc⟩
  obtain ⟨contends, level⟩ := h.current c hc
  obtain ⟨contends', priority⟩ := same.contends (read c (.inl hc)) contends
  exact ⟨contends', level.trans priority.symm⟩

theorem SameTalks.exists {ts us : List Talk} (h : SameTalks ts us) {u : Talk} (hu : u ∈ us) : ∃ t ∈ ts, t.bare = u.bare := by
  have : u.bare ∈ ts.map Talk.bare := by rw [show ts.map Talk.bare = us.map Talk.bare from h]; exact List.mem_map_of_mem hu
  exact List.mem_map.1 this

theorem SameTalks.symm {ts us : List Talk} (h : SameTalks ts us) : SameTalks us ts := Eq.symm h

/-- Talks that are the same, their listeners apart, agree in what an arbitration reads. -/
theorem bare_eq {x y : Talk} (h : x.bare = y.bare) : x.id = y.id ∧ x.target = y.target ∧ x.priority = y.priority ∧
    x.talker = y.talker ∧ x.creation = y.creation := by
  simp only [Talk.bare, Talk.mk.injEq] at h
  obtain ⟨id, talker, target, -, priority, -, -, creation, -, -⟩ := h
  exact ⟨id, target, priority, talker, creation⟩

/-- R113: talks that go on, each perhaps under another creation number of the same order, agree where an arbitration reads them. -/
theorem sameContest_of {s t : State} (ht : TalkSetBounded t) {us : List Talk} (talks : SameTalks t.tc.talks us)
    {cs : Nat → Prop} (on : Talk → Talk)
    (goes : ∀ x ∈ s.tc.talks, cs x.id → on x ∈ us ∧ (on x).id = x.id ∧ (on x).target = x.target ∧
      (on x).priority = x.priority ∧ (on x).talker = x.talker)
    (order : ∀ x ∈ s.tc.talks, ∀ y ∈ s.tc.talks, x.creation < y.creation → (on x).creation < (on y).creation) :
    SameContest s t cs := by
  have found : ∀ c x, cs c → s.talk? c = some x → ∃ y, t.talk? c = some y ∧ y.target = x.target ∧ y.priority = x.priority ∧
      y.talker = x.talker ∧ y.creation = (on x).creation := by
    intro c x hc hx
    obtain ⟨mx, rfl⟩ := mem_of_talk? hx
    obtain ⟨member, id, target, priority, talker⟩ := goes x mx hc
    obtain ⟨y, hy, bare⟩ := talks.exists member
    obtain ⟨id', target', priority', talker', creation⟩ := bare_eq bare
    exact ⟨y, by rw [← id, ← id']; exact ht.talk? hy, target'.trans target, priority'.trans priority, talker'.trans talker,
      creation⟩
  refine ⟨fun c hc x hx => ?_, fun a b ha hb h => ?_⟩
  · obtain ⟨y, hy, target, priority, talker, -⟩ := found c x hc hx
    exact ⟨y, hy, target, priority, talker⟩
  · obtain ⟨x, z, hx, hz, first⟩ := h
    obtain ⟨x', hx', -, px, tx, cx⟩ := found a x ha hx
    obtain ⟨z', hz', -, pz, tz, cz⟩ := found b z hb hz
    refine ⟨x', z', hx', hz', ?_⟩
    rw [px, pz, tx, tz, cx, cz]
    exact first.imp id fun ⟨p, q⟩ => ⟨p, q.imp id fun ⟨t, c⟩ => ⟨t, order x (mem_of_talk? hx).1 z (mem_of_talk? hz).1 c⟩⟩

/-- R116: the arbitration after endings reads the talks that go on. -/
theorem withoutTalks_carried {s t : State} {ended : List Nat} {i : Ifb}
    (same : ∀ c ∈ i.pending, c ∉ ended → t.priorityOf c = s.priorityOf c) : t.withoutTalks ended i = s.withoutTalks ended i := by
  unfold State.withoutTalks
  dsimp only
  split
  · rfl
  · split
    · split
      · rfl
      · next head rest left =>
        have : head ∈ i.pending.filter fun id => !ended.contains id := left ▸ List.mem_cons_self
        simp only [List.mem_filter, Bool.not_eq_true', ← Bool.not_eq_true, List.contains_iff_mem] at this
        rw [same head this.1 this.2]
    · rfl

theorem withoutTalks_nil (s : State) (i : Ifb) : s.withoutTalks [] i = i := by
  unfold State.withoutTalks
  cases hc : i.current with
  | none => simp [← hc]
  | some cur => simp [← hc]

/-- R116: talks end and the others go on: the arbitrations are in order. -/
theorem ifbArbitrated_without {s t : State} (h : IfbArbitrated s) (ended : List Nat)
    (same : SameContest s t fun c => c ∉ ended)
    (old : ∀ y ∈ t.tc.talks, y.id ∉ ended ∧ ∃ x ∈ s.tc.talks, x.id = y.id ∧ x.target = y.target ∧ x.priority = y.priority)
    (ifbs : ∀ n, t.ifb? n = (s.ifb? n).map (t.withoutTalks ended)) : IfbArbitrated t := by
  obtain ⟨each, complete⟩ := (ifbArbitrated_iff s).1 h
  have without : ∀ n i, s.ifb? n = some i → t.withoutTalks ended i = s.withoutTalks ended i := fun n i hi =>
    withoutTalks_carried fun c hc out => (same.contends out ((each n i hi).pending c hc).2).2
  refine (ifbArbitrated_iff t).2 ⟨fun n j hj => ?_, fun y hy n target priority => ?_⟩
  · rw [ifbs] at hj
    obtain ⟨i, hi, rfl⟩ := Option.map_eq_some_iff.1 hj
    rw [without n i hi]
    obtain ⟨left, holds⟩ := (each n i hi).without ended
    exact left.carried same fun c hc => ((holds c).1 hc).2
  · obtain ⟨stays, x, hx, id, target', priority'⟩ := old y hy
    obtain ⟨i, hi, held⟩ := complete x hx n (target'.trans target) (priority' ▸ priority)
    refine ⟨_, by rw [ifbs, hi]; rfl, ?_⟩
    rw [without n i hi]
    exact (((each n i hi).without ended).2 y.id).2 ⟨id ▸ held, stays⟩

/-- R113: where the talks and the IFBs stand, their listeners and reservations apart, the arbitrations do. -/
theorem IfbArbitrated.congr {s t : State} (ht : TalkSetBounded t) (h : IfbArbitrated s)
    (talks : SameTalks t.tc.talks s.tc.talks) (ifbs : t.tc.ifbs = s.tc.ifbs) : IfbArbitrated t := by
  have same : ∀ n, t.ifb? n = s.ifb? n := fun n => by unfold State.ifb?; rw [ifbs]
  have contest : SameContest s t fun _ => True :=
    sameContest_of ht talks id (fun x hx _ => ⟨hx, rfl, rfl, rfl, rfl⟩) fun _ _ _ _ lt => lt
  refine ifbArbitrated_without h [] ⟨fun c _ => contest.talks c trivial, fun a b _ _ => contest.order a b trivial trivial⟩
    (fun y hy => ⟨List.not_mem_nil, ?_⟩) fun n => ?_
  · obtain ⟨x, hx, bare⟩ := talks.symm.exists hy
    obtain ⟨id, target, priority, -⟩ := bare_eq bare
    exact ⟨x, hx, id, target, priority⟩
  · rw [same]
    cases hi : s.ifb? n with
    | none => rfl
    | some i =>
      rw [Option.map_some, withoutTalks_nil]

/-- R116: talks that end leave the arbitrations in order; the others may be counted again (R85). -/
theorem ifbArbitrated_filtered {s t : State} (ht : TalkSetBounded t) (h : IfbArbitrated s) (ended : List Nat) (on : Talk → Talk)
    (alike : ∀ x, (on x).id = x.id ∧ (on x).target = x.target ∧ (on x).priority = x.priority ∧ (on x).talker = x.talker ∧
      (on x).creation = x.creation)
    (talks : SameTalks t.tc.talks ((s.tc.talks.map on).filter fun x => !ended.contains x.id))
    (ifbs : ∀ n, t.ifb? n = (s.ifb? n).map (t.withoutTalks ended)) : IfbArbitrated t := by
  have kept : ∀ z, z ∈ (s.tc.talks.map on).filter (fun x => !ended.contains x.id) ↔ z ∈ s.tc.talks.map on ∧ z.id ∉ ended := by
    intro z; simp [List.mem_filter]
  refine ifbArbitrated_without h ended (sameContest_of ht talks on (fun x hx out => ?_) fun x _ y _ lt => ?_) (fun y hy => ?_) ifbs
  · obtain ⟨id, target, priority, talker, -⟩ := alike x
    exact ⟨(kept _).2 ⟨List.mem_map_of_mem hx, id ▸ out⟩, id, target, priority, talker⟩
  · rw [(alike x).2.2.2.2, (alike y).2.2.2.2]; exact lt
  · obtain ⟨z, hz, bare⟩ := talks.symm.exists hy
    obtain ⟨mz, out⟩ := (kept z).1 hz
    obtain ⟨x, hx, rfl⟩ := List.mem_map.1 mz
    obtain ⟨id, target, priority, -⟩ := bare_eq bare
    obtain ⟨id', target', priority', -⟩ := alike x
    exact ⟨id ▸ out, x, hx, id'.symm.trans id, target'.symm.trans target, priority'.symm.trans priority⟩

theorem ifbArbitrated_endTalks {s : State} (ids : List Nat) (hs : TalkSetBounded s) (h : IfbArbitrated s) :
    IfbArbitrated (endTalks ids s) := by
  have bounded := talkSetBounded_endTalks ids hs
  by_cases some_end : ∃ x ∈ s.tc.talks, x.id ∈ ids
  · refine ifbArbitrated_filtered bounded h ids id (fun x => ⟨rfl, rfl, rfl, rfl, rfl⟩)
      (by rw [List.map_id]; exact endTalks_talks ids s) fun n => ?_
    unfold State.ifb?
    rw [(ifbsLeft_endTalks ids s).1 some_end, Table.find?_mapValues]
  · have none_ends : ∀ x ∈ s.tc.talks, x.id ∉ ids := fun x hx hi => some_end ⟨x, hx, hi⟩
    refine h.congr bounded ?_ ((ifbsLeft_endTalks ids s).2 none_ends)
    have all : (s.tc.talks.filter fun t => !ids.contains t.id) = s.tc.talks :=
      List.filter_eq_self.2 fun x hx => by simpa using none_ends x hx
    rw [← all]; exact endTalks_talks ids s

theorem ifbArbitrated_cameraChange {s : State} (c : Nat) (doms : List Domain) (hs : TalkSetBounded s) (h : IfbArbitrated s) :
    IfbArbitrated (cameraChange c doms s) := by
  have bounded := talkSetBounded_cameraChange c doms hs
  have alike : ∀ x, (s.recounted doms x).id = x.id ∧ (s.recounted doms x).target = x.target ∧
      (s.recounted doms x).priority = x.priority ∧ (s.recounted doms x).talker = x.talker ∧
      (s.recounted doms x).creation = x.creation := fun x => by rw [recounted_same]; exact ⟨rfl, rfl, rfl, rfl, rfl⟩
  have talks : SameTalks (cameraChange c doms s).tc.talks
      ((s.tc.talks.map (s.recounted doms)).filter fun x => !((s.givenUp doms).map (·.id)).contains x.id) := by
    rw [← recount_talks, cameraChange_tc]
    exact (resolveAgain_same _ _).trans (relieved_talks s doms)
  refine ifbArbitrated_filtered bounded h ((s.givenUp doms).map (·.id)) (s.recounted doms) alike talks fun n => ?_
  have relieved : (cameraChange c doms s).ifb? n = (s.relieved doms).ifb? n := by
    unfold State.ifb?; rw [cameraChange_tc]; rfl
  rw [relieved]
  unfold State.relieved
  split
  · next none_ended =>
    have none_ended := List.isEmpty_iff.1 none_ended
    show s.ifb? n = _
    cases hi : s.ifb? n with
    | none => rfl
    | some i =>
      rw [none_ended]
      exact congrArg some (withoutTalks_nil _ i).symm
  · have same := fun i => withoutTalks_same (s := { recount doms s with tc := { (recount doms s).tc with
        talks := (recount doms s).tc.talks.filter fun t => !((s.givenUp doms).map (·.id)).contains t.id } })
      (t := cameraChange c doms s) (by rw [recount_talks]; exact talks) ((s.givenUp doms).map (·.id)) i
    show (Table.mapValues _ s.tc.ifbs).find? n = _
    rw [Table.find?_mapValues, funext same]
    rfl

/-- R114: the IFB that an offer addresses accepts it. -/
theorem offerRefusal_accepts {s : State} {o : TalkOffer} {q n : Nat} (talker : o.talker = some q) (h : s.offerRefusal o = none)
    (target : o.target = .ifb n) : ∃ i, s.ifb? n = some i ∧ i.accepts o.priority = true := by
  unfold State.offerRefusal at h
  rw [talker, target] at h
  dsimp only at h
  split at h; · cases h
  split at h; · cases h
  split at h; · cases h
  split at h; · cases h
  split at h
  · next i hi => exact ⟨i, hi, by by_contra refused; rw [if_neg refused] at h; cases h⟩
  · cases h

theorem idxOf_lt {ts : List Talk} (order : ts.Pairwise fun t u => t.creation < u.creation) {x y : Talk} (hx : x ∈ ts)
    (hy : y ∈ ts) (lt : x.creation < y.creation) : ts.idxOf x < ts.idxOf y := by
  have ix := List.idxOf_lt_length_of_mem hx
  have iy := List.idxOf_lt_length_of_mem hy
  by_contra ge
  rcases Nat.lt_or_eq_of_le (Nat.not_lt.1 ge) with after | same
  · have := List.pairwise_iff_getElem.1 order _ _ iy ix after
    rw [List.getElem_idxOf, List.getElem_idxOf] at this
    omega
  · have ex := List.getElem_idxOf ix
    have ey := List.getElem_idxOf iy
    rw [show x = y by rw [← ex, ← ey]; congr 1; exact same.symm] at lt
    exact lt.false

/-- R84: the talks go on when a talk joins them. -/
theorem createTalk_contest {s : State} {x : Talk} (hs : TalkSetBounded s) (ht : TalkSetBounded (createTalk x s)) :
    SameContest s (createTalk x s) (fun _ => True) ∧ ∀ y ∈ (createTalk x s).tc.talks,
      (y.id = x.id ∧ y.target = x.target ∧ y.priority = x.priority) ∨
        ∃ z ∈ s.tc.talks, z.id = y.id ∧ z.target = y.target ∧ z.priority = y.priority := by
  obtain ⟨⟨counts, renumbers⟩, -, -⟩ := createTalk_joined x s
  by_cases more : s.tc.counter < 4294967295
  · obtain ⟨talks, -⟩ := counts more
    refine ⟨sameContest_of ht talks id (fun z hz _ => ⟨List.mem_append_left _ hz, rfl, rfl, rfl, rfl⟩)
      fun _ _ _ _ lt => lt, fun y hy => ?_⟩
    obtain ⟨z, hz, bare⟩ := talks.symm.exists hy
    obtain ⟨id, target, priority, -⟩ := bare_eq bare
    rcases List.mem_append.1 hz with hz | hz
    · exact .inr ⟨z, hz, id, target, priority⟩
    · cases List.mem_singleton.1 hz
      exact .inl ⟨id.symm, target.symm, priority.symm⟩
  · obtain ⟨talks, -⟩ := renumbers (Nat.not_lt.1 more)
    refine ⟨sameContest_of ht talks (fun z => { z with creation := 1 + s.tc.talks.idxOf z })
      (fun z hz _ => ⟨?_, rfl, rfl, rfl, rfl⟩) (fun y hy z hz lt => Nat.add_lt_add_left (idxOf_lt hs.order hy hz lt) 1), fun y hy => ?_⟩
    · have iz := List.idxOf_lt_length_of_mem hz
      refine List.mem_map.2 ⟨(z, 1 + s.tc.talks.idxOf z), List.mk_mem_zipIdx_iff_le_and_getElem?_sub.2 ?_, rfl⟩
      simp only [Nat.add_sub_cancel_left, Nat.le_add_right, true_and]
      rw [List.getElem?_append_left iz, List.getElem?_eq_getElem iz, List.getElem_idxOf]
    · obtain ⟨z, hz, bare⟩ := talks.symm.exists hy
      obtain ⟨id, target, priority, -⟩ := bare_eq bare
      obtain ⟨e, he, rfl⟩ := List.mem_map.1 hz
      rcases List.mem_append.1 (List.fst_mem_of_mem_zipIdx he) with hz | hz
      · exact .inr ⟨e.1, hz, id, target, priority⟩
      · rw [List.mem_singleton] at hz
        rw [hz] at id target priority
        exact .inl ⟨id.symm, target.symm, priority.symm⟩

theorem ifbArbitrated_createTalk {s : State} {o : TalkOffer} {q : Nat} (hs : TalkSetBounded s) (h : IfbArbitrated s)
    (talker : o.talker = some q) (passes : s.offerRefusal o = none) : IfbArbitrated (createTalk (s.newTalk o q) s) := by
  have bounded := talkSetBounded_createTalk hs talker passes
  have fresh := (freeTalkId_free (offerRefusal_room talker passes).1).2
  obtain ⟨each, complete⟩ := (ifbArbitrated_iff s).1 h
  obtain ⟨contest, old⟩ := createTalk_contest (x := s.newTalk o q) hs bounded
  obtain ⟨⟨counts, renumbers⟩, joined, -⟩ := createTalk_joined (s.newTalk o q) s
  have joins : ∃ y ∈ (createTalk (s.newTalk o q) s).tc.talks, y.id = s.freeTalkId ∧ y.target = o.target ∧
      y.priority = o.priority := by
    by_cases more : s.tc.counter < 4294967295
    · obtain ⟨y, hy, bare⟩ := (counts more).1.exists (List.mem_append_right _ (List.mem_singleton_self _))
      obtain ⟨id, target, priority, -⟩ := bare_eq bare
      exact ⟨y, hy, id, target, priority⟩
    · obtain ⟨talks, -⟩ := renumbers (Nat.not_lt.1 more)
      have last : (s.newTalk o q, 1 + s.tc.talks.length) ∈ (s.tc.talks ++ [s.newTalk o q]).zipIdx 1 := by
        rw [List.mk_mem_zipIdx_iff_le_and_getElem?_sub]; simp
      obtain ⟨y, hy, bare⟩ := talks.exists (List.mem_map_of_mem last)
      obtain ⟨id, target, priority, -⟩ := bare_eq bare
      exact ⟨y, hy, id, target, priority⟩
  obtain ⟨y, hy, id, target, priority⟩ := joins
  have found := bounded.talk? hy
  have level : (createTalk (s.newTalk o q) s).priorityOf s.freeTalkId = o.priority := by
    rw [← id, priorityOf_eq found, priority]
  refine (ifbArbitrated_iff _).2 ⟨fun n j hj => ?_, fun z hz n hn positive => ?_⟩
  · rw [joined] at hj
    split at hj
    · next addressed =>
      obtain ⟨i, hi, rfl⟩ := Option.map_eq_some_iff.1 hj
      have carried := (each n i hi).carried contest fun _ _ => trivial
      by_cases none_left : o.priority = 0
      · rw [show (s.newTalk o q).priority = 0 from none_left, arbitrate_zero]; exact carried
      · have contends : (createTalk (s.newTalk o q) s).contends n s.freeTalkId :=
          ⟨y, id ▸ found, target.trans addressed, by omega⟩
        have absent : ¬i.holds s.freeTalkId := fun held => by
          have active : (s.talk? s.freeTalkId).isSome = true := by
            rcases held with current | pending
            · exact ((each n i hi).current _ current).1.active
            · exact ((each n i hi).pending _ pending).2.active
          obtain ⟨x, hx⟩ := Option.isSome_iff_exists.1 active
          obtain ⟨mx, ix⟩ := mem_of_talk? hx
          exact fresh (ix ▸ List.mem_map_of_mem mx)
        obtain ⟨i', hi', accepts⟩ := offerRefusal_accepts talker passes addressed
        cases hi.symm.trans hi'
        have arrived := carried.arrives bounded contends absent (by rw [level]; exact accepts)
        rw [level] at arrived
        exact arrived
    · exact (each n j hj).carried contest fun _ _ => trivial
  · have holds : ∃ i, s.ifb? n = some i ∧ ((s.newTalk o q).target = .ifb n ∧ z.id = s.freeTalkId ∧ 1 ≤ o.priority ∨ i.holds z.id) := by
      rcases old z hz with ⟨id', target', priority'⟩ | ⟨x, hx, id', target', priority'⟩
      · obtain ⟨i, hi, -⟩ := offerRefusal_accepts talker passes (target'.symm.trans hn)
        exact ⟨i, hi, .inl ⟨target'.symm.trans hn, id', by rw [priority'] at positive; exact positive⟩⟩
      · obtain ⟨i, hi, held⟩ := complete x hx n (target'.trans hn) (priority' ▸ positive)
        exact ⟨i, hi, .inr (id' ▸ held)⟩
    obtain ⟨i, hi, held⟩ := holds
    rw [joined, hi]
    split
    · refine ⟨_, rfl, ?_⟩
      dsimp only
      by_cases none_left : o.priority = 0
      · rw [show (s.newTalk o q).priority = 0 from none_left, arbitrate_zero]
        exact held.resolve_left fun h => absurd h.2.2 (by omega)
      · exact arbitrate_holds _ i (Nat.one_le_iff_ne_zero.2 none_left) _ (held.imp (fun h => h.2.1) fun h => h)
    · next other => exact ⟨i, rfl, held.resolve_left fun h => other h.1⟩

/-- R104, R115: a configured IFB is in order, and holds what it held. -/
theorem configuredIfb_arbitrated {s : State} (hs : TalkSetBounded s) (h : IfbArbitrated s) (n : Nat) (a : IfbArgs) :
    Arbitrated s n (s.configuredIfb n a) ∧ ∀ i c, s.ifb? n = some i → i.holds c → (s.configuredIfb n a).holds c := by
  unfold State.configuredIfb
  split
  · next absent =>
    exact ⟨⟨fun _ => ⟨rfl, rfl⟩, nofun, nofun, .nil, Nat.zero_le _, .nil, nofun⟩, fun i c hi => by rw [absent] at hi; cases hi⟩
  · next i hi =>
    obtain ⟨idle, current, pending, once, room, order, preempted⟩ := ((ifbArbitrated_iff s).1 h).1 n i hi
    have same : ∀ j c, s.ifb? n = some j → j.holds c → i.holds c := fun j c hj held => by
      cases hi.symm.trans hj; exact held
    dsimp only
    split
    · have arbitrated : Arbitrated s n { i with
          output := a.output, program := a.program, duck := a.duck, noPreempt := true } :=
        ⟨idle, current, pending, once, room, order, nofun⟩
      obtain ⟨new, holds⟩ := Arbitrated.rearbitrated (i := { i with
        output := a.output, program := a.program, duck := a.duck, noPreempt := a.noPreempt }) hs arbitrated
      exact ⟨new, fun j c hj held => holds c (same j c hj held)⟩
    · next kept =>
      refine ⟨⟨idle, current, pending, once, room, order, fun np => preempted ?_⟩, same⟩
      simp only [Bool.and_eq_true, Bool.not_eq_true', not_and, Bool.not_eq_false] at kept
      by_contra was
      rw [kept (by simpa using was)] at np; cases np

theorem writeIfb_ifbs (n : Nat) (v : Option Ifb) (s : State) (m : Nat) :
    (writeIfb n v s).ifb? m = if m = n then v else s.ifb? m := by
  have written : (writeIfb n v s).tc.ifbs = match v with
      | some i => s.tc.ifbs.put n i
      | none => s.tc.ifbs.erase n := by
    unfold writeIfb
    dsimp only
    rw [announceInterrupters_tc, handling_tc]; rfl
  unfold State.ifb?
  rw [written]
  by_cases h : m = n
  · rw [if_pos h, h]
    cases v with
    | some i => exact Table.find?_put_self ..
    | none => exact Table.find?_erase_self ..
  · rw [if_neg h]
    cases v with
    | some i => exact Table.find?_put_ne _ h i
    | none => exact Table.find?_erase_ne _ h

theorem ifbArbitrated_writeIfb {s : State} {n : Nat} {v : Option Ifb} (hs : TalkSetBounded s) (h : IfbArbitrated s)
    (arbitrated : ∀ i, v = some i → Arbitrated s n i)
    (holds : ∀ i, s.ifb? n = some i → ∀ t ∈ s.tc.talks, t.target = .ifb n → i.holds t.id → ∃ j, v = some j ∧ j.holds t.id) :
    IfbArbitrated (writeIfb n v s) := by
  have records := writeIfb_records n v s
  have bounded : TalkSetBounded (writeIfb n v s) := hs.congr (sameTalks_numbers records.1) records.2
  obtain ⟨each, complete⟩ := (ifbArbitrated_iff s).1 h
  have contest : SameContest s (writeIfb n v s) fun _ => True :=
    sameContest_of bounded records.1 id (fun x hx _ => ⟨hx, rfl, rfl, rfl, rfl⟩) fun _ _ _ _ lt => lt
  refine (ifbArbitrated_iff _).2 ⟨fun m j hj => ?_, fun y hy m target positive => ?_⟩
  · have standing : Arbitrated s m j := by
      rw [writeIfb_ifbs] at hj
      split at hj
      · next same => rw [same]; exact arbitrated j hj
      · exact each m j hj
    exact standing.carried contest fun _ _ => trivial
  · obtain ⟨x, hx, bare⟩ := records.1.symm.exists hy
    obtain ⟨id, target', priority, -⟩ := bare_eq bare
    obtain ⟨i, hi, held⟩ := complete x hx m (target'.trans target) (priority ▸ positive)
    rw [writeIfb_ifbs, ← id]
    split
    · next same =>
      rw [same] at hi target
      exact holds i hi x hx (target'.trans target) held
    · exact ⟨i, hi, held⟩

theorem ifbArbitrated_reset : IfbArbitrated State.reset :=
  (ifbArbitrated_iff _).2 ⟨fun _ _ => nofun, fun _ => nofun⟩

theorem ifbArbitrated_event (served : Nat → Prop) (s t : State) (event : TalkEvent served s t) (hs : TalkSetBounded s) (h : IfbArbitrated s) :
    IfbArbitrated t := by
  have bounded := talkSetBounded_event served s t event hs
  have same : ∀ {x y : State}, x.conference = y.conference → SameTalks x.tc.talks y.tc.talks ∧ x.tc.ifbs = y.tc.ifbs :=
    fun e => ⟨congrArg (fun c : Conference => c.talks.map Talk.bare) e, congrArg Conference.ifbs e⟩
  cases event with
  | same e => exact h.congr bounded (same e).1 (same e).2
  | ended ids => exact ifbArbitrated_endTalks ids hs h
  | created o q talker passes => exact ifbArbitrated_createTalk hs h talker passes
  | @recoloured u e =>
    have ifbs : (resolveOnair u).tc.ifbs = u.tc.ifbs := by
      rcases resolveOnair_eq u with e | e <;> rw [e]
      rw [handling_tc]; rfl
    exact h.congr bounded ((resolveOnair_records u).1.trans (congrArg (·.talks.map Talk.bare) e))
      (ifbs.trans (congrArg Conference.ifbs e))
  | camera c v =>
    have before : TalkSetBounded (driveAll (writeCamera c v s)) := hs.congr (by simp) (by simp)
    exact ifbArbitrated_cameraChange c _ before (h.congr before (by simp [SameTalks]) (by simp))
  | ifbConfigured n a range fits =>
    obtain ⟨arbitrated, holds⟩ := configuredIfb_arbitrated hs h n a
    exact ifbArbitrated_writeIfb hs h (fun i hi => Option.some.inj hi ▸ arbitrated)
      fun i hi t _ _ held => ⟨_, rfl, holds i t.id hi held⟩
  | ifbCleared n unaddressed =>
    refine ifbArbitrated_writeIfb hs h nofun fun i hi t ht target _ => ?_
    rw [State.ifbAddressed, List.any_eq_false] at unaddressed
    exact absurd (by simpa using target) (unaddressed t ht)
  | port | group | function | functionErased | recounted => exact h.congr bounded (by simp [SameTalks]) (by simp)
  | started e => exact ifbArbitrated_reset.congr bounded (same e).1 (same e).2

end Sys2Proof.Machine

/-! Talks of panel origin are those of panels in service (R95, R138), which every step keeps. -/

namespace Sys2Proof.Machine

/-! ### What it reads -/

/-- The state of every declared panel. -/
def PanelBus.states (b : PanelBus) (p : Nat) : Option PanelState := (b.panels.find? p).map (·.state)

/-- R138: a probe in flight whose outcome counts is of a panel that is ABSENT or LOST. -/
def PanelBus.ProbesAbsent (b : PanelBus) : Prop := ∀ x, b.transaction = some x → x.probe = true → x.discard = false →
  b.states x.panel = some .absent ∨ b.states x.panel = some .lost

/-- R95: every talk of panel origin is of a panel in service. -/
def TalksServed (s : State) : Prop := ∀ t ∈ s.tc.talks, ∀ p k, t.origin = .panel p k → s.inService p = true

theorem panelTalksServed_iff (s : State) : PanelTalksServed s ↔ TalksServed s ∧ s.pbc.ProbesAbsent :=
  ⟨fun h => ⟨h.served, h.probed⟩, fun h => ⟨h.1, h.2⟩⟩

theorem inService_states (s : State) (p : Nat) :
    s.inService p = true ↔ s.pbc.states p = some .online ∨ s.pbc.states p = some .degraded := by
  unfold State.inService
  rw [Bool.or_eq_true, beq_iff_eq, beq_iff_eq]; rfl

theorem inService_congr {s t : State} (h : t.pbc.states = s.pbc.states) (p : Nat) : t.inService p = s.inService p := by
  rw [Bool.eq_iff_iff, inService_states, inService_states, h]

/-- The states of the panels and the transaction in flight are as they were. -/
def SameService (s t : State) : Prop := t.pbc.states = s.pbc.states ∧ t.pbc.transaction = s.pbc.transaction

theorem SameService.refl (s : State) : SameService s s := ⟨rfl, rfl⟩

theorem SameService.of_pbc {s t : State} (h : t.pbc = s.pbc) : SameService s t := by unfold SameService; rw [h]; exact ⟨rfl, rfl⟩

theorem SameService.trans {s t u : State} (h : SameService s t) (h' : SameService t u) : SameService s u :=
  ⟨h'.1.trans h.1, h'.2.trans h.2⟩

theorem SameService.of_tables {s t : State} (h : t.tables = s.tables) : SameService s t := by
  simp only [State.tables, Prod.mk.injEq] at h
  obtain ⟨-, -, -, -, -, counters, -, transaction⟩ := h
  refine ⟨funext fun p => ?_, transaction⟩
  have states : ∀ b : PanelBus, b.states p = (b.counters p).map Prod.fst := fun b => by
    unfold PanelBus.states PanelBus.counters; rw [Option.map_map]; rfl
  rw [states, states, counters]

/-- A panel written in the state that it has. -/
theorem SameService.setPanel {s : State} {p : Nat} {v w : Panel} (hv : s.panel? p = some v) (h : w.state = v.state) :
    SameService s (s.setPanel p w) := by
  refine ⟨funext fun q => ?_, rfl⟩
  show ((s.setPanel p w).panel? q).map _ = (s.panel? q).map _
  by_cases hq : q = p
  · rw [hq, State.panel?_setPanel_self, hv]; exact congrArg some h
  · rw [State.panel?_setPanel_ne _ hq]

/-- A panel written that is not in service afterwards leaves the service of the others. -/
theorem states_setPanel_ne {s : State} {p q : Nat} (h : q ≠ p) (w : Panel) : (s.setPanel p w).pbc.states q = s.pbc.states q :=
  congrArg (Option.map _) (State.panel?_setPanel_ne s h w)

theorem states_setPanel_self (s : State) (p : Nat) (w : Panel) : (s.setPanel p w).pbc.states p = some w.state :=
  congrArg (Option.map _) (State.panel?_setPanel_self s p w)

theorem PanelTalksServed.congr {s t : State} (hs : PanelTalksServed s) (served : ∀ x ∈ t.tc.talks, ∀ p k, x.origin = .panel p k →
    s.inService p = true) (same : SameService s t) : PanelTalksServed t := by
  refine ⟨fun x hx p k origin => by rw [inService_congr same.1]; exact served x hx p k origin, ?_⟩
  have := ((panelTalksServed_iff s).1 hs).2
  unfold PanelBus.ProbesAbsent at this
  rw [← same.1, ← same.2] at this
  exact this

/-! ### The talks of a chain -/

theorem sameTalks_origin {ts us : List Talk} (h : SameTalks ts us) {P : TalkOrigin → Prop} (hu : ∀ x ∈ us, P x.origin) :
    ∀ x ∈ ts, P x.origin := fun x hx => by
  obtain ⟨y, hy, bare⟩ := h.symm.exists hx
  simp only [Talk.bare, Talk.mk.injEq] at bare
  obtain ⟨-, -, -, -, -, origin, -⟩ := bare
  exact origin ▸ hu y hy

/-- What an event creates for a panel is of a panel that it serves. -/
theorem talkEvent_origins {served : Nat → Prop} (s t : State) (event : TalkEvent served s t)
    (h : ∀ x ∈ s.tc.talks, ∀ p k, x.origin = .panel p k → served p) : ∀ x ∈ t.tc.talks, ∀ p k, x.origin = .panel p k → served p := by
  have same : ∀ {ts us : List Talk}, SameTalks ts us → (∀ x ∈ us, ∀ p k, x.origin = .panel p k → served p) →
      ∀ x ∈ ts, ∀ p k, x.origin = .panel p k → served p :=
    fun e hu => sameTalks_origin (P := fun o => ∀ p k, o = .panel p k → served p) e hu
  cases event with
  | same e => rw [show t.tc.talks = s.tc.talks from congrArg Conference.talks e]; exact h
  | ended ids => exact same (endTalks_talks ids s) fun x hx => h x (List.mem_filter.1 hx).1
  | created o q talker passes priority origin =>
    refine same (createTalk_records (s.newTalk o q) s).1 ?_
    have joined : ∀ x ∈ s.tc.talks ++ [s.newTalk o q], ∀ p k, x.origin = .panel p k → served p := fun x hx => by
      rcases List.mem_append.1 hx with hx | hx
      · exact h x hx
      · rw [List.mem_singleton.1 hx]; exact origin
    unfold joinTalk
    split
    · exact joined
    · show ∀ x ∈ renumberTalks 1 _, _
      rw [renumber_eq]
      intro x hx
      obtain ⟨e, he, rfl⟩ := List.mem_map.1 hx
      exact joined e.1 (List.fst_mem_of_mem_zipIdx he)
  | @recoloured u e =>
    refine same (resolveOnair_records _).1 ?_
    rw [show u.tc.talks = s.tc.talks from congrArg Conference.talks e]; exact h
  | camera c v =>
    rw [cameraChange_tc]
    refine same ((resolveAgain_same _ _).trans (relieved_talks _ _)) fun x hx => ?_
    have mx := (List.mem_filter.1 hx).1
    rw [recount_talks] at mx
    obtain ⟨y, hy, rfl⟩ := List.mem_map.1 mx
    rw [recounted_same]
    exact h y (by simpa using hy)
  | ifbConfigured | ifbCleared => exact same (writeIfb_records ..).1 h
  | port | group | function | functionErased | recounted => exact h
  | started e =>
    rw [show t.tc.talks = [] from congrArg Conference.talks e]
    exact fun x hx => absurd hx List.not_mem_nil

theorem chain_origins {served : Nat → Prop} {s t : State} (chain : TalkChain served s t)
    (h : ∀ x ∈ s.tc.talks, ∀ p k, x.origin = .panel p k → served p) : ∀ x ∈ t.tc.talks, ∀ p k, x.origin = .panel p k → served p :=
  chain.keeps (P := fun u => ∀ x ∈ u.tc.talks, ∀ p k, x.origin = .panel p k → served p) talkEvent_origins h

/-- The talks after an effect are of panels that were in service before it. -/
theorem effect_origins {s t : State} {mark : Bool} (e : Effect s mark t) (h : TalksServed s) :
    ∀ x ∈ t.tc.talks, ∀ p k, x.origin = .panel p k → s.inService p = true := chain_origins (effect_chain e) h

/-- R87: no talk of a kind is left when the talks of that kind end. -/
theorem endTalks_drops {s : State} {f : Talk → Bool} (bare : ∀ x y : Talk, x.origin = y.origin → f x = f y) :
    ∀ x ∈ (endTalks (s.talkIds f) s).tc.talks, f x = false := by
  intro x hx
  obtain ⟨y, hy, same⟩ := (endTalks_talks (s.talkIds f) s).symm.exists hx
  obtain ⟨my, stays⟩ := List.mem_filter.1 hy
  simp only [Talk.bare, Talk.mk.injEq] at same
  obtain ⟨-, -, -, -, -, origin, -⟩ := same
  rw [← bare y x origin]
  by_contra held
  have : y.id ∈ s.talkIds f := List.mem_map_of_mem (List.mem_filter.2 ⟨my, by simpa using held⟩)
  simp [this] at stays

/-! ### The poll cycle -/

theorem sendPoll_states (p : Nat) (b : PanelBus) : (sendPoll p b).states = b.states := by
  unfold sendPoll
  split
  · rfl
  · next v hv =>
    funext q
    show ((b.panels.put p _).find? q).map _ = (b.panels.find? q).map _
    by_cases hq : q = p
    · rw [hq, Table.find?_put_self, hv]; rfl
    · rw [Table.find?_put_ne _ hq]

theorem sendProbe_states (p : Nat) (b : PanelBus) : (sendProbe p b).states = b.states := by
  unfold PanelBus.states; rw [sendProbe_panels]

theorem sendPoll_probes {b : PanelBus} (hb : b.ProbesAbsent) (p : Nat) : (sendPoll p b).ProbesAbsent := by
  intro x hx probe discard
  rw [sendPoll_states]
  unfold sendPoll at hx
  split at hx
  · exact hb x hx probe discard
  · cases hx; cases probe

theorem sendProbe_probes {b : PanelBus} (hb : b.ProbesAbsent) {p : Nat} (hp : b.probes p = true) : (sendProbe p b).ProbesAbsent := by
  intro x hx probe discard
  rw [sendProbe_states]
  unfold sendProbe at hx
  unfold PanelBus.probes at hp
  split at hx
  · exact hb x hx probe discard
  · next v hv =>
    cases hx
    rw [hv] at hp
    dsimp only at hp ⊢
    unfold PanelBus.states
    rw [hv]
    simpa using hp

theorem nextProbe_probes {b : PanelBus} {p : Nat} (h : b.nextProbe = some p) : b.probes p = true := by
  unfold PanelBus.nextProbe at h
  rw [Option.or_eq_some_iff] at h
  rcases h with h | ⟨-, h⟩
  · exact List.find?_some h
  · exact List.find?_some h

/-- What an event of the poll cycle keeps: the states, and what a probe is sent to. -/
def Cycles (b c : PanelBus) : Prop := c.states = b.states ∧ (b.ProbesAbsent → c.ProbesAbsent)

theorem startCycle_cycles (b : PanelBus) : Cycles b (startCycle b) := by
  unfold startCycle
  dsimp only
  split
  · exact ⟨sendPoll_states _ _, fun hb => sendPoll_probes (b := { b with lastPolled := 0 }) hb _⟩
  · split
    · next h => exact ⟨sendProbe_states _ _, fun hb => sendProbe_probes (b := { b with lastPolled := 0 }) hb (nextProbe_probes h)⟩
    · exact ⟨rfl, fun _ => nofun⟩

theorem chooseNext_cycles (wasProbe : Bool) (b : PanelBus) : Cycles b (chooseNext wasProbe b) := by
  have next : Cycles b (nextCycle b) := startCycle_cycles { b with odd := !b.odd }
  unfold chooseNext
  split
  · exact startCycle_cycles { b with newCycle := false }
  · split
    · exact next
    · split
      · exact ⟨sendPoll_states _ _, fun hb => sendPoll_probes hb _⟩
      · split
        · next h => exact ⟨sendProbe_states _ _, fun hb => sendProbe_probes hb (nextProbe_probes h)⟩
        · exact next

/-- The poll cycle keeps talks with panels in service. -/
theorem PanelTalksServed.cycled {s : State} (hs : PanelTalksServed s) {b : PanelBus} (h : Cycles s.pbc b) :
    PanelTalksServed { s with pbc := b } := by
  obtain ⟨served, probes⟩ := (panelTalksServed_iff s).1 hs
  exact (panelTalksServed_iff _).2 ⟨fun x hx p k origin => by
    rw [inService_congr (s := s) (t := { s with pbc := b }) h.1]; exact served x hx p k origin, h.2 probes⟩

/-! ### The outcome of a transaction -/

theorem sameService_countError (p : Nat) (k : ErrorKind) (s : State) : SameService s (countError p k s) := by
  unfold countError
  split
  · exact .refl s
  · next v hv =>
    split
    · dsimp only
      have counted := SameService.setPanel (w := { v with lastError := k, errors := v.errors + 1 }) hv rfl
      split
      · exact counted.trans (.of_pbc (by simp))
      · exact counted
    · exact .setPanel hv rfl

/-- R95: talks are served when panels stay in service and the talks of the others end. -/
theorem TalksServed.mono {s t : State} (from_s : ∀ x ∈ t.tc.talks, ∀ p k, x.origin = .panel p k → s.inService p = true)
    (stays : ∀ x ∈ t.tc.talks, ∀ p k, x.origin = .panel p k → s.inService p = true → t.inService p = true) : TalksServed t :=
  fun x hx p k origin => stays x hx p k origin (from_s x hx p k origin)

theorem dropPanel_origins (p : Nat) (s : State) :
    ∀ x ∈ (staleBridge p (dropPanelCalls p (dropPanelTalks p s))).tc.talks, ∀ k, x.origin ≠ .panel p k := by
  intro x hx k origin
  rw [staleBridge_tc, dropPanelCalls_tc] at hx
  have gone := endTalks_drops (f := Talk.ofPanel p) (fun x y e => by unfold Talk.ofPanel; rw [e]) x hx
  rw [Talk.ofPanel, origin] at gone
  simp at gone

/-- R151, R135: the service of the other panels stands when the talks, the calls and the buses of a panel go. -/
theorem sameService_dropPanel (p : Nat) (s : State) :
    SameService s (staleBridge p (dropPanelCalls p (dropPanelTalks p s))) := .of_pbc (by simp)

theorem sameService_panelStateChanged (s : State) : SameService s (panelStateChanged s) := .of_tables (tables_panelStateChanged s)

theorem talksServed_losePanel {s : State} (hs : TalksServed s) {p : Nat} {v : Panel}
    (chain : TalkChain (fun p => s.inService p = true) s (losePanel p v s)) : TalksServed (losePanel p v s) := by
  have others : ∀ q, q ≠ p → (losePanel p v s).pbc.states q = s.pbc.states q := fun q hq => by
    unfold losePanel
    rw [(sameService_panelStateChanged _).1, (sameService_dropPanel p _).1]
    exact states_setPanel_ne hq _
  refine TalksServed.mono (chain_origins chain hs) fun x hx q k origin served => ?_
  have ne : q ≠ p := by
    rintro rfl
    unfold losePanel at hx
    rw [panelStateChanged_tc] at hx
    exact dropPanel_origins q _ x hx k origin
  rw [inService_states, others q ne, ← inService_states]; exact served

theorem TalksServed.same {s t : State} (hs : TalksServed s) (talks : t.tc.talks = s.tc.talks)
    (stays : ∀ p, s.inService p = true → t.inService p = true) : TalksServed t :=
  fun x hx p k origin => stays p (hs x (talks ▸ hx) p k origin)

theorem talksServed_missPoll {s : State} (hs : TalksServed s) (p : Nat) : TalksServed (missPoll p s) := by
  have chain : TalkChain (fun p => s.inService p = true) s (missPoll p s) := missPoll_chain p s
  unfold missPoll
  split
  · exact hs
  · next v hv =>
    split
    · next third =>
      have lost : missPoll p s = losePanel p v s := by unfold missPoll; rw [hv]; exact if_pos third
      exact talksServed_losePanel hs (lost ▸ chain)
    · exact hs.same rfl fun q served => by
        rw [inService_congr (SameService.setPanel (w := { v with missed := v.missed + 1 }) hv rfl).1]; exact served

theorem talksServed_takeReply {s : State} (hs : TalksServed s) (p : Nat) (bit : Bool) (events : List PanelAction)
    (entries : List (Nat × Lamp)) : TalksServed (takeReply p bit events entries s) := by
  have taken : ∀ v, s.panel? p = some v → SameService s (takeEvents p v bit events s) ∧
      (takeEvents p v bit events s).tc = s.tc := fun v hv => by
    have written : SameService s (s.setPanel p { v with seqBit := bit }) := .setPanel hv rfl
    unfold takeEvents
    split
    · exact ⟨written, rfl⟩
    · exact ⟨.refl s, rfl⟩
    · exact ⟨.refl s, rfl⟩
    · split
      · exact ⟨.refl s, rfl⟩
      · split
        · exact ⟨written, rfl⟩
        · exact ⟨.refl s, rfl⟩
  have answered : ∀ u : State, TalksServed u → TalksServed (answeredPoll p entries u) := fun u hu => by
    unfold answeredPoll
    split
    · exact hu
    · next v hv =>
      have state : (Panel.acknowledge entries { v with missed := 0 }).state = v.state :=
        congrArg Prod.fst (Panel.acknowledge_counters entries { v with missed := 0 })
      dsimp only
      split
      · next joins =>
        refine hu.same (by simp) fun q served => ?_
        rw [inService_congr (sameService_panelStateChanged _).1, inService_states]
        rw [inService_states] at served
        by_cases hq : q = p
        · rw [hq, states_setPanel_self]; exact .inl rfl
        · rw [states_setPanel_ne hq]; exact served
      · exact hu.same rfl fun q served => by rw [inService_congr (SameService.setPanel hv state).1]; exact served
  unfold takeReply
  split
  · exact hs
  · next v hv =>
    obtain ⟨same, tc⟩ := taken v hv
    exact answered _ (hs.same (by rw [tc]) fun q served => by rw [inService_congr same.1]; exact served)

theorem talksServed_outcome {s : State} (hs : TalksServed s) (t : Transaction) (j : BusJudgement)
    (target : t.probe = true → s.inService t.panel = false) : TalksServed (outcome t j s) := by
  have counted : ∀ k, TalksServed (countError t.panel k s) := fun k =>
    hs.same (by simp) fun q served => by rw [inService_congr (sameService_countError ..).1]; exact served
  have missed : ∀ k, TalksServed (missPoll t.panel (countError t.panel k s)) := fun k => talksServed_missPoll (counted k) _
  unfold outcome
  split
  · exact hs
  · exact counted _
  · next probe =>
    unfold takeIdent
    split
    · exact hs
    · next v hv =>
      split
      · refine hs.same (by simp [dropHeld]) fun q served => ?_
        rw [inService_congr (sameService_panelStateChanged _).1, inService_states]
        show PanelBus.states (s.setPanel t.panel _).pbc q = _ ∨ PanelBus.states (s.setPanel t.panel _).pbc q = _
        have ne : q ≠ t.panel := by
          rintro rfl
          rw [target probe] at served; cases served
        rw [states_setPanel_ne ne, ← inService_states]; exact served
      · exact counted _
  · exact counted _
  · exact missed _
  · exact missed _
  · exact talksServed_takeReply hs _ _ _ _
  · exact missed _

/-- The outcome of a transaction begins none. -/
theorem outcome_transaction (t : Transaction) (j : BusJudgement) (s : State) :
    (outcome t j s).pbc.transaction = s.pbc.transaction := by
  have counted : ∀ k, (countError t.panel k s).pbc.transaction = s.pbc.transaction := fun k => (sameService_countError ..).2
  have missed : ∀ x : State, (missPoll t.panel x).pbc.transaction = x.pbc.transaction := fun x => by
    unfold missPoll
    split
    · rfl
    · split
      · rw [losePanel, (sameService_panelStateChanged _).2, (sameService_dropPanel _ _).2]; rfl
      · rfl
  have taken : ∀ (v : Panel) (b : Bool) (es : List PanelAction),
      (takeEvents t.panel v b es s).pbc.transaction = s.pbc.transaction := fun v b es => by
    unfold takeEvents; (repeat' split) <;> rfl
  have answered : ∀ x : State, (answeredPoll t.panel t.entries x).pbc.transaction = x.pbc.transaction := fun x => by
    unfold answeredPoll
    split
    · rfl
    · dsimp only
      split
      · rw [(sameService_panelStateChanged _).2]; rfl
      · rfl
  unfold outcome
  split
  · rfl
  · exact counted _
  · unfold takeIdent
    split
    · rfl
    · split
      · rw [(sameService_panelStateChanged _).2]; rfl
      · exact counted _
  · exact counted _
  · exact (missed _).trans (counted _)
  · exact (missed _).trans (counted _)
  · unfold takeReply
    split
    · rfl
    · exact (answered _).trans (taken _ _ _)
  · exact (missed _).trans (counted _)

theorem panelTalksServed_endTransaction {s : State} (hs : PanelTalksServed s) (j : Transaction → State → BusJudgement) :
    PanelTalksServed (endTransaction j s) := by
  obtain ⟨served, probes⟩ := (panelTalksServed_iff s).1 hs
  unfold endTransaction
  split
  · exact hs
  · next t ht =>
    have ended : TalksServed { s with pbc := { s.pbc with transaction := none } } := served
    have judged : PanelTalksServed (if t.discard then { s with pbc := { s.pbc with transaction := none } }
        else relamp (outcome t (j t s) { s with pbc := { s.pbc with transaction := none } })) := by
      split
      · exact (panelTalksServed_iff _).2 ⟨ended, nofun⟩
      · next counts =>
        have target : t.probe = true → s.inService t.panel = false := fun probe => by
          rw [← Bool.not_eq_true, inService_states]
          rcases probes t ht probe (by simpa using counts) with state | state <;> rw [state] <;> simp
        have idle := outcome_transaction t (j t s) { s with pbc := { s.pbc with transaction := none } }
        refine (panelTalksServed_iff _).2 ⟨?_, ?_⟩
        · exact (talksServed_outcome ended t (j t s) target).same (relamp_tc _ ▸ rfl) fun p inService => by
            rw [inService_congr (SameService.of_tables (tables_relamp _)).1]; exact inService
        · intro x hx
          rw [(SameService.of_tables (tables_relamp _)).2, idle] at hx
          cases hx
    exact judged.cycled (chooseNext_cycles _ _)

/-! ### The other effects -/

/-- R135: the removal of a panel, whose talks end with it and whose transaction is discarded. -/
theorem panelTalksServed_removePanel {s : State} (hs : PanelTalksServed s) (p : Nat) (v : Panel) :
    PanelTalksServed (relamp (removePanel p v s)) := by
  obtain ⟨served, probes⟩ := (panelTalksServed_iff s).1 hs
  have chain : TalkChain (fun p => s.inService p = true) s (relamp (removePanel p v s)) :=
    (removePanel_chain p v s).then rfl
  let erased : PanelBus := { s.pbc with
    panels := s.pbc.panels.erase p
    transaction := s.pbc.transaction.map fun t => if t.panel = p then { t with discard := true } else t }
  have same : SameService { s with pbc := erased } (relamp (removePanel p v s)) := by
    refine SameService.trans ?_ (.of_tables (tables_relamp _))
    have dropped : SameService { s with pbc := erased }
        (staleBridge p (dropPanelCalls p (dropPanelTalks p (dropHeld p ((clearProtects p
          { s with pbc := erased }).setContext p Context.start))))) := .of_pbc (by simp [dropHeld])
    unfold removePanel
    dsimp only
    split
    · exact dropped
    · exact dropped.trans (sameService_panelStateChanged _)
  have others : ∀ q, q ≠ p → erased.states q = s.pbc.states q := fun q hq =>
    congrArg (Option.map _) (Table.find?_erase_ne _ hq)
  refine (panelTalksServed_iff _).2 ⟨TalksServed.mono (chain_origins chain served) fun x hx q k origin inService => ?_,
    fun y hy probe discard => ?_⟩
  · have ne : q ≠ p := by
      rintro rfl
      have talks : ∃ u, (relamp (removePanel q v s)).tc.talks = (staleBridge q (dropPanelCalls q (dropPanelTalks q u))).tc.talks := by
        rw [relamp_tc]
        unfold removePanel
        dsimp only
        split
        · exact ⟨_, rfl⟩
        · exact ⟨_, by rw [panelStateChanged_tc]⟩
      obtain ⟨u, hu⟩ := talks
      exact dropPanel_origins q u x (hu ▸ hx) k origin
    rw [inService_states, same.1]
    rw [inService_states] at inService
    exact (others q ne) ▸ inService
  · rw [same.2] at hy
    obtain ⟨t, ht, rfl⟩ := Option.map_eq_some_iff.1 hy
    rw [same.1]
    split at probe
    · next gone => rw [if_pos gone] at discard; cases discard
    · next other =>
      rw [if_neg other] at discard ⊢
      show erased.states _ = _ ∨ erased.states _ = _
      rw [others _ other]
      exact probes t ht probe discard

/-- R157: RESTART(PANELS) ends the talks of panel origin and discards the transaction. -/
theorem panelTalksServed_restartPanels (s : State) : PanelTalksServed (restartPanels s) := by
  have evaluated : ∀ x, SameService x (evaluatePanelErrors x) := fun x => .of_tables (tables_evaluatePanelErrors x)
  have started : ∀ x : State, PanelTalksServed x → PanelTalksServed { x with pbc := startCycle x.pbc } :=
    fun x hx => hx.cycled (startCycle_cycles _)
  unfold restartPanels
  dsimp only
  generalize hu : ({ s with pbc := restartBus s.pbc, fd := { s.fd with contexts := ⟨[]⟩, held := ⟨[]⟩ } } : State) = u
  have dropped : PanelTalksServed (relamp (if (s.pbc.panels.values.any fun v => v.state != .absent) = true then
      panelStateChanged (staleAllBridges (dropAllCalls (idleAllKeys (endTalks (u.talkIds Talk.ofAnyPanel) u))))
      else evaluatePanelErrors (staleAllBridges (dropAllCalls (idleAllKeys (endTalks (u.talkIds Talk.ofAnyPanel) u)))))) := by
    generalize hx : staleAllBridges (dropAllCalls (idleAllKeys (endTalks (u.talkIds Talk.ofAnyPanel) u))) = x
    have same : SameService u x := by rw [← hx]; exact .of_pbc (by simp)
    have reported : ∀ b : Bool, SameService x (relamp (if b = true then panelStateChanged x else evaluatePanelErrors x)) ∧
        (relamp (if b = true then panelStateChanged x else evaluatePanelErrors x)).tc = x.tc := fun b => by
      cases b
      · exact ⟨(evaluated x).trans (.of_tables (tables_relamp _)), by simp⟩
      · exact ⟨(sameService_panelStateChanged x).trans (.of_tables (tables_relamp _)), by simp⟩
    obtain ⟨after, tc⟩ := reported (s.pbc.panels.values.any fun v => v.state != .absent)
    refine (panelTalksServed_iff _).2 ⟨fun y hy p k origin => ?_, fun y hy probe discard => ?_⟩
    · rw [tc, ← hx, staleAllBridges_tc, dropAllCalls_tc] at hy
      have gone := endTalks_drops (f := Talk.ofAnyPanel) (fun x y e => by unfold Talk.ofAnyPanel; rw [e]) y hy
      rw [Talk.ofAnyPanel, origin] at gone
      cases gone
    · rw [after.2, same.2, ← hu] at hy
      obtain ⟨t, -, rfl⟩ := Option.map_eq_some_iff.1 hy
      cases discard
  generalize relamp _ = y at dropped ⊢
  split
  · exact dropped
  · exact started y dropped

theorem panelTalksServed_start {t : State} (talks : t.tc.talks = []) (bus : ∀ x, t.pbc.transaction = some x → x.discard = true) :
    PanelTalksServed t := by
  refine ⟨fun x hx => ?_, fun x hx _ discard => ?_⟩
  · rw [talks] at hx; cases hx
  · rw [bus x hx] at discard; cases discard

theorem sameService_offerSystemKey (e : SystemKeyEntry) (s : State) : SameService s (offerSystemKey e s) := by
  refine .of_pbc ?_
  unfold offerSystemKey; rw [raise_pbc]; split <;> rfl

theorem sameService_keyRefusal (p k : Nat) (why : Reason) (s : State) : SameService s (keyRefusal p k why s) :=
  .of_tables (tables_keyRefusal p k why s)

theorem sameService_callPress (p k c : Nat) (s : State) : SameService s (callPress p k c s) := by
  unfold callPress
  (repeat' split) <;> first | exact sameService_keyRefusal .. | exact .of_pbc rfl

theorem sameService_carryOut (p k : Nat) (a : FunctionAction) (s : State) : SameService s (carryOut p k a s) := by
  unfold carryOut
  split
  case h_1 | h_2 | h_3 | h_5 | h_6 | h_8 | h_10 => exact .of_tables (by simp)
  case h_4 | h_7 => exact .of_tables (by split <;> simp)
  case h_9 c => exact SameService.trans (t := s.setHeld p k (some (.call c))) (.of_pbc rfl) (sameService_callPress ..)
  case h_11 v => exact SameService.trans (t := s.setHeld p k (some (.systemKey v))) (.of_pbc rfl) (sameService_offerSystemKey ..)

theorem sameService_handlePress (p k : Nat) (s : State) : SameService s (handlePress p k s) := by
  unfold handlePress
  split
  · split
    · exact .refl s
    · split
      · split
        · exact sameService_keyRefusal ..
        · exact .refl s
      · split
        · exact sameService_carryOut ..
        · unfold handOnUncaptured
          split
          · exact .of_tables (by simp)
          · exact sameService_callPress ..
          · exact .refl s
  · exact .of_tables (by simp)

theorem sameService_handleRelease (p k : Nat) (s : State) : SameService s (handleRelease p k s) := by
  unfold handleRelease
  split
  · split
    · exact .refl s
    · exact .of_pbc (by unfold callRelease; split <;> rfl)
    · exact SameService.trans (.of_pbc rfl) (sameService_offerSystemKey ..)
  · exact .of_tables (by simp)

theorem panelTalksServed_transfer {s : State} (hs : PanelTalksServed s) : PanelTalksServed (relamp (transfer s)) := by
  obtain ⟨served, probes⟩ := (panelTalksServed_iff s).1 hs
  have states : ∀ p, (relamp (transfer s)).pbc.states p =
      (s.panel? p).map fun v => (v.transferred s.pbc.threshold).state := fun p => by
    have moved : (transfer s).pbc.states p = (s.panel? p).map fun v => (v.transferred s.pbc.threshold).state := by
      unfold transfer
      dsimp only
      split
      all_goals
        first | rw [(sameService_panelStateChanged _).1] | skip
        show ((Table.mapValues _ s.pbc.panels).find? p).map _ = _
        rw [Table.find?_mapValues, Option.map_map]; rfl
    rw [(SameService.of_tables (tables_relamp _)).1, moved]
  have transaction : (relamp (transfer s)).pbc.transaction = s.pbc.transaction := by
    rw [(SameService.of_tables (tables_relamp _)).2]
    unfold transfer
    dsimp only
    split
    · rw [(sameService_panelStateChanged _).2]
    · rfl
  have was : ∀ p, s.pbc.states p = (s.panel? p).map (·.state) := fun _ => rfl
  refine (panelTalksServed_iff _).2 ⟨served.same (by simp) fun p inService => ?_, fun x hx probe discard => ?_⟩
  · rw [inService_states, was] at inService
    rw [inService_states, states]
    cases hv : s.panel? p with
    | none => rw [hv] at inService; simp at inService
    | some v =>
      rw [hv] at inService
      simp only [Option.map_some, Option.some.injEq] at inService ⊢
      unfold Panel.transferred
      rcases inService with state | state <;> rw [state] <;> dsimp only <;> split <;> simp
  · rw [states]
    have absent := probes x (transaction ▸ hx) probe discard
    rw [was] at absent
    cases hv : s.panel? x.panel with
    | none => rw [hv] at absent; simp at absent
    | some v =>
      rw [hv] at absent
      simp only [Option.map_some, Option.some.injEq] at absent ⊢
      unfold Panel.transferred
      rcases absent with state | state <;> rw [state] <;> simp

theorem panelTalksServed_effect {s t : State} {mark : Bool} (e : Effect s mark t) (hs : PanelTalksServed s) : PanelTalksServed t := by
  have origins := effect_origins e hs.served
  have same : ∀ {x : State}, SameService s x → SameService s (relamp x) := fun h => h.trans (.of_tables (tables_relamp _))
  cases e with
  | none => exact hs
  | powerOn => exact panelTalksServed_start rfl nofun
  | restartAll tag =>
    refine panelTalksServed_start rfl fun x hx => ?_
    obtain ⟨t, -, rfl⟩ := Option.map_eq_some_iff.1 hx
    rfl
  | restartPanels => exact panelTalksServed_restartPanels s
  | removePanel p v => exact panelTalksServed_removePanel hs p v
  | transfer => exact panelTalksServed_transfer hs
  | endTransaction j => exact panelTalksServed_endTransaction hs j
  | endEmptyCycle =>
    unfold endEmptyCycle
    split
    · exact hs
    · exact hs.cycled (startCycle_cycles { s.pbc with odd := !s.pbc.odd })
  | declarePanel p a fresh =>
    obtain ⟨served, probes⟩ := (panelTalksServed_iff s).1 hs
    have absent : s.pbc.states p = none := congrArg (Option.map _) fresh
    have written := SameService.of_tables (tables_relamp ((s.setPanel p a.declared).setContext p Context.start))
    refine (panelTalksServed_iff _).2 ⟨served.same (by simp) fun q inService => ?_, fun x hx probe discard => ?_⟩
    · rw [inService_states] at inService
      have ne : q ≠ p := fun e => by rw [e, absent] at inService; simp at inService
      rw [inService_states, written.1, State.setContext_pbc, states_setPanel_ne ne]
      exact inService
    · have found := probes x (written.2 ▸ hx) probe discard
      have ne : x.panel ≠ p := fun e => by rw [e, absent] at found; simp at found
      rw [written.1, State.setContext_pbc, states_setPanel_ne ne]
      exact found
  | changePanel p v a found => exact hs.congr origins (same (.setPanel found rfl))
  | press p k es =>
    exact hs.congr origins (same (SameService.trans (s := s) (t := s.withEvents es) ⟨rfl, rfl⟩ (sameService_handlePress p k _)))
  | release p k es =>
    exact hs.congr origins (same (SameService.trans (s := s) (t := s.withEvents es) ⟨rfl, rfl⟩ (sameService_handleRelease p k _)))
  | knob p delta es =>
    refine hs.congr origins (SameService.trans (s := s) (t := s.withEvents es) ⟨rfl, rfl⟩ (.of_pbc ?_))
    unfold handleKnob; (repeat' split) <;> rfl
  | busState p b i es =>
    exact hs.congr origins (same (SameService.trans (s := s) (t := s.withEvents es) ⟨rfl, rfl⟩ (.of_tables (by simp))))
  | take e t accepted => exact hs.congr origins (same (.of_tables (tables_offerTake accepted)))
  | fireSalvo n o f t accepted => exact hs.congr origins (same (.of_tables (tables_fireSalvo accepted)))
  | writeOutput n v => exact hs.congr origins (.of_tables (by rw [writeOutput, tables_evaluateLampFault]; rfl))
  | setFault n f => exact hs.congr origins (.of_tables (by rw [setFault, tables_evaluateLampFault]; rfl))
  | expireTimer p k => exact hs.congr origins (same (.of_tables (by unfold expireTimer; dsimp only; split <;> rfl)))
  | completeReadback | failReadback | takeAnswer | expireWindow => exact hs.congr origins (.of_tables (by simp))
  | switchPoint v => exact hs.congr origins (.of_tables ((tables_switchPoint _).trans rfl))
  | setRoot | selectBuses | setMaps | setTie | clearTie | talkOn | endSlot | configureIfb | unconfigureIfb
  | rewriteProtects | mapDevice | retryDevice => exact hs.congr origins (same (.of_pbc (by simp)))
  | setDomain | setProtect | setBinding | setFunction | setLamp => exact hs.congr origins (same (.of_pbc rfl))
  | setCamera => exact hs.congr origins (same (.of_tables (by simp; rfl)))
  | restartTalk =>
    refine hs.congr origins ?_
    unfold restartTalk
    exact same (.of_pbc (by simp))
  | countMode => exact hs.congr origins ⟨rfl, rfl⟩
  | storeSalvo | timing | setMixerSource | flashClock | setPort | setGroup | takeSystemKeys =>
    exact hs.congr origins (.of_pbc rfl)

/-- Settles O59, over the talk events: each keeps the arbitration of every IFB in order, the operations of an arbitration over
a standing talk set first; and over the effects for the panels in service. -/
theorem arbitrationStaysInOrder : Obligations.ArbitrationStaysInOrder :=
  ⟨fun _ _ hs ha h => (step_keeps_talks (P := fun s => TalkSetBounded s ∧ IfbArbitrated s)
      (fun served s t event ⟨hs, ha⟩ => ⟨talkSetBounded_event served s t event hs, ifbArbitrated_event served s t event hs ha⟩)
      h ⟨hs, ha⟩).2,
    fun _ _ _ hs h => step_keeps ⟨fun _ _ hs => ⟨hs.served, hs.probed⟩, fun _ _ hs => ⟨hs.served, hs.probed⟩⟩
      (fun _ _ => panelTalksServed_effect) h hs⟩

end Sys2Proof.Machine

/-! Camera records listed twice: a talk that a camera change does not resolve again. -/

namespace Sys2Proof.Machine

/-- Camera 1 listed twice, in domain A without a talk port and in domain B with port 3, and an ONAIR talk of domain B that port 3
hears; SET_CAMERA 1 UNSET waits. -/
def twoRecords : State :=
  { State.reset with
    tou := { TallyOutputs.start with cameras := ⟨[(1, ⟨.a, 1, none, none⟩), (1, ⟨.b, 1, some 3, none⟩)]⟩ }
    tt := { TallyTracer.start with coloursB := ⟨[(1, ⟨true, false, false⟩)]⟩ }
    tc := { TalkController.start with talks := [⟨1, 2, .onair, 0, 0, .system 1, some .b, 1, 1, [3]⟩], counter := 2 }
    tme := { TalkMix.start with paths := [⟨.talk, 2, 3, [1], 0, 0, .admitted 1 (.steps (-12))⟩], counter := 2 }
    pending := [.setCamera 0 [1]] }

theorem twoRecords_talkSetBounded : TalkSetBounded twoRecords :=
  ⟨by decide, by decide, by decide, by decide, by decide, by decide, by decide⟩

theorem twoRecords_pathsBounded : PathsBounded twoRecords :=
  ⟨by decide, by decide, rfl, fun _ => Nat.le_trans (List.length_filter_le _ _) (by decide), by decide⟩

theorem twoRecords_mixAgrees : MixAgrees twoRecords where
  listeners := by decide
  ordered := by decide
  talkPaths a b := by simp [twoRecords, eq_comm]
  derived := by decide
  programPaths n a b := by
    have none_configured : twoRecords.ifb? n = none := rfl
    simp only [none_configured]
    simp [twoRecords]
  programs := by decide
  coefficients := by decide
  full := by decide
  numbers := by decide
  starved := by decide
  ifbs := by decide
  priorities := ⟨by decide, fun f x _ _ _ _ _ found => by
    have none_written : twoRecords.function? f = none := rfl
    rw [none_written] at found; cases found⟩

/-- The state that the step reaches. -/
def oneTalkDeaf : State :=
  match step twoRecords with
  | .next t => t
  | .fault _ => twoRecords
  | .refused _ => twoRecords

theorem step_twoRecords : step twoRecords = .next oneTalkDeaf := rfl

/-- R98: unsetting camera 1 takes both of its records away, but only talks of the domain of the first are resolved again. -/
theorem oneTalkDeaf_listeners : ∃ t ∈ oneTalkDeaf.tc.talks, t.listeners ≠ oneTalkDeaf.listenersOf t := by
  decide

/-- Refutes O58, by its third part: no premise says that the camera table lists a camera once.  Where it lists one twice, the
step of `twoRecords` erases a record of domain B while it resolves the talks of domain A alone, and the ONAIR talk of domain B
keeps a listener that R97 no longer gives. -/
theorem not_talksAndPathsStayBounded : ¬ Obligations.TalksAndPathsStayBounded := by
  rintro ⟨-, -, agrees, -⟩
  obtain ⟨t, ht, differ⟩ := oneTalkDeaf_listeners
  have after := agrees _ _ twoRecords_talkSetBounded twoRecords_pathsBounded twoRecords_mixAgrees step_twoRecords
  exact differ (after.listeners t ht)

end Sys2Proof.Machine

/-! Which effects do nothing to the host link but raise flags. -/

namespace Sys2Proof.Machine

/-- R187: a link after some flags were raised. -/
def Announced (h k : HostLink) : Prop := ∃ gs : List Flag, k = gs.foldl (fun x f => x.raised f) h

theorem Announced.refl (h : HostLink) : Announced h h := ⟨[], rfl⟩

theorem Announced.of_eq {h k : HostLink} (e : k = h) : Announced h k := e ▸ .refl h

theorem Announced.trans {h k l : HostLink} : Announced h k → Announced k l → Announced h l
  | ⟨fs, ek⟩, ⟨gs, el⟩ => ⟨fs ++ gs, by rw [el, ek, List.foldl_append]⟩

theorem announced_raised (f : Flag) (h : HostLink) : Announced h (h.raised f) := ⟨[f], rfl⟩

theorem announced_handed (f : Flag) (x y : Bool) (h : HostLink) : Announced h (h.handed f x y) := by
  rcases handed_eq f x y h with e | e <;> rw [e]
  · exact announced_raised f h
  · exact .refl h

theorem announced_raise (f : Flag) (s : State) : Announced s.hlc (raise f s).hlc := by
  rw [raise_hlc]; exact announced_raised f _

theorem announced_handOver (f : Flag) (x y : Bool) (s : State) : Announced s.hlc (handOver f x y s).hlc := by
  rw [handOver_hlc]; exact announced_handed f x y _

theorem announced_raiseIf {c : Prop} [Decidable c] (f : Flag) (s : State) : Announced s.hlc (if c then raise f s else s).hlc := by
  split
  · exact announced_raise f s
  · exact .refl _

theorem announced_foldl {β : Type} {f : State → β → State} (h : ∀ s b, Announced s.hlc (f s b).hlc) (bs : List β) (s : State) :
    Announced s.hlc (bs.foldl f s).hlc := by
  induction bs generalizing s with
  | nil => exact .refl _
  | cons b bs ih => exact (h s b).trans (ih _)

/-! ### The sources and the reports -/

theorem announced_evaluateFabric (s : State) : Announced s.hlc (evaluateFabric s).hlc := announced_handOver ..

theorem announced_evaluateLampFault (s : State) : Announced s.hlc (evaluateLampFault s).hlc := announced_handOver ..

theorem announced_evaluatePanelErrors (s : State) : Announced s.hlc (evaluatePanelErrors s).hlc := announced_handOver ..

theorem announced_panelStateChanged (s : State) : Announced s.hlc (panelStateChanged s).hlc :=
  (announced_raise .panelState s).trans (announced_evaluatePanelErrors _)

theorem announced_keyRefusal (p k : Nat) (why : Reason) (s : State) : Announced s.hlc (keyRefusal p k why s).hlc := by
  unfold keyRefusal
  split
  · exact announced_raise .keyRefused (s.setPanel p _)
  · exact .refl _

theorem announced_handling (b s : State) : Announced s.hlc (handling b s).hlc := by
  rw [handling_hlc]; exact announced_handed ..

theorem announced_interrupters (b s : State) : Announced s.hlc (announceInterrupters b s).hlc := announced_raiseIf ..

theorem announced_handled (b x s : State) : Announced s.hlc (announceInterrupters x (handling b s)).hlc :=
  (announced_handling b s).trans (announced_interrupters x _)

/-! ### The router and the tallies -/

theorem announced_recomputeTally (s : State) : Announced s.hlc (recomputeTally s).hlc := by
  have faulted : ∀ b : Bool, Announced s.hlc (if b = true then raise .traceFault (retrace s) else retrace s).hlc := fun b => by
    split
    · exact announced_raise .traceFault (retrace s)
    · exact .refl _
  have changed : ∀ x : State, Announced x.hlc (tallyChange (raise .tallyChange x)).hlc := fun x => by
    refine (announced_raise .tallyChange x).trans ?_
    unfold tallyChange
    rw [resolveOnair_hlc]; exact announced_handed ..
  unfold recomputeTally
  dsimp only
  split
  · exact (faulted _).trans (changed _)
  · exact faulted _

theorem announced_routeChange (s : State) : Announced s.hlc (routeChange s).hlc := announced_recomputeTally s

theorem announced_readbackDone (k : ReadbackKind) (s : State) : Announced s.hlc (readbackDone k s).hlc := announced_raiseIf ..

theorem announced_endReadback (n : Nat) (v : Device) (k : ReadbackKind) (p : DevicePhase) (x : List LevelState) (s : State) :
    Announced s.hlc (endReadback n v k p x s).hlc := by
  have written : ((writeLevels v.level v.first x s).setDevice n { v with phase := p }).hlc = s.hlc := by simp
  have done := announced_readbackDone k ((writeLevels v.level v.first x s).setDevice n { v with phase := p })
  rw [written] at done
  exact (done.trans (announced_evaluateFabric _)).trans (announced_routeChange _)

theorem announced_completeReadback (n : Nat) (x : List Nat) (s : State) : Announced s.hlc (completeReadback n x s).hlc := by
  unfold completeReadback
  split
  · exact .refl _
  · split
    · split
      · exact announced_endReadback ..
      · exact .refl _
    · exact .refl _

theorem announced_failReadback (n : Nat) (s : State) : Announced s.hlc (failReadback n s).hlc := by
  unfold failReadback
  split
  · exact .refl _
  · split
    · exact announced_endReadback ..
    · exact .refl _

/-! ### The talks -/

theorem announced_endTalks (ids : List Nat) (s : State) : Announced s.hlc (endTalks ids s).hlc := by
  unfold endTalks
  split
  · exact announced_handled s s (removeTalks ids s)
  · exact .refl _

theorem announced_createTalk (t : Talk) (s : State) : Announced s.hlc (createTalk t s).hlc := by
  have entered : (resolveAgain (fun y => y.toIfb || y.id == t.id) (enterArbitration t (joinTalk t s))).hlc = s.hlc := by simp
  exact (Announced.of_eq entered).trans (announced_handled s s _)

theorem announced_writeIfb (n : Nat) (v : Option Ifb) (s : State) : Announced s.hlc (writeIfb n v s).hlc :=
  announced_handled s s (resolveAgain Talk.toIfb { s with tc := { s.tc with ifbs := match v with | some i => s.tc.ifbs.put n i | none => s.tc.ifbs.erase n } })

theorem announced_cameraChange (c : Nat) (doms : List Domain) (s : State) : Announced s.hlc (cameraChange c doms s).hlc := by
  have forced : ∀ (x : State) (t : Talk), Announced x.hlc (forcedEnding t x).hlc := fun x t => by
    unfold forcedEnding
    split
    · next p k _ => exact (Announced.of_eq (loseTalk_hlc p k x)).trans (announced_keyRefusal p k _ _)
    · exact .refl _
  have resolved : ∀ (b : Bool) (ids : List Nat) f, (resolveAgain f (if b = true then recount doms s else removeTalks ids (recount doms s))).hlc = s.hlc :=
    fun b ids f => by split <;> rfl
  have handed : ∀ (p : Prop) [Decidable p] (b x : State), Announced x.hlc (if p then x else handling b x).hlc := fun p _ b x => by
    split
    · exact .refl _
    · exact announced_handling b x
  unfold cameraChange
  exact (((Announced.of_eq (resolved _ _ _)).trans (handed _ s _)).trans (announced_interrupters s _)).trans (announced_foldl forced _ _)

/-! ### The panels and their keys -/

theorem announced_dropPanel (p : Nat) (s : State) : Announced s.hlc (staleBridge p (dropPanelCalls p (dropPanelTalks p s))).hlc := by
  rw [staleBridge_hlc, dropPanelCalls_hlc]
  exact announced_endTalks _ s

theorem announced_losePanel (p : Nat) (v : Panel) (s : State) : Announced s.hlc (losePanel p v s).hlc :=
  (announced_dropPanel p ((s.setPanel p { v with state := .lost, missed := 0, page := false }).setContext p Context.start)).trans
    (announced_panelStateChanged _)

theorem announced_removePanel (p : Nat) (v : Panel) (s : State) : Announced s.hlc (removePanel p v s).hlc := by
  have cleared : ∀ b, (dropHeld p ((clearProtects p { s with pbc := b }).setContext p Context.start)).hlc = s.hlc := fun b => by simp
  have dropped := fun b => (Announced.of_eq (cleared b)).trans (announced_dropPanel p _)
  unfold removePanel
  dsimp only
  split
  · exact dropped _
  · exact (dropped _).trans (announced_panelStateChanged _)

theorem announced_transfer (s : State) : Announced s.hlc (transfer s).hlc := by
  unfold transfer
  dsimp only
  split
  · exact announced_panelStateChanged { s with pbc := _ }
  · exact .refl _

theorem announced_countError (p : Nat) (k : ErrorKind) (s : State) : Announced s.hlc (countError p k s).hlc := by
  unfold countError
  split
  · exact .refl _
  · split
    · exact announced_raiseIf .countSaturated (s.setPanel p _)
    · exact .refl _

theorem announced_missPoll (p : Nat) (s : State) : Announced s.hlc (missPoll p s).hlc := by
  unfold missPoll
  split
  · exact .refl _
  · split
    · exact announced_losePanel ..
    · exact .refl _

theorem announced_takeReply (p : Nat) (b : Bool) (x : List PanelAction) (es : List (Nat × Lamp)) (s : State) :
    Announced s.hlc (takeReply p b x es s).hlc := by
  unfold takeReply
  split
  · exact .refl _
  · next v _ =>
    refine (Announced.of_eq (takeEvents_hlc p v b x s)).trans ?_
    unfold answeredPoll
    split
    · exact .refl _
    · dsimp only
      split
      · exact announced_panelStateChanged (State.setPanel _ p _)
      · exact .refl _

theorem announced_takeIdent (p : Nat) (x k : PanelKind) (n : Nat) (b : Bool) (s : State) :
    Announced s.hlc (takeIdent p x k n b s).hlc := by
  unfold takeIdent
  split
  · exact .refl _
  · split
    · exact announced_panelStateChanged (dropHeld p (s.setPanel p _))
    · exact announced_countError ..

theorem announced_outcome (t : Transaction) (j : BusJudgement) (s : State) : Announced s.hlc (outcome t j s).hlc := by
  have missed := fun k => (announced_countError t.panel k s).trans (announced_missPoll t.panel _)
  unfold outcome
  split
  · exact .refl _
  · exact announced_countError ..
  · exact announced_takeIdent ..
  · exact announced_countError ..
  · exact missed _
  · exact missed _
  · exact announced_takeReply ..
  · exact missed _

theorem announced_endTransaction (j : Transaction → State → BusJudgement) (s : State) : Announced s.hlc (endTransaction j s).hlc := by
  unfold endTransaction
  split
  · exact .refl _
  · next t _ =>
    dsimp only
    split
    · exact .refl _
    · exact announced_outcome t _ { s with pbc := { s.pbc with transaction := none } }

theorem announced_restartPanels (s : State) : Announced s.hlc (restartPanels s).hlc := by
  unfold restartPanels
  extract_lets changed dispatcher s1 s2 s3
  have ended : Announced s.hlc s2.hlc := by
    have still : s2.hlc = (endTalks (s1.talkIds Talk.ofAnyPanel) s1).hlc := by
      rw [staleAllBridges_hlc, dropAllCalls_hlc, idleAllKeys_hlc]
    rw [still]; exact announced_endTalks _ s1
  have reported : Announced s2.hlc s3.hlc := by
    have : s3.hlc = (if changed = true then panelStateChanged s2 else evaluatePanelErrors s2).hlc := relamp_hlc _
    rw [this]
    split
    · exact announced_panelStateChanged s2
    · exact announced_evaluatePanelErrors s2
  split <;> exact ended.trans reported

theorem announced_restartTalk (s : State) : Announced s.hlc (restartTalk s).hlc :=
  announced_endTalks _ { s with fd := { s.fd with contexts := ⟨[]⟩ } }

theorem announced_applyBusState (p b i : Nat) (s : State) : Announced s.hlc (applyBusState p b i s).hlc := by
  unfold applyBusState
  split
  · exact .refl _
  · split
    · exact announced_recomputeTally (s.setMixer _ _)
    · exact .refl _

theorem announced_offerSystemKey (e : SystemKeyEntry) (s : State) : Announced s.hlc (offerSystemKey e s).hlc := by
  have offered : ∀ (c : Prop) [Decidable c] fd, (if c then { s with fd := fd } else s).hlc = s.hlc := fun c _ fd => by split <;> rfl
  exact (Announced.of_eq (offered _ _)).trans (announced_raise .systemKey _)

end Sys2Proof.Machine

/-! The order and the bounds of the host link (R183 to R188), which every step keeps. -/

namespace Sys2Proof.Machine

/-- How many messages of a class wait on a link. -/
def HostLink.waitingOf (c : MessageClass) (h : HostLink) : Nat := count (fun m => m.cls == c) h.outbound

/-- R183 to R188: what of the order and the bounds of the link is seen in the link alone. -/
structure HostLink.Sound (h : HostLink) : Prop where
  replies : h.executed.length = h.waitingOf .reply
  requests : h.executed.length + h.waiting.length ≤ 8
  overflow : h.waitingOf .overflow ≤ 7
  limit : h.owed ≤ 64
  restart : h.waitingOf .restartReply ≤ 1
  flagsOnce : h.waitingOf .eventFlags ≤ 1
  enabled : ∀ f : Flag, h.set.getLsbD f.number = true → h.enabled.getLsbD f.number = true
  carried : (∃ f : Flag, h.set.getLsbD f.number = true) → (h.outbound.any fun m => m.cls == .eventFlags) = true

/-- R183 to R188: the link is in order while `n` deferred replies are on their way to it. -/
structure LinkOwing (n : Nat) (s : State) : Prop where
  sound : s.hlc.Sound
  owed : s.hlc.owed = s.hlc.waitingOf .deferred + s.rc.owes + n
  single : ∀ g ∈ s.rc.queue, g.firing = none → g.entries.length = 1

theorem linkOrdered_iff (s : State) : LinkOrdered s ↔ (s.hlc.sending = none → s.hlc.outbound = []) ∧ LinkOwing 0 s := by
  constructor
  · intro h
    exact ⟨h.idle, ⟨h.replies, h.requests, h.overflow, h.owed.2, h.restart, h.flagsOnce, h.enabled, h.carried⟩, h.owed.1, h.single⟩
  · rintro ⟨idle, sound, owed, single⟩
    exact ⟨idle, sound.replies, sound.requests, sound.overflow, ⟨owed, sound.limit⟩, single, sound.restart, sound.flagsOnce,
      sound.enabled, sound.carried⟩

/-! ### Messages that join and leave -/

theorem waitingOf_append (c : MessageClass) (h : HostLink) (m : Message) :
    ({ h with outbound := h.outbound ++ [m] } : HostLink).waitingOf c = h.waitingOf c + if m.cls = c then 1 else 0 := by
  unfold HostLink.waitingOf count
  rw [List.filter_append, List.length_append]
  by_cases e : m.cls = c <;> simp [e]

theorem waitingOf_cons (c : MessageClass) (h : HostLink) (m : Message) (rest : List Message) (eq : h.outbound = m :: rest) :
    h.waitingOf c = (if m.cls = c then 1 else 0) + ({ h with outbound := rest } : HostLink).waitingOf c := by
  unfold HostLink.waitingOf count
  rw [eq, List.filter_cons]
  by_cases e : m.cls = c
  · simp [e, Nat.add_comm]
  · simp [e]

theorem no_flagsMessage {h : HostLink} (none_waits : ¬(h.outbound.any fun m => m.cls == .eventFlags) = true) :
    h.waitingOf .eventFlags = 0 := by
  rw [HostLink.waitingOf, count, List.length_eq_zero_iff, List.filter_eq_nil_iff]
  intro m hm flags
  exact none_waits (List.any_eq_true.2 ⟨m, hm, flags⟩)

theorem Flag.number_lt (f : Flag) : f.number < 16 := by cases f <;> decide

theorem set_bit (v : BitVec 16) (f : Flag) (i : Nat) : (v ||| (1#16 <<< f.number)).getLsbD i = (v.getLsbD i || decide (i = f.number)) := by
  have := f.number_lt
  simp only [BitVec.getLsbD_or, BitVec.getLsbD_shiftLeft, BitVec.getLsbD_one]
  by_cases e : i = f.number
  · subst e; simp [this]
  · have : ¬(f.number ≤ i ∧ i - f.number = 0) := by omega
    by_cases lt : i < f.number
    · simp [lt, e]
    · have : i - f.number ≠ 0 := by omega
      simp [e, this]

/-- R187, R188: what raising a flag does to the messages that wait. -/
theorem HostLink.raised_cases (f : Flag) (h : HostLink) : h.raised f = h ∨
    (h.enabled.getLsbD f.number = true ∧ (h.outbound.any fun m => m.cls == .eventFlags) = true ∧
      h.raised f = { h with set := h.set ||| (1#16 <<< f.number) }) ∨
    (h.enabled.getLsbD f.number = true ∧ ¬(h.outbound.any fun m => m.cls == .eventFlags) = true ∧
      h.raised f = { h with set := h.set ||| (1#16 <<< f.number), outbound := h.outbound ++ [flagsMessage] }) := by
  unfold HostLink.raised
  split
  · next enabled =>
    have enabled := (Bool.and_eq_true _ _ ▸ enabled).1
    split
    · next waits => exact .inr (.inl ⟨enabled, waits, rfl⟩)
    · next none_waits => exact .inr (.inr ⟨enabled, none_waits, rfl⟩)
  · exact .inl rfl

theorem HostLink.Sound.raised {h : HostLink} (hs : h.Sound) (f : Flag) : (h.raised f).Sound := by
  have bits : h.enabled.getLsbD f.number = true → ∀ g : Flag,
      (h.set ||| (1#16 <<< f.number)).getLsbD g.number = true → h.enabled.getLsbD g.number = true := fun enabled g set => by
    rw [set_bit, Bool.or_eq_true, decide_eq_true_eq] at set
    rcases set with set | same
    · exact hs.enabled g set
    · rw [same]; exact enabled
  rcases HostLink.raised_cases f h with e | ⟨enabled, waits, e⟩ | ⟨enabled, none_waits, e⟩ <;> rw [e]
  · exact hs
  · exact ⟨hs.replies, hs.requests, hs.overflow, hs.limit, hs.restart, hs.flagsOnce, bits enabled, fun _ => waits⟩
  · have others : ∀ c, c ≠ .eventFlags → ({ h with set := h.set ||| (1#16 <<< f.number), outbound := h.outbound ++ [flagsMessage] } :
        HostLink).waitingOf c = h.waitingOf c := fun c ne =>
      (waitingOf_append c h flagsMessage).trans (by rw [show flagsMessage.cls = .eventFlags from rfl, if_neg (Ne.symm ne), Nat.add_zero])
    have flags : ({ h with set := h.set ||| (1#16 <<< f.number), outbound := h.outbound ++ [flagsMessage] } :
        HostLink).waitingOf .eventFlags = h.waitingOf .eventFlags + 1 := waitingOf_append .eventFlags h flagsMessage
    refine ⟨?_, hs.requests, ?_, hs.limit, ?_, ?_, bits enabled, fun _ => by simp [flagsMessage]⟩
    · rw [others _ (by decide)]; exact hs.replies
    · rw [others _ (by decide)]; exact hs.overflow
    · rw [others _ (by decide)]; exact hs.restart
    · rw [flags, no_flagsMessage none_waits]

theorem raised_deferred (f : Flag) (h : HostLink) : (h.raised f).waitingOf .deferred = h.waitingOf .deferred ∧ (h.raised f).owed = h.owed := by
  rcases HostLink.raised_cases f h with e | ⟨-, -, e⟩ | ⟨-, -, e⟩ <;> rw [e]
  · exact ⟨rfl, rfl⟩
  · exact ⟨rfl, rfl⟩
  · exact ⟨waitingOf_append .deferred h flagsMessage, rfl⟩

theorem Announced.sound {h k : HostLink} (e : Announced h k) (hs : h.Sound) : k.Sound := by
  obtain ⟨gs, rfl⟩ := e
  induction gs generalizing h with
  | nil => exact hs
  | cons g gs ih => exact ih (hs.raised g)

theorem Announced.deferred {h k : HostLink} (e : Announced h k) : k.waitingOf .deferred = h.waitingOf .deferred ∧ k.owed = h.owed := by
  obtain ⟨gs, rfl⟩ := e
  induction gs generalizing h with
  | nil => exact ⟨rfl, rfl⟩
  | cons g gs ih =>
    obtain ⟨waits, owed⟩ := @ih (h.raised g)
    obtain ⟨waits', owed'⟩ := raised_deferred g h
    exact ⟨waits.trans waits', owed.trans owed'⟩

/-- R183, R185: an executed request whose reply waits. -/
theorem HostLink.Sound.replied {h : HostLink} (hs : h.Sound) (room : h.executed.length + h.waiting.length < 8) (r : Request)
    (c : ReplyCode) (d : List Byte) : (h.replied r c d).Sound := by
  have waits : ∀ k, (h.replied r c d).waitingOf k = h.waitingOf k + if MessageClass.reply = k then 1 else 0 :=
    fun k => waitingOf_append k h (replyTo r c d)
  refine ⟨?_, ?_, ?_, hs.limit, ?_, ?_, hs.enabled, fun set => ?_⟩
  · rw [waits, ← hs.replies]; simp [HostLink.replied]
  · simp only [HostLink.replied, List.length_append, List.length_singleton]; omega
  · rw [waits]; exact hs.overflow
  · rw [waits]; exact hs.restart
  · rw [waits]; exact hs.flagsOnce
  · have := hs.carried set
    simp only [HostLink.replied, List.any_append, this, Bool.true_or]

/-- R185: a deferred reply that waits. -/
theorem HostLink.Sound.deferred {h : HostLink} (hs : h.Sound) (m : Message) (cls : m.cls = .deferred) :
    ({ h with outbound := h.outbound ++ [m] } : HostLink).Sound := by
  have waits : ∀ k, k ≠ .deferred → ({ h with outbound := h.outbound ++ [m] } : HostLink).waitingOf k = h.waitingOf k := fun k ne => by
    rw [waitingOf_append, cls, if_neg (Ne.symm ne), Nat.add_zero]
  refine ⟨?_, hs.requests, ?_, hs.limit, ?_, ?_, hs.enabled, fun set => ?_⟩
  · rw [waits _ (by decide)]; exact hs.replies
  · rw [waits _ (by decide)]; exact hs.overflow
  · rw [waits _ (by decide)]; exact hs.restart
  · rw [waits _ (by decide)]; exact hs.flagsOnce
  · have := hs.carried set
    simp only [List.any_append, this, Bool.true_or]

/-! ### The transmitter -/

/-- R186, R188: the start of the oldest message keeps the order of the link. -/
theorem HostLink.Sound.started {h : HostLink} (hs : h.Sound) {m : Message} {rest : List Message} (eq : h.outbound = m :: rest) :
    (startMessage m { h with outbound := rest }).Sound := by
  have waits := fun c => waitingOf_cons c h m rest eq
  have replies := hs.replies
  have requests := hs.requests
  have overflow := hs.overflow
  have restart := hs.restart
  have flagsOnce := hs.flagsOnce
  have limit := hs.limit
  rw [waits] at replies overflow restart flagsOnce
  have carried : m.cls ≠ .eventFlags → (∃ f : Flag, h.set.getLsbD f.number = true) → (rest.any fun m => m.cls == .eventFlags) = true :=
    fun ne set => by simpa [eq, ne] using hs.carried set
  unfold startMessage
  split <;> rename_i cls <;>
    simp only [cls, if_true, if_false, reduceCtorEq, Nat.zero_add] at replies overflow restart flagsOnce
  case h_1 =>
    refine ⟨?_, ?_, overflow, limit, restart, flagsOnce, hs.enabled, carried (by rw [cls]; decide)⟩
    · simp only [List.length_drop, replies, Nat.add_sub_cancel_left]; rfl
    · simp only [List.length_drop]; omega
  case h_2 =>
    exact ⟨replies, requests, overflow, limit, (Nat.le_add_left _ _).trans restart, flagsOnce, hs.enabled, carried (by rw [cls]; decide)⟩
  case h_3 =>
    exact ⟨replies, requests, overflow, (Nat.sub_le _ _).trans limit, restart, flagsOnce, hs.enabled, carried (by rw [cls]; decide)⟩
  case h_4 =>
    exact ⟨replies, requests, (Nat.le_add_left _ _).trans overflow, limit, restart, flagsOnce, hs.enabled, carried (by rw [cls]; decide)⟩
  case h_5 =>
    exact ⟨replies, requests, overflow, limit, restart, (Nat.le_add_left _ _).trans flagsOnce, fun f set => by simp at set,
      fun ⟨f, set⟩ => by simp at set⟩

/-- R186: after the transmitter is looked at, the link is in order and nothing waits on an idle one. -/
theorem linkOrdered_transmit {s : State} (hs : LinkOwing 0 s) : LinkOrdered (transmit s) := by
  refine (linkOrdered_iff _).2 ?_
  unfold transmit
  split
  · next m rest idle eq =>
    refine ⟨fun ends => ?_, hs.sound.started eq, ?_, hs.single⟩
    · unfold startMessage at ends; split at ends <;> cases ends
    · have owed := hs.owed
      rw [waitingOf_cons _ _ m rest eq] at owed
      show (startMessage m { s.hlc with outbound := rest }).owed = (startMessage m { s.hlc with outbound := rest }).waitingOf .deferred + s.rc.owes + 0
      have waits : (startMessage m { s.hlc with outbound := rest }).waitingOf .deferred = ({ s.hlc with outbound := rest } : HostLink).waitingOf .deferred := by
        unfold startMessage; split <;> rfl
      rw [waits]
      unfold startMessage
      split <;> rename_i cls <;> simp only [cls, if_true, if_false, reduceCtorEq] at owed <;> dsimp only <;> omega
  · next other =>
    refine ⟨fun idle => ?_, hs⟩
    cases waits : s.hlc.outbound with
    | nil => rfl
    | cons m rest => exact absurd waits (other m rest idle)

/-! ### What leaves the account of the owed replies -/

/-- R185: the account of the owed replies reads the take queue and the open window. -/
theorem owes_congr {r r' : RouteController} (queue : r'.queue = r.queue) (window : r'.window = r.window) : r'.owes = r.owes := by
  unfold RouteController.owes; rw [queue, window]

theorem LinkOwing.announced {n : Nat} {s t : State} (hs : LinkOwing n s) (queue : t.rc.queue = s.rc.queue)
    (window : t.rc.window = s.rc.window) (link : Announced s.hlc t.hlc) : LinkOwing n t := by
  obtain ⟨waits, owed⟩ := link.deferred
  exact ⟨link.sound hs.sound, by rw [owed, waits, owes_congr queue window, hs.owed], by rw [queue]; exact hs.single⟩

theorem LinkOwing.takes {n : Nat} {s t : State} (hs : LinkOwing n s) (takes : t.takes = s.takes) (link : Announced s.hlc t.hlc) :
    LinkOwing n t := by
  simp only [State.takes, Prod.mk.injEq] at takes
  exact hs.announced takes.1 takes.2.1 link

/-- R185: a deferred reply reaches the link. -/
theorem LinkOwing.issued {n : Nat} {s : State} (hs : LinkOwing (n + 1) s) (tag : Byte) (c : ReplyCode) (d : List Byte) :
    LinkOwing n (issueDeferred tag c d s) := by
  refine ⟨hs.sound.deferred _ rfl, ?_, hs.single⟩
  have owed := hs.owed
  have waits : (issueDeferred tag c d s).hlc.waitingOf .deferred = s.hlc.waitingOf .deferred + 1 := waitingOf_append ..
  show s.hlc.owed = (issueDeferred tag c d s).hlc.waitingOf .deferred + s.rc.owes + n
  rw [waits]; omega

theorem LinkOwing.endFiring {n : Nat} {s : State} {f : Firing} (hs : LinkOwing (TakeGroup.owes ⟨some f, []⟩ + n) s) :
    LinkOwing n (endFiring f s) := by
  unfold Machine.endFiring
  unfold TakeGroup.owes at hs
  cases h : f.origin <;> simp only [h] at hs ⊢
  · exact LinkOwing.issued (by rwa [Nat.add_comm] at hs) _ _ _
  · rw [Nat.zero_add] at hs
    exact hs.takes rfl (.refl _)

end Sys2Proof.Machine

/-! Every command keeps the order and the bounds of the host link. -/

namespace Sys2Proof.Machine

/-! ### What each group owes -/

/-- R185: how many deferred replies a pending single take owes to the host. -/
def Entry.owes (e : Entry) : Nat :=
  match e.origin with
  | .system _ => 1
  | .panel _ _ => 0

theorem owes_entries (es : List Entry) : TakeGroup.owes ⟨none, es⟩ = (es.map Entry.owes).sum := by
  unfold TakeGroup.owes count
  dsimp only
  induction es with
  | nil => rfl
  | cons e es ih =>
    rw [List.filter_cons, List.map_cons, List.sum_cons, ← ih]
    unfold Entry.owes
    cases e.origin <;> simp [Nat.add_comm]

theorem owes_firing (f : Firing) (es : List Entry) : TakeGroup.owes ⟨some f, es⟩ = TakeGroup.owes ⟨some f, []⟩ := rfl

/-! ### The close and the opening of a window -/

theorem LinkOwing.reportTake {n : Nat} {s : State} {x : Drawn} (ws : List Write) (hs : LinkOwing (x.entry.owes + n) s) :
    LinkOwing n (reportTake ws s x) := by
  unfold Machine.reportTake
  unfold Entry.owes at hs
  cases origin : x.entry.origin with
  | system tag =>
    rw [origin, Nat.add_comm] at hs
    cases outcomeOf ws x <;> exact hs.issued ..
  | panel p k =>
    rw [origin, Nat.zero_add] at hs
    cases outcomeOf ws x with
    | refused why => exact hs.takes (State.takes_of_rc (keyRefusal_rc p k why s)) (announced_keyRefusal p k why s)
    | done | fabricFault => exact hs

theorem LinkOwing.reportTakes {n : Nat} (ws : List Write) (xs : List Drawn) {s : State}
    (hs : LinkOwing ((xs.map fun x => x.entry.owes).sum + n) s) : LinkOwing n (xs.foldl (Machine.reportTake ws) s) := by
  induction xs generalizing s with
  | nil => rwa [List.map_nil, List.sum_nil, Nat.zero_add] at hs
  | cons x xs ih =>
    rw [List.map_cons, List.sum_cons, Nat.add_assoc] at hs
    exact ih (hs.reportTake ws)

theorem LinkOwing.reportGroup {n : Nat} {s : State} {g : DrawnGroup} (ws : List Write) (hs : LinkOwing (g.owes + n) s) :
    LinkOwing n (reportGroup ws s g) := by
  unfold Machine.reportGroup
  unfold DrawnGroup.owes at hs
  split
  · next single =>
    rw [single, owes_entries, List.map_map] at hs
    exact LinkOwing.reportTakes ws _ hs
  · next f firing =>
    rw [firing, owes_firing] at hs
    exact LinkOwing.endFiring hs

theorem LinkOwing.reportGroups {n : Nat} (ws : List Write) (gs : List DrawnGroup) {s : State}
    (hs : LinkOwing ((gs.map DrawnGroup.owes).sum + n) s) : LinkOwing n (gs.foldl (Machine.reportGroup ws) s) := by
  induction gs generalizing s with
  | nil => rwa [List.map_nil, List.sum_nil, Nat.zero_add] at hs
  | cons g gs ih =>
    rw [List.map_cons, List.sum_cons, Nat.add_assoc] at hs
    exact ih (hs.reportGroup ws)

/-- R39, R41, R185: the close of a window issues every deferred reply that its groups owe. -/
theorem linkOwing_closeWindow {s : State} {w v : Window} (hs : LinkOwing 0 s) (window : s.rc.window = some v)
    (groups : w.groups = v.groups) : LinkOwing 0 (closeWindow w s) := by
  have written : LinkOwing 0 (w.writes.foldl applyWrite s) :=
    hs.takes (foldl_takes _ takes_applyWrite _ _) (.of_eq (foldl_keeps _ State.hlc applyWrite_hlc _ _))
  have evaluated : LinkOwing 0 (evaluateFabric (w.writes.foldl applyWrite s)) :=
    written.takes (takes_evaluateFabric _) (announced_evaluateFabric _)
  have open_still : (evaluateFabric (w.writes.foldl applyWrite s)).rc.window = some v := by
    have takes := (takes_evaluateFabric (w.writes.foldl applyWrite s)).trans (foldl_takes _ takes_applyWrite _ _)
    exact (congrArg (fun x => x.2.1) takes).trans window
  unfold closeWindow
  extract_lets s1 s2 router s3 changed
  have closed : LinkOwing ((w.groups.map DrawnGroup.owes).sum + 0) { s2 with rc := { s2.rc with window := none } } := by
    refine ⟨evaluated.sound, evaluated.owed.trans ?_, evaluated.single⟩
    unfold RouteController.owes
    rw [open_still, groups]
    simp only [Nat.add_assoc, Nat.add_zero, s2]
    rfl
  have reported : LinkOwing 0 s3 := closed.reportGroups w.writes w.groups
  have followed : LinkOwing 0 (if changed = true then routeChange s3 else relamp s3) :=
    ite_keeps (fun _ => reported.takes (takes_routeChange s3) (announced_routeChange s3)) fun _ => reported.takes rfl (.refl _)
  exact followed.takes (takes_beginExchanges _) (.of_eq (beginExchanges_hlc _))

theorem owes_draw (s : State) (g : TakeGroup) : (s.draw g).owes = g.owes := by
  have entries : (g.entries.map s.recheck).map (fun x => x.entry) = g.entries := by
    rw [List.map_map]
    refine (List.map_congr_left fun e _ => ?_).trans (List.map_id _)
    show (s.recheck e).entry = e
    unfold State.recheck
    (repeat' split) <;> rfl
  unfold DrawnGroup.owes State.draw
  rw [entries]

/-- R36: the groups that a window draws owe the same replies. -/
theorem linkOwing_openWindow {s : State} (hs : LinkOwing 0 s) (closed : s.rc.window = none) : LinkOwing 0 (openWindow s) := by
  obtain ⟨drawn, rest, split, eq, -⟩ := drain_split s 0 s.rc.queue (Nat.zero_le _)
  have opened : LinkOwing 0 { s with rc := { s.rc with
      queue := rest
      window := some ⟨s.rc.windows + 1, drawn.map s.draw, (drawn.map s.draw).flatMap s.writesOf⟩
      windows := s.rc.windows + 1 } } := by
    refine ⟨hs.sound, hs.owed.trans ?_, fun g hg => hs.single g (split ▸ List.mem_append_right _ hg)⟩
    have drawn_owes : ((drawn.map s.draw).map DrawnGroup.owes).sum = (drawn.map TakeGroup.owes).sum := by
      rw [List.map_map]; congr 1; exact List.map_congr_left fun g _ => owes_draw s g
    unfold RouteController.owes
    rw [closed, split, List.map_append, List.sum_append]
    simp only [drawn_owes]
    omega
  unfold openWindow
  dsimp only
  rw [eq]
  split
  · exact linkOwing_closeWindow opened rfl rfl
  · exact opened

theorem linkOwing_switchPoint {s : State} (hs : LinkOwing 0 s) : LinkOwing 0 (switchPoint s) := by
  unfold switchPoint
  split
  · exact hs
  · next closed =>
    split
    · exact hs
    · exact linkOwing_openWindow hs closed

theorem linkOwing_takeAnswer {s : State} (n d : Nat) (l : Level) (a : Bool) (hs : LinkOwing 0 s) :
    LinkOwing 0 (takeAnswer n d l a s) := by
  unfold takeAnswer
  split
  · exact hs
  · next w window =>
    split
    · refine ite_keeps (P := LinkOwing 0) (fun _ => ?_) fun _ => linkOwing_closeWindow hs window rfl
      refine ⟨hs.sound, hs.owed.trans ?_, hs.single⟩
      unfold RouteController.owes
      rw [window]
    · exact hs

theorem linkOwing_expireWindow {s : State} (hs : LinkOwing 0 s) : LinkOwing 0 (expireWindow s) := by
  unfold expireWindow
  split
  · exact hs
  · next w window => exact linkOwing_closeWindow hs window rfl

/-! ### Supersession and acceptance -/

/-- R25, R185: a group that supersession empties issues the replies that it owes. -/
theorem LinkOwing.endSuperseded {n d : Nat} {mask : LevelMask} {s : State} {g : TakeGroup} (hs : LinkOwing (g.owes + n) s)
    (single : g.firing = none → g.entries.length = 1) : LinkOwing n (endSuperseded g (g.strip d mask) s) := by
  obtain ⟨firing, entries⟩ := g
  unfold Machine.endSuperseded TakeGroup.strip
  cases firing with
  | some f => exact LinkOwing.endFiring hs
  | none =>
    obtain ⟨e, rfl⟩ := List.length_eq_one_iff.1 (single rfl)
    rw [owes_entries] at hs
    have hs : LinkOwing (e.owes + n) s := hs
    unfold Entry.owes at hs
    cases origin : e.origin <;> rw [origin] at hs <;> simp only [Option.map_none, origin]
    · rw [Nat.add_comm] at hs; exact hs.issued ..
    · rwa [Nat.zero_add] at hs

theorem LinkOwing.endAll {n d : Nat} {mask : LevelMask} (gs : List TakeGroup) {s : State}
    (hs : LinkOwing ((gs.map TakeGroup.owes).sum + n) s) (single : ∀ g ∈ gs, g.firing = none → g.entries.length = 1) :
    LinkOwing n (gs.foldl (fun x g => Machine.endSuperseded g (g.strip d mask) x) s) := by
  induction gs generalizing s with
  | nil => rwa [List.map_nil, List.sum_nil, Nat.zero_add] at hs
  | cons g gs ih =>
    rw [List.map_cons, List.sum_cons, Nat.add_assoc] at hs
    exact ih (hs.endSuperseded (single g (.head _))) fun h hh => single h (.tail _ hh)

/-- R25: a group that keeps an entry owes the same replies and stays single. -/
theorem owes_strip {d : Nat} {mask : LevelMask} {g : TakeGroup} (single : g.firing = none → g.entries.length = 1)
    (left : (g.strip d mask).entries ≠ []) :
    (g.strip d mask).owes = g.owes ∧ ((g.strip d mask).firing = none → (g.strip d mask).entries.length = 1) := by
  obtain ⟨firing, entries⟩ := g
  cases firing with
  | some f => exact ⟨rfl, nofun⟩
  | none =>
    obtain ⟨e, rfl⟩ := List.length_eq_one_iff.1 (single rfl)
    have kept : (TakeGroup.strip d mask ⟨none, [e]⟩).entries = [e.strip d mask] := by
      unfold TakeGroup.strip stripEntries at left ⊢
      by_cases empty : (e.strip d mask).mask.isEmpty = true
      · simp [empty] at left
      · simp [empty]
    have origin : (e.strip d mask).origin = e.origin := by unfold Entry.strip; split <;> rfl
    refine ⟨?_, fun _ => by rw [kept]; rfl⟩
    have shape : TakeGroup.strip d mask ⟨none, [e]⟩ = ⟨none, [e.strip d mask]⟩ := by
      rw [← kept]; rfl
    rw [shape, owes_entries, owes_entries]
    simp [Entry.owes, origin]

theorem linkOwing_supersede {s : State} (d : Nat) (mask : LevelMask) (hs : LinkOwing 0 s) : LinkOwing 0 (supersede d mask s) := by
  have conserved : ∀ gs : List TakeGroup, (∀ g ∈ gs, g.firing = none → g.entries.length = 1) →
      (gs.map TakeGroup.owes).sum =
        (((gs.map (TakeGroup.strip d mask)).filter fun g => !g.entries.isEmpty).map TakeGroup.owes).sum +
          ((gs.filter fun g => (g.strip d mask).entries.isEmpty).map TakeGroup.owes).sum := by
    intro gs single
    induction gs with
    | nil => rfl
    | cons g gs ih =>
      have rest := ih fun h hh => single h (.tail _ hh)
      by_cases empty : (g.strip d mask).entries.isEmpty = true
      · simp only [List.map_cons, List.filter_cons, empty, Bool.not_true, Bool.false_eq_true, if_false, if_true, List.sum_cons, rest]
        omega
      · have same := (owes_strip (d := d) (mask := mask) (single g (.head _)) (by simpa using empty)).1
        simp only [List.map_cons, List.filter_cons, empty, Bool.not_false, Bool.false_eq_true, if_false, if_true, List.sum_cons, rest, same]
        omega
  refine LinkOwing.endAll (n := 0) _ ⟨hs.sound, hs.owed.trans ?_, fun g hg none => ?_⟩ fun g hg => hs.single g (List.mem_filter.1 hg).1
  · unfold RouteController.owes
    rw [conserved _ hs.single]
    dsimp only
    omega
  · obtain ⟨stripped, left⟩ := List.mem_filter.1 hg
    obtain ⟨x, hx, rfl⟩ := List.mem_map.1 stripped
    exact (owes_strip (hs.single x hx) (by simpa using left)).2 none

theorem linkOwing_acceptEntries {s : State} (es own : List Entry) (hs : LinkOwing 0 s) : LinkOwing 0 (acceptEntries es own s).2 := by
  induction es generalizing own s with
  | nil => exact hs
  | cons e es ih => exact ih _ (linkOwing_supersede e.dest e.mask hs)

theorem joinQueue_owes (g : TakeGroup) (s : State) : (joinQueue g s).rc.owes = s.rc.owes + g.owes := by
  unfold RouteController.owes joinQueue
  simp only [List.map_append, List.sum_append, List.map_cons, List.map_nil, List.sum_cons, List.sum_nil]
  omega

/-- R185: a group that owes nothing to the host joins the queue. -/
theorem LinkOwing.joined {s : State} {g : TakeGroup} (hs : LinkOwing 0 s) (owes : g.owes = 0)
    (single : g.firing = none → g.entries.length = 1) : LinkOwing 0 (joinQueue g s) := by
  refine ⟨hs.sound, by rw [joinQueue_owes, owes]; exact hs.owed, fun h hh none => ?_⟩
  rcases List.mem_append.1 hh with hh | hh
  · exact hs.single h hh none
  · rw [List.mem_singleton.1 hh] at none ⊢; exact single none

/-- R185: a group that owes one reply to the host joins the queue, and the reply is owed. -/
theorem LinkOwing.deferred {s : State} {g : TakeGroup} (hs : LinkOwing 0 s) (owes : g.owes = 1)
    (single : g.firing = none → g.entries.length = 1) (room : s.hlc.owed < 64) : LinkOwing 0 (deferReply (joinQueue g s)) := by
  obtain ⟨replies, requests, overflow, -, restart, flagsOnce, enabled, carried⟩ := hs.sound
  have account := hs.owed
  refine ⟨⟨replies, requests, overflow, room, restart, flagsOnce, enabled, carried⟩, ?_, fun h hh none => ?_⟩
  · show s.hlc.owed + 1 = s.hlc.waitingOf .deferred + (joinQueue g s).rc.owes + 0
    rw [joinQueue_owes]; omega
  · rcases List.mem_append.1 hh with hh | hh
    · exact hs.single h hh none
    · rw [List.mem_singleton.1 hh] at none ⊢; exact single none

/-- R22: a take that is accepted is its trimmed entry, behind the supersession. -/
theorem offerTake_joined {e : Entry} {s t : State} (h : offerTake e s = .ok t) :
    ∃ x, x.origin = e.origin ∧ t = joinQueue ⟨none, [x]⟩ (supersede x.dest x.mask s) := by
  unfold offerTake at h
  split at h
  · cases h
  · next x accepted =>
    split at h
    · cases h
    · cases h
      refine ⟨x, ?_, rfl⟩
      unfold State.checkEntry at accepted
      dsimp only at accepted
      (repeat' split at accepted) <;> cases accepted
      rfl

theorem fireSalvo_joined {n : Nat} {o : Origin} {force : Bool} {s t : State} (h : fireSalvo n o force s = .accepted t) :
    ∃ counts, t = joinQueue ⟨some ⟨o, n, counts⟩, (acceptEntries (s.passing n o force) [] s).1⟩
      (acceptEntries (s.passing n o force) [] s).2 := by
  unfold fireSalvo at h
  dsimp only at h
  split at h
  · cases h
  · split at h
    · cases h
    · injection h with h
      exact ⟨_, h.symm⟩

/-! ### Panels -/

theorem linkOwing_panelTake {s : State} (p k d : Nat) (m : LevelMask) (x : Nat) (hs : LinkOwing 0 s) :
    LinkOwing 0 (panelTake p k d m x s) := by
  unfold panelTake
  split
  · next t accepted =>
    obtain ⟨e, origin, rfl⟩ := offerTake_joined accepted
    refine (linkOwing_supersede e.dest e.mask hs).joined ?_ fun _ => rfl
    rw [owes_entries]; simp [Entry.owes, origin]
  · exact hs.takes (State.takes_of_rc (keyRefusal_rc ..)) (announced_keyRefusal ..)

theorem linkOwing_panelFiring {s : State} (p k n : Nat) (hs : LinkOwing 0 s) : LinkOwing 0 (panelFiring p k n s) := by
  unfold panelFiring
  split
  · exact hs.takes (State.takes_of_rc (keyRefusal_rc ..)) (announced_keyRefusal ..)
  · exact hs
  · next t accepted =>
    obtain ⟨counts, rfl⟩ := fireSalvo_joined accepted
    exact ((linkOwing_acceptEntries _ [] hs).joined rfl fun h => by cases h).takes rfl (.refl _)

theorem LinkOwing.refused {s t : State} {p k : Nat} {why : Reason} (hs : LinkOwing 0 s) (link : t.hlc = s.hlc) (takes : t.takes = s.takes) :
    LinkOwing 0 (keyRefusal p k why t) :=
  (hs.takes takes (.of_eq link)).takes (State.takes_of_rc (keyRefusal_rc ..)) (announced_keyRefusal ..)

theorem linkOwing_pressIdle {s : State} (p k : Nat) (target : Target) (mode : TalkMode) (level : Int) (priority : Nat)
    (hs : LinkOwing 0 s) : LinkOwing 0 (pressIdle p k target mode level priority s) := by
  unfold pressIdle
  split
  · exact hs
  · split
    · dsimp only
      split
      · have created := fun t => hs.takes (State.takes_of_rc (createTalk_rc t s)) (announced_createTalk t s)
        cases mode <;> exact (created _).takes rfl (.refl _)
      · exact hs.refused rfl rfl
      · exact hs
    · exact hs

theorem linkOwing_callPress {s : State} (p k c : Nat) (hs : LinkOwing 0 s) : LinkOwing 0 (callPress p k c s) := by
  unfold callPress
  split
  · exact hs
  · split
    · exact hs
    · split
      · exact hs.refused rfl rfl
      · exact hs.takes rfl (.refl _)

theorem linkOwing_panelToggle {s : State} (p k d : Nat) (hs : LinkOwing 0 s) : LinkOwing 0 (panelToggle p k d s) := by
  refine hs.takes (takes_panelToggle p k d s) ?_
  unfold panelToggle
  split
  · exact .refl _
  · exact announced_keyRefusal ..

theorem linkOwing_carryOut {s : State} (p k : Nat) (f : FunctionAction) (hs : LinkOwing 0 s) : LinkOwing 0 (carryOut p k f s) := by
  unfold carryOut
  split
  · exact linkOwing_panelTake p k _ _ _ hs
  · exact hs.takes rfl (.refl _)
  · exact hs.takes rfl (.refl _)
  · split
    · exact linkOwing_panelTake p k _ _ _ hs
    · exact hs.refused rfl rfl
  · exact linkOwing_panelFiring p k _ hs
  · exact linkOwing_panelToggle p k _ hs
  · split
    · exact linkOwing_panelToggle p k _ hs
    · exact hs.refused rfl rfl
  · exact linkOwing_pressIdle p k _ _ _ _ hs
  · exact linkOwing_callPress p k _ (hs.takes rfl (.refl _))
  · unfold togglePage; split
    · exact hs.takes rfl (.refl _)
    · exact hs
  · exact (hs.takes (t := s.setHeld p k _) rfl (.refl _)).takes (State.takes_of_rc (offerSystemKey_rc ..)) (announced_offerSystemKey ..)

theorem linkOwing_handlePress {s : State} (p k : Nat) (hs : LinkOwing 0 s) : LinkOwing 0 (handlePress p k s) := by
  unfold handlePress
  split
  · split
    · exact hs
    · split
      · exact ite_keeps (fun _ => hs.refused rfl rfl) fun _ => hs
      · refine ite_keeps (fun _ => linkOwing_carryOut p k _ hs) fun _ => ?_
        unfold handOnUncaptured
        split
        · exact linkOwing_pressIdle p k _ _ _ _ hs
        · exact linkOwing_callPress p k _ hs
        · exact hs
  · refine hs.takes (State.takes_of_rc (pressOwned_rc p k s)) ?_
    unfold pressOwned
    dsimp only
    split
    · exact announced_endTalks _ s
    · exact announced_endTalks _ s
    · exact .refl _

theorem announced_releaseOwned (p k : Nat) (s : State) : Announced s.hlc (releaseOwned p k s).hlc := by
  unfold releaseOwned
  dsimp only
  split
  case h_1 | h_5 => exact announced_endTalks _ s
  all_goals exact .refl _

theorem announced_handleRelease (p k : Nat) (s : State) : Announced s.hlc (handleRelease p k s).hlc := by
  unfold handleRelease
  split
  · split
    · exact .refl _
    · exact .of_eq (callRelease_hlc p k s)
    · exact announced_offerSystemKey _ s
  · exact announced_releaseOwned p k s

/-! ### The commands -/

/-- An operation that leaves the router and raises flags, followed by the lamps. -/
theorem LinkOwing.lit {s t : State} (hs : LinkOwing 0 s) (rc : t.rc = s.rc) (link : Announced s.hlc t.hlc) : LinkOwing 0 (relamp t) :=
  (hs.takes (State.takes_of_rc rc) link).takes rfl (.refl _)

/-- R185: an effect that is in balance keeps the order of the link. -/
theorem linkOwing_effect {s t : State} (h : Effect s true t) (hs : LinkOwing 0 s) : LinkOwing 0 t := by
  cases h with
  | restartPanels => exact hs.takes (State.takes_of_rc (by simp)) (announced_restartPanels s)
  | restartTalk => exact hs.takes (State.takes_of_rc (by simp)) (announced_restartTalk s)
  | mapDevice a => exact hs.takes (by simp) (.of_eq (mapDevice_hlc a.device a s))
  | retryDevice n v => exact hs.takes (by simp) (announced_evaluateFabric (s.setDevice n _))
  | completeReadback n x => exact hs.takes (by simp) (announced_completeReadback n x s)
  | failReadback n => exact hs.takes (by simp) (announced_failReadback n s)
  | storeSalvo n es => exact ⟨hs.sound, hs.owed, hs.single⟩
  | switchPoint v => exact linkOwing_switchPoint (hs.takes rfl (.refl _))
  | takeAnswer n d l a => exact linkOwing_takeAnswer n d l a hs
  | expireWindow => exact linkOwing_expireWindow hs
  | setRoot | selectBuses | setMaps | setTie | clearTie =>
    exact hs.lit (recomputeTally_rc _) (announced_recomputeTally { s with tt := _ })
  | setCamera c v =>
    exact hs.lit (by simp) (announced_cameraChange c _ (driveAll (writeCamera c v s)))
  | writeOutput n v => exact hs.takes (State.takes_of_rc (by simp)) (announced_evaluateLampFault (driveAll (s.setOutput n _)))
  | setFault n f => exact hs.takes (State.takes_of_rc (by simp)) (announced_evaluateLampFault (driveAll (s.setOutput n _)))
  | talkOn a =>
    exact hs.lit (by simp [endSlot]) ((announced_endTalks _ s).trans (announced_createTalk _ (endSlot a.slot s)))
  | endSlot slot => exact hs.lit (endTalks_rc _ s) (announced_endTalks _ s)
  | configureIfb n a => exact hs.lit (writeIfb_rc ..) (announced_writeIfb n _ s)
  | unconfigureIfb n => exact hs.lit (writeIfb_rc ..) (announced_writeIfb n none s)
  | removePanel p v => exact hs.takes (by simp) (announced_removePanel p v s)
  | transfer => exact hs.lit (by simp) (announced_transfer s)
  | endTransaction j => exact hs.takes (State.takes_of_rc (by simp)) (announced_endTransaction j s)
  | press p k es => exact (linkOwing_handlePress p k (s := s.withEvents es) (hs.takes rfl (.refl _))).takes rfl (.refl _)
  | release p k es => exact hs.lit (by simp; rfl) (announced_handleRelease p k (s.withEvents es))
  | busState p b i es => exact hs.lit (by simp; rfl) (announced_applyBusState p b i (s.withEvents es))
  | rewriteProtects f =>
    exact (hs.takes (takes_rewriteProtects f s) (.of_eq (rewriteProtects_hlc f s))).takes (takes_relamp _) (.of_eq (relamp_hlc _))
  | setDomain | setProtect => exact hs.takes (by simp [State.takes]) (.refl _)
  | _ => exact hs.takes (State.takes_of_rc (by simp <;> rfl)) (.of_eq (by simp <;> rfl))

/-- R190, R191: the start values of the link, with the reply of a RESTART(ALL) alone in its queue, are in order. -/
theorem linkOwing_start {t : State} (queue : t.rc.queue = []) (window : t.rc.window = none)
    (link : ∃ ms v, t.hlc = { HostLink.start with outbound := ms, sending := v } ∧
      (ms = [] ∨ ∃ m, ms = [m] ∧ m.cls = .restartReply)) : LinkOwing 0 t := by
  obtain ⟨ms, v, link, few⟩ := link
  have waits : ∀ c, t.hlc.waitingOf c ≤ 1 ∧ (c ≠ .restartReply → t.hlc.waitingOf c = 0) := fun c => by
    rw [link]
    rcases few with rfl | ⟨m, rfl, cls⟩
    · exact ⟨Nat.zero_le _, fun _ => rfl⟩
    · unfold HostLink.waitingOf count
      refine ⟨List.length_filter_le _ _, fun ne => ?_⟩
      simp [cls, Ne.symm ne]
  have clear : ∀ f : Flag, t.hlc.set.getLsbD f.number = false := fun f => by rw [link]; simp [HostLink.start]
  refine ⟨⟨?_, ?_, ?_, ?_, (waits _).1, (waits _).1, fun f set => ?_, fun ⟨f, set⟩ => ?_⟩, ?_, by rw [queue]; nofun⟩
  · rw [(waits _).2 (by decide), link]; rfl
  · rw [link]; exact Nat.zero_le _
  · rw [(waits _).2 (by decide)]; decide
  · rw [link]; exact Nat.zero_le _
  · rw [clear] at set; cases set
  · rw [clear] at set; cases set
  · rw [(waits _).2 (by decide), link]
    unfold RouteController.owes
    rw [queue, window]; rfl

/-- R183, R185: the execution of a request in its turn keeps the order of the link, a place being free. -/
theorem linkOwing_served {r : Request} {s t : State} (h : Served r s t) (room : s.requestRoom = true) (hs : LinkOwing 0 s) :
    LinkOwing 0 t := by
  have free : s.hlc.executed.length + s.hlc.waiting.length < 8 := of_decide_eq_true room
  have replied : ∀ c d, LinkOwing 0 (answerData r c d s) := fun c d => by
    refine ⟨hs.sound.replied free r c d, ?_, hs.single⟩
    show s.hlc.owed = (answerData r c d s).hlc.waitingOf .deferred + s.rc.owes + 0
    have waits : (answerData r c d s).hlc.waitingOf .deferred = s.hlc.waitingOf .deferred := waitingOf_append .deferred s.hlc (replyTo r c d)
    rw [waits]; exact hs.owed
  cases h with
  | answered c d e => exact linkOwing_effect e (replied c d)
  | takes e t host below accepted =>
    obtain ⟨x, origin, rfl⟩ := offerTake_joined accepted
    have owed : (supersede x.dest x.mask s).hlc.owed = s.hlc.owed := by
      obtain ⟨fs, eq, -⟩ := supersede_eq x.dest x.mask s
      rw [eq]
    refine ((linkOwing_supersede x.dest x.mask hs).deferred ?_ (fun _ => rfl) (owed ▸ below)).takes rfl (.refl _)
    rw [owes_entries]; simp [Entry.owes, origin, host]
  | fires n force t below accepted =>
    obtain ⟨counts, rfl⟩ := fireSalvo_joined accepted
    have owed : (acceptEntries (s.passing n (.system r.tag) force) [] s).2.hlc.owed = s.hlc.owed := by
      obtain ⟨fs, eq, -⟩ := acceptEntries_eq (s.passing n (.system r.tag) force) [] s
      rw [eq]
    exact ((linkOwing_acceptEntries _ [] hs).deferred rfl (fun h => by cases h) (owed ▸ below)).takes rfl (.refl _)
  | restarts => exact linkOwing_start rfl rfl ⟨_, _, rfl, .inr ⟨_, rfl, rfl⟩⟩
  | changesFamily f =>
    unfold changeFamily
    split
    · exact replied .ok []
    · exact (replied .ok []).takes (State.takes_of_rc (setTiming_rc ..)) (announced_handOver ..)
  | takesKeys d => exact (replied .ok d).takes rfl (.refl _)
  | writesEvents enabled edges =>
    obtain ⟨sound, owed, single⟩ := replied .ok []
    have cleared : ∀ f : Flag, (s.hlc.set &&& s.hlc.enabled &&& enabled).getLsbD f.number = true →
        s.hlc.set.getLsbD f.number = true ∧ enabled.getLsbD f.number = true := fun f set => by
      simp only [BitVec.getLsbD_and, Bool.and_eq_true] at set
      exact ⟨set.1.1, set.2⟩
    exact ⟨⟨sound.replies, sound.requests, sound.overflow, sound.limit, sound.restart, sound.flagsOnce,
      fun f set => (cleared f set).2, fun ⟨f, set⟩ => sound.carried ⟨f, (cleared f set).1⟩⟩, owed, single⟩
  | unknown => exact (replied .unknown []).takes (State.takes_of_rc (raise_rc ..)) (announced_raise ..)

/-- R183: the request that has its turn leaves its place to its reply. -/
theorem turn?_room {r : Request} {s s1 : State} (h : turn? r s = some s1) (hs : LinkOwing 0 s) :
    s1.requestRoom = true ∧ LinkOwing 0 s1 := by
  unfold turn? at h
  split at h
  · split at h
    · next room => cases h; exact ⟨room, hs⟩
    · cases h
  · next q rest waiting =>
    split at h
    · cases h
      have requests := hs.sound.requests
      rw [waiting, List.length_cons] at requests
      have free : s.hlc.executed.length + rest.length < 8 := by omega
      exact ⟨decide_eq_true free, ⟨hs.sound.replies, Nat.le_of_lt free, hs.sound.overflow, hs.sound.limit, hs.sound.restart,
        hs.sound.flagsOnce, hs.sound.enabled, hs.sound.carried⟩, hs.owed, hs.single⟩
    · cases h

/-- R183, R184: a good frame takes a place, is answered by an overflow reply, or is dropped. -/
theorem linkOwing_offerRequest {s : State} (r : Request) (hs : LinkOwing 0 s) : LinkOwing 0 (offerRequest r s) := by
  obtain ⟨⟨replies, requests, overflow, limit, restart, flagsOnce, enabled, carried⟩, owed, single⟩ := hs
  unfold offerRequest
  split
  · next room =>
    have free : s.hlc.executed.length + s.hlc.waiting.length < 8 := of_decide_eq_true room
    refine ⟨⟨replies, ?_, overflow, limit, restart, flagsOnce, enabled, carried⟩, owed, single⟩
    simp only [List.length_append, List.length_singleton]
    omega
  · split
    · next few =>
      have waits : ∀ c, (queueMessage ⟨.overflow, r.tag, [ReplyCode.busy.byte]⟩ s).hlc.waitingOf c =
          s.hlc.waitingOf c + if MessageClass.overflow = c then 1 else 0 := fun c => waitingOf_append ..
      have few : s.hlc.waitingOf .overflow < 7 := few
      refine ⟨⟨?_, requests, ?_, limit, ?_, ?_, enabled, fun set => ?_⟩, ?_, single⟩
      · rw [waits]; exact replies
      · rw [waits]; exact few
      · rw [waits]; exact restart
      · rw [waits]; exact flagsOnce
      · have := carried set
        simp only [queueMessage, List.any_append, this, Bool.true_or]
      · rw [waits]; exact owed
    · exact LinkOwing.takes ⟨⟨replies, requests, overflow, limit, restart, flagsOnce, enabled, carried⟩, owed, single⟩
        (State.takes_of_rc (raise_rc ..)) (announced_raise ..)

theorem linkOwing_receiveBytes (n : Nat) (bytes : List Byte) {s : State} (hs : LinkOwing 0 s) :
    LinkOwing 0 (receiveBytes n bytes s) := by
  have held : ∀ (x : State) (held : List Byte), LinkOwing 0 x → LinkOwing 0 { x with hlc := { x.hlc with collected := held } } :=
    fun x held hx => ⟨⟨hx.sound.replies, hx.sound.requests, hx.sound.overflow, hx.sound.limit, hx.sound.restart,
      hx.sound.flagsOnce, hx.sound.enabled, hx.sound.carried⟩, hx.owed, hx.single⟩
  induction n generalizing bytes s with
  | zero => exact held s bytes hs
  | succ n ih =>
    unfold receiveBytes
    split
    · exact held s [] hs
    · exact held s _ hs
    · exact ih _ (hs.takes (State.takes_of_rc (raise_rc ..)) (announced_raise ..))
    · exact ih _ (linkOwing_offerRequest _ hs)

theorem linkOrdered_execution {s t : State} (h : Execution s t) (hs : LinkOrdered s) : LinkOrdered t := by
  obtain ⟨idle, owing⟩ := (linkOrdered_iff s).1 hs
  cases h with
  | nothing => exact hs
  | powerOn =>
    exact (linkOrdered_iff _).2 ⟨fun _ => rfl, linkOwing_start rfl rfl ⟨_, _, rfl, .inl rfl⟩⟩
  | flashClock => exact (linkOrdered_iff _).2 ⟨idle, owing.takes rfl (.refl _)⟩
  | event e => exact linkOrdered_transmit (linkOwing_effect e owing)
  | switched v =>
    exact linkOrdered_transmit (linkOwing_switchPoint (owing.takes (State.takes_of_rc (setTiming_rc v s)) (announced_handOver ..)))
  | turn r turn served =>
    obtain ⟨room, found⟩ := turn?_room turn owing
    exact linkOrdered_transmit (linkOwing_served served room found)
  | offered r => exact linkOrdered_transmit (linkOwing_offerRequest r owing)
  | received bytes => exact linkOrdered_transmit (linkOwing_receiveBytes _ _ owing)
  | dropped =>
    unfold dropPartial
    split
    · exact linkOrdered_transmit owing
    · exact linkOrdered_transmit (linkOwing_receiveBytes _ _ (owing.takes (State.takes_of_rc (raise_rc ..)) (announced_raise ..)))
  | ended =>
    unfold endTransmission
    split
    · exact hs
    · exact linkOrdered_transmit ⟨⟨owing.sound.replies, owing.sound.requests, owing.sound.overflow, owing.sound.limit,
        owing.sound.restart, owing.sound.flagsOnce, owing.sound.enabled, owing.sound.carried⟩, owing.owed, owing.single⟩

/-- R183 to R186: the messages that wait on a link in order. -/
theorem LinkOrdered.messages {s : State} (h : LinkOrdered s) :
    count (fun m => m.cls == .deferred) s.hlc.outbound ≤ 64 ∧ count (fun m => m.cls != .restartReply) s.hlc.outbound ≤ 80 := by
  obtain ⟨owed, limit⟩ := h.owed
  have deferred : count (fun m => m.cls == .deferred) s.hlc.outbound ≤ 64 := Nat.le_trans (Nat.le_add_right _ _) (owed ▸ limit)
  have classes : ∀ ms : List Message, count (fun m => m.cls != .restartReply) ms = count (fun m => m.cls == .reply) ms +
      count (fun m => m.cls == .overflow) ms + count (fun m => m.cls == .deferred) ms + count (fun m => m.cls == .eventFlags) ms := by
    intro ms
    induction ms with
    | nil => rfl
    | cons m ms ih =>
      unfold count at ih ⊢
      simp only [List.filter_cons]
      cases m.cls <;> simp <;> omega
  have overflow : count (fun m => m.cls == .overflow) s.hlc.outbound ≤ 7 := h.overflow
  have requests : s.hlc.executed.length + s.hlc.waiting.length ≤ 8 := h.requests
  have flags := h.flagsOnce
  have replies := h.replies
  refine ⟨deferred, ?_⟩
  rw [classes, ← replies]
  omega

/-- Settles O54: every command changes the link by replies within the room, flags and deferred replies that were owed, and the
transmitter is looked at behind it. -/
theorem linkStaysOrdered : Obligations.LinkStaysOrdered := by
  refine ⟨fun s h => ⟨fun idle => ?_, h.messages⟩, fun s t hs h => ?_⟩
  · have none_waits := h.idle idle
    refine ⟨none_waits, List.length_eq_zero_iff.1 ?_⟩
    rw [h.replies, none_waits]; rfl
  · unfold step at h
    split at h
    · cases h; exact hs
    · next c rest _ =>
      obtain ⟨u, answers, execution⟩ := exec_answers c { s with pending := rest }
      rw [answers] at h
      cases h
      exact linkOrdered_execution execution ⟨hs.idle, hs.replies, hs.requests, hs.overflow, hs.owed, hs.single, hs.restart, hs.flagsOnce,
        hs.enabled, hs.carried⟩

end Sys2Proof.Machine

/-! The queue of commands, power-on, the reset state and the host link: the statements that go with the execution of a
command. -/

namespace Sys2Proof.Machine

/-! ### The queue of commands -/

/-- Settles O1: a step is the execution of the front command, as it is defined. -/
theorem stepRunsTheFrontCommand : Obligations.StepRunsTheFrontCommand := fun _ _ _ => rfl

theorem effect_pending {s t : State} {mark : Bool} (h : Effect s mark t) : t.pending = s.pending := by
  cases h with
  | take e t accepted => simp [offerTake_pending accepted]
  | fireSalvo n o f t accepted => simp [fireSalvo_pending accepted]
  | powerOn | restartAll | none | storeSalvo | timing | flashClock | setGroup | countMode | takeSystemKeys => rfl
  | _ => simp <;> rfl

/-- Settles O2: every command has an execution, and no effect touches the queue of commands. -/
theorem everyCommandCompletes : Obligations.EveryCommandCompletes := by
  refine ⟨fun s empty => ?_, fun s nbits w => ⟨rfl, rfl⟩, fun c s => ?_⟩
  · unfold step; rw [empty]
  · obtain ⟨t, answers, execution⟩ := exec_answers c s
    obtain ⟨h, h', mark, t', effect, rfl⟩ := execution.upToLink
    exact ⟨_, answers, (effect_pending effect :)⟩

/-! ### Start values -/

/-- R190: blocks of start values, apart from what stands at a restart. -/
theorem startValues_of_blocks {t : State} (rc : t.rc = { RouteController.start with windows := t.rc.windows })
    (stu : t.stu.reference = .lost ∧ t.stu.candidate = none ∧ t.stu.flywheelCount = 0) (tt : t.tt = TallyTracer.start)
    (tou : t.tou = { TallyOutputs.start with flashLit := t.tou.flashLit }) (tc : t.tc = TalkController.start)
    (tme : t.tme = TalkMix.start)
    (pbc : t.pbc = { PanelBus.start with transaction := t.pbc.transaction, newCycle := t.pbc.newCycle })
    (fd : t.fd = FunctionDispatcher.start) : StartValues t := by
  obtain ⟨hlc, rc', stu', tt', tou', tc', tme', pbc', fd', pending⟩ := t
  dsimp only at rc stu tt tou tc tme pbc fd
  rw [rc, tt, tou, tc, tme, pbc, fd]
  exact
    { dests := fun _ => rfl
      devices := fun _ => rfl
      queue := ⟨rfl, rfl⟩
      salvos := fun _ => rfl
      reference := stu
      roots := fun _ => rfl
      mixers := fun _ => ⟨rfl, fun _ => rfl⟩
      maps := ⟨fun m _ => by unfold State.mapEntry; split <;> rfl, fun _ => rfl⟩
      colours := fun dom _ => by cases dom <;> rfl
      cameras := fun _ => rfl
      outputs := fun _ => rfl
      calls := rfl
      ports := fun _ => rfl
      groups := fun _ => rfl
      talks := ⟨rfl, rfl⟩
      keys := fun _ _ => rfl
      ifbs := fun _ => rfl
      paths := ⟨rfl, rfl⟩
      panels := fun _ => rfl
      events := rfl
      judgement := ⟨rfl, rfl⟩
      cycle := ⟨rfl, rfl⟩
      sources := ⟨rfl, rfl, rfl, rfl⟩
      functions := ⟨fun _ => rfl, fun _ page _ => by cases page <;> rfl⟩
      contexts := fun _ => rfl
      held := fun _ _ => rfl
      firings := fun _ _ => rfl
      systemKeys := rfl
      hostLamps := fun _ _ => rfl }

/-- Settles O3: power-on gives every block its start value. -/
theorem powerOnValues : Obligations.PowerOnValues := by
  refine ⟨⟨?_, rfl, rfl, rfl⟩, fun s => ⟨powerOn s, rfl, ?_, rfl, rfl, rfl, rfl⟩⟩
  · exact startValues_of_blocks rfl ⟨rfl, rfl, rfl⟩ rfl rfl rfl rfl rfl rfl
  · exact startValues_of_blocks rfl ⟨rfl, rfl, rfl⟩ rfl rfl rfl rfl rfl rfl

/-- Settles O4: RESTART(ALL) is the link with its reply alone and start values in every block. -/
theorem restartAllScope : Obligations.RestartAllScope := by
  intro tag s s1 turn
  have found := turn.eq
  have family : s1.stu.family = s.stu.family := by rw [found]
  have transaction : s1.pbc.transaction = s.pbc.transaction := by rw [found]
  have sending : s1.hlc.sending = s.hlc.sending := by rw [found]
  have pending : s1.pending = s.pending := by rw [found]
  have done : exec (.restartAll tag [0]) s = .next (transmit (restartAll tag s1)) :=
    congrArg _ (requestOf_inTurn turn (show byteArg [0] = some 0 from rfl))
  have restarted : transmit (restartAll tag s1) = { restartAll tag s1 with hlc := (restartLink tag s1.hlc).begun } := transmit_eq _
  have begun : (restartLink tag s1.hlc).begun = { HostLink.start with
      outbound := if s.hlc.sending.isSome then [⟨.restartReply, tag, [0]⟩] else []
      sending := if s.hlc.sending.isSome then s.hlc.sending else some ⟨.restartReply, tag, [0]⟩ } := by
    unfold HostLink.begun restartLink
    rw [sending]
    cases s.hlc.sending <;> rfl
  rw [done, restarted, begun]
  refine ⟨_, rfl, startValues_of_blocks rfl ⟨rfl, rfl, rfl⟩ rfl rfl rfl rfl rfl rfl, family, rfl, rfl, rfl, rfl, rfl, rfl, rfl,
    fun m busy => ?_, fun idle => ?_, ?_, ?_, pending⟩
  · rw [busy]; exact ⟨rfl, rfl⟩
  · rw [idle]; exact ⟨rfl, rfl⟩
  · show discarded s1.pbc.transaction = _
    rw [transaction]; rfl
  · show s1.pbc.transaction.isSome = _
    rw [transaction]

/-- Settles O60: nothing is listed and nothing waits after reset. -/
theorem resetIsInOrder : Obligations.ResetIsInOrder := by
  refine ⟨(linkOrdered_iff _).2 ⟨fun _ => rfl, linkOwing_start rfl rfl ⟨_, _, rfl, .inl rfl⟩⟩, queueBounded_start rfl rfl rfl,
    tablesBounded_start rfl rfl rfl rfl rfl rfl rfl, levelsFitted_start rfl rfl, coloursAgree_start rfl, drivesAgree_start rfl,
    lampsAgree_start rfl, talkSetBounded_reset, ?_, ?_, ifbArbitrated_reset, panelTalksServed_start rfl nofun⟩
  · exact ⟨nofun, nofun, rfl, fun _ => Nat.zero_le _, Nat.zero_le _⟩
  · exact
      { listeners := nofun
        ordered := .nil
        talkPaths := fun _ _ => ⟨(by rintro ⟨_, h, -⟩; cases h), (by rintro ⟨_, h, -⟩; cases h)⟩
        derived := nofun
        programPaths := fun _ _ _ => ⟨(by rintro ⟨_, h, -⟩; cases h), (by rintro ⟨_, h, -⟩; cases h)⟩
        programs := nofun
        coefficients := nofun
        full := nofun
        numbers := ⟨.nil, nofun, by decide, by decide⟩
        starved := ⟨nofun, (by rintro ⟨_, h, -⟩; cases h)⟩
        ifbs := ⟨rfl, nofun, .nil⟩
        priorities := ⟨nofun, fun _ _ _ _ _ _ _ h => by cases h⟩ }

/-! ### The host link -/

theorem exec_transmissionEnd (s : State) : exec .transmissionEnd s = .next (endTransmission s) := rfl

theorem endTransmission_busy {s : State} {m : Message} (busy : s.hlc.sending = some m) :
    endTransmission s = { s with hlc := ({ s.hlc with sending := none } : HostLink).begun } := by
  unfold endTransmission; rw [busy]; exact transmit_eq _

/-- Settles O9: the class of the message that begins says what it takes with it. -/
theorem transmissionEnds : Obligations.TransmissionEnds := by
  refine ⟨fun s idle => ?_, fun m s busy empty => ?_, fun m x rest s busy waiting => ?_⟩
  · rw [exec_transmissionEnd, endTransmission, idle]
  · rw [exec_transmissionEnd, endTransmission_busy busy, HostLink.begun, empty]
  · rw [exec_transmissionEnd, endTransmission_busy busy, HostLink.begun, waiting]
    unfold startMessage
    obtain ⟨cls, tag, payload⟩ := x
    cases cls <;> simp

theorem flagSet_raise (f g : Flag) (s : State) : (raise f s).flagSet g = (s.flagSet g || (f == g && s.flagEnabled f)) := by
  have numbered : decide (g.number = f.number) = (f == g) := by cases f <;> cases g <;> rfl
  unfold State.flagSet State.flagEnabled
  rw [raise_hlc]
  unfold HostLink.raised
  by_cases news : (s.hlc.enabled.getLsbD f.number && !s.hlc.set.getLsbD f.number) = true
  · rw [if_pos news, set_bit, numbered]
    rw [Bool.and_eq_true] at news
    rw [news.1, Bool.and_true]
  · rw [if_neg news]
    by_cases same : f = g
    · subst same
      revert news
      cases s.hlc.enabled.getLsbD f.number <;> cases s.hlc.set.getLsbD f.number <;> simp
    · have other : (f == g) = false := by simpa using same
      rw [other]; simp

/-- R188: when an EVENT_FLAGS message joins the queue. -/
theorem outbound_raise (f : Flag) (s : State) : (raise f s).hlc.outbound =
    if s.flagEnabled f = true ∧ s.flagSet f = false ∧ s.flagsWaiting = false then s.hlc.outbound ++ [flagsMessage]
    else s.hlc.outbound := by
  rw [raise_hlc]
  unfold HostLink.raised State.flagEnabled State.flagSet State.flagsWaiting
  cases s.hlc.enabled.getLsbD f.number <;> cases s.hlc.set.getLsbD f.number <;>
    cases (s.hlc.outbound.any fun m => m.cls == .eventFlags) <;> simp

theorem handOver_change (f : Flag) (e : Edge) (now : Bool) (s : State) (select : s.hlc.edges.of? f = some e) :
    handOver f (!now) now s = if e = .both ∨ e = .rise ∧ now = true ∨ e = .fall ∧ now = false then raise f s else s := by
  unfold handOver raise
  rw [select]
  cases e <;> cases now <;> simp [Edge.accepts]

/-- Settles O10: a flag becomes set while it is enabled, with a message to carry it. -/
theorem flagsAreSet : Obligations.FlagsAreSet := by
  refine ⟨rfl, fun f s => ⟨rfl, rfl, ?_⟩, fun e => ⟨⟨rfl, rfl, rfl, rfl, rfl⟩, ?_⟩, flagSet_raise, outbound_raise,
    fun f e now s select => ⟨handOver_change f e now s select, ?_⟩, fun f s => ?_⟩
  · unfold State.flagsWaiting
    rw [List.any_eq_true]
    simp
  · intro f hf
    simp only [List.mem_cons, List.not_mem_nil, or_false] at hf
    rcases hf with rfl | rfl | rfl | rfl | rfl | rfl | rfl | rfl | rfl <;> rfl
  · unfold handOver; simp
  · rw [raise_eq]
    rcases HostLink.raised_cases f s.hlc with e | ⟨-, -, e⟩ | ⟨-, -, e⟩ <;> rw [e]

/-! ### SET_EVENTS -/

theorem edgeOf_edgeByte (e : Edge) : edgeOf (edgeByte e) = some e := by cases e <;> rfl

theorem eventsArgs_bytes (enables : BitVec 16) (edges : EdgeSelects) (width : enables.toNat < 16384) :
    eventsArgs (be16 enables.toNat ++ edgesBytes edges) = some (enables, edges) := by
  have word : nat16 (byte (enables.toNat / 256)) (byte enables.toNat) = enables.toNat := by
    simp [nat16, byte]; omega
  show (if nat16 (byte (enables.toNat / 256)) (byte enables.toNat) < 16384 then _ else _) = _
  rw [word, if_pos width]
  simp only [edgeOf_edgeByte, BitVec.ofNat_toNat, BitVec.setWidth_eq]

/-- R186, R189: the reply begins before or behind the write of the enables alike. -/
theorem begun_writeEvents (r : Request) (enabled : BitVec 16) (edges : EdgeSelects) {s : State} (hs : Settled s) :
    (writeEvents enabled edges (answer r .ok s)).hlc.begun = { s.hlc.answered r .ok [] with
      enabled := enabled, edges := edges, set := s.hlc.set &&& s.hlc.enabled &&& enabled } := by
  cases idle : s.hlc.sending with
  | some m => simp [HostLink.begun, HostLink.answered, writeEvents, answer_hlc, idle]
  | none =>
    obtain ⟨outbound, executed⟩ := hs idle
    simp [HostLink.begun, HostLink.answered, writeEvents, answer_hlc, idle, outbound, executed, startMessage, replyTo]

/-- Settles O11: a flag stays set where it was enabled and stays enabled. -/
theorem setEventsWrites : Obligations.SetEventsWrites := by
  intro tag enables edges s s1 width settled turn
  have written := begun_writeEvents ⟨0xA0, tag, be16 enables.toNat ++ edgesBytes edges⟩ enables edges (turn.settled settled)
  have done : exec (.setEvents tag (be16 enables.toNat ++ edgesBytes edges)) s = .next (transmit (writeEvents enables edges
      (answer ⟨0xA0, tag, be16 enables.toNat ++ edgesBytes edges⟩ .ok s1))) :=
    congrArg _ (requestOf_inTurn turn (eventsArgs_bytes enables edges width))
  rw [transmit_eq, written] at done
  refine ⟨_, done, rfl, fun f => ?_⟩
  · have link : s1.hlc.set = s.hlc.set ∧ s1.hlc.enabled = s.hlc.enabled := by rw [turn.eq]; exact ⟨rfl, rfl⟩
    unfold State.flagSet State.flagEnabled
    simp only [BitVec.getLsbD_and, link.1, link.2]

/-! ### Requests in and out of turn -/

/-- A request that a command carries is executed in its turn, with a payload that the layout of its kind allows or not. -/
theorem exec_requestCarried {c : Instr} {r : Request} (h : requestCarried c = some r) :
    ∃ (α : Type) (decode : List Byte → Option α) (body : Request → α → State → State),
      (∀ s, exec c s = .next (requestOf r.kind r.tag r.payload decode body s)) ∧ layoutFits c = (decode r.payload).isSome := by
  cases c <;> cases h <;> exact ⟨_, _, _, fun _ => rfl, rfl⟩

/-- R195: a command for each request kind. -/
def carriers : List Instr :=
  [.setDestDomain 0 [], .protect 0 [], .unprotect 0 [], .protectAll 0 [], .releaseAll 0 [], .setFabric 0 [], .fabricRetry 0 [],
    .getRoute 0 [], .take 0 [], .salvoStore 0 [], .salvoFire 0 [], .setFrameFamily 0 [], .setRoot 0 [], .setMixer 0 [],
    .mixerState 0 [], .setMixerMap 0 [], .setTie 0 [], .clearTie 0 [], .getTally 0 [], .setCamera 0 [], .setOutput 0 [],
    .lampClear 0 [], .setPort 0 [], .setGroup 0 [], .talkOn 0 [], .talkOff 0 [], .getPaths 0 [], .setIfb 0 [], .getIfb 0 [],
    .setPanel 0 [], .setCountMode 0 [], .countsSnapshot 0 [], .getPanel 0 [], .getCounts 0 [], .setFunction 0 [],
    .setBinding 0 [], .setLamp 0 [], .getSystemKeys 0 [], .setEvents 0 [], .restartAll 0 [], .ident 0 [], .getStatus 0 []]

theorem requestKinds_carriers : requestKinds = (carriers.filterMap requestCarried).map fun r => r.kind.toNat := rfl

theorem requestKinds_carried (kind : Byte) : kind.toNat ∈ requestKinds ↔ ∃ c r, requestCarried c = some r ∧ r.kind = kind := by
  constructor
  · intro h
    rw [requestKinds_carriers] at h
    obtain ⟨r, hr, same⟩ := List.mem_map.1 h
    obtain ⟨c, -, carried⟩ := List.mem_filterMap.1 hr
    exact ⟨c, r, carried, BitVec.eq_of_toNat_eq same⟩
  · rintro ⟨c, r, carried, rfl⟩
    cases c <;> cases carried <;> exact List.contains_iff_mem.1 rfl

theorem requestRoom_iff (s : State) : s.requestRoom = true ↔ s.hlc.executed.length + s.hlc.waiting.length < 8 := decide_eq_true_iff

/-- Settles O13: a request in its turn is answered, and out of it joins the requests that wait. -/
theorem requestsAreJudgedInTurn : Obligations.RequestsAreJudgedInTurn := by
  refine ⟨requestRoom_iff, requestKinds_carried, fun kind tag payload s s1 unknown settled turn => ?_,
    fun kind tag payload s known => ?_, fun c r s s1 carried misfit settled turn => ?_,
    fun c r q rest s carried waiting other room settled => ?_⟩
  · have judged : isRequestKind kind = false := by simpa [isRequestKind] using unknown
    show execUnknownRequest kind tag payload s = _
    unfold execUnknownRequest
    rw [judged, if_neg (by decide), request_inTurn turn, transmit_eq, raise_eq]
    have begun := raised_begun (r := ⟨kind, tag, payload⟩) (c := .unknown) (d := []) (turn.settled settled) [.hostFrameError]
    exact congrArg (fun h => Host.Outcome.next { s1 with hlc := h }) begun
  · have judged : isRequestKind kind = true := by simpa [isRequestKind] using known
    show execUnknownRequest kind tag payload s = _
    unfold execUnknownRequest
    rw [judged, if_pos rfl]
  · obtain ⟨α, decode, body, exec_eq, fits⟩ := exec_requestCarried carried
    have unread : decode r.payload = none := by
      rw [misfit] at fits
      exact Option.isSome_eq_false_iff.1 fits.symm |> Option.isNone_iff_eq_none.1
    rw [exec_eq, requestOf, request_inTurn turn, unread]
    exact congrArg _ (transmit_answer r .badArg (turn.settled settled))
  · obtain ⟨α, decode, body, exec_eq, -⟩ := exec_requestCarried carried
    have waits : turn? r s = none := by unfold turn?; rw [waiting]; exact if_neg other
    have offered : offerRequest r s = { s with hlc := { s.hlc with waiting := s.hlc.waiting ++ [r] } } :=
      if_pos ((requestRoom_iff s).2 room)
    have out_of_turn : requestOf r.kind r.tag r.payload decode body s = transmit (offerRequest r s) := by
      unfold requestOf request
      rw [show turn? ⟨r.kind, r.tag, r.payload⟩ s = none from waits]
    have settled' : Settled (offerRequest r s) := by rw [offered]; exact settled
    rw [exec_eq, out_of_turn, transmit_settled settled', offered]

end Sys2Proof.Machine

/-! The frames of the host link: their layout and CRC, and what the receiver does with them. -/

namespace Sys2Proof.Machine

/-! ### The CRC and the frames -/

theorem crcByte_repeat (c : BitVec 16) (b : Byte) : crcByte c b =
    Nat.repeat (fun c => if c.getLsbD 15 then (c <<< 1) ^^^ 0x1021#16 else c <<< 1) 8 (c ^^^ (b.zeroExtend 16 <<< 8)) := by
  have bit : crcBit = fun c => if c.getLsbD 15 then (c <<< 1) ^^^ 0x1021#16 else c <<< 1 := by
    funext c
    unfold crcBit
    rw [BitVec.msb_eq_getLsbD_last]
  unfold crcByte
  rw [bit]; rfl

theorem crcChecks_iff (bytes : List Byte) : crcChecks bytes = true ↔ ∃ body, bytes = body ++ be16 (crc16 body).toNat := by
  constructor
  · intro checks
    unfold crcChecks at checks
    rw [Bool.and_eq_true, beq_iff_eq] at checks
    exact ⟨_, checks.2.symm⟩
  · rintro ⟨body, rfl⟩
    exact crcChecks_withCrc body

/-! ### The receiver on a link that collects nothing -/

theorem receive_idle {bytes : List Byte} {s : State} (idle : s.hlc.collected = []) :
    receive bytes s = receiveBytes (bytes.length + 1) bytes s := by
  unfold receive; rw [idle]; simp

theorem exec_hostFrameReceived {bytes : List Byte} {s : State} (idle : s.hlc.collected = []) :
    exec (.hostFrameReceived bytes) s = .next (transmit (receiveBytes (bytes.length + 1) bytes s)) := by
  rw [← receive_idle idle]; rfl

theorem exec_hostBadLength {bytes : List Byte} {s : State} (idle : s.hlc.collected = []) :
    exec (.hostBadLength bytes) s = .next (transmit (receiveBytes (bytes.length + 1) bytes s)) := by
  rw [← receive_idle idle]; rfl

/-- R181: bytes without a start byte are not collected. -/
theorem receiveBytes_none (n : Nat) {bytes : List Byte} (h : (0xC3 : Byte) ∉ bytes) (s : State) :
    receiveBytes (n + 1) bytes s = { s with hlc := { s.hlc with collected := [] } } := by
  unfold receiveBytes judgeBytes
  rw [fromStart_nil _ h]

/-- R181: what the receiver has collected before it judges is replaced. -/
theorem receiveBytes_collected (n : Nat) (bytes held : List Byte) (s : State) :
    receiveBytes n bytes { s with hlc := { s.hlc with collected := held } } = receiveBytes n bytes s := by
  have raised : ∀ f (h : HostLink), ({ h with collected := held } : HostLink).raised f = { h.raised f with collected := held } := fun f h => by
    unfold HostLink.raised; dsimp only; split <;> rfl
  induction n generalizing bytes s with
  | zero => rfl
  | succ n ih =>
    unfold receiveBytes
    split
    · rfl
    · rfl
    · rw [raise_eq, raise_eq, raised]
      exact ih _ { s with hlc := s.hlc.raised .hostFrameError }
    · next r rest _ =>
      have offered : offerRequest r { s with hlc := { s.hlc with collected := held } } =
          { offerRequest r s with hlc := { (offerRequest r s).hlc with collected := held } } := by
        unfold offerRequest
        rw [raise_eq, raise_eq, raised]
        split
        · next room => rw [if_pos (show s.requestRoom = true from room)]
        · next full =>
          rw [if_neg (show ¬s.requestRoom = true from full)]
          split
          · next few => rw [if_pos (show s.overflowWaiting < Config.overflowPlaces from few)]; rfl
          · next many => rw [if_neg (show ¬s.overflowWaiting < Config.overflowPlaces from many)]
      rw [offered]
      exact ih _ (offerRequest r s)

/-- R181: a good frame alone is offered to the request queue. -/
theorem receiveBytes_hostFrame (n : Nat) (kind tag : Byte) {payload : List Byte} (short : payload.length ≤ 240) (s : State) :
    receiveBytes (n + 2) (hostFrame kind tag payload) s =
      { offerRequest ⟨kind, tag, payload⟩ s with hlc := { (offerRequest ⟨kind, tag, payload⟩ s).hlc with collected := [] } } := by
  rw [receiveBytes, judgeBytes_hostFrame kind tag payload short]
  exact receiveBytes_none n (List.not_mem_nil) _

theorem uncollected {s : State} (idle : s.hlc.collected = []) : { s with hlc := { s.hlc with collected := [] } } = s := by
  rw [← idle]

theorem exec_hostFrame (kind tag : Byte) {payload : List Byte} (short : payload.length ≤ 240) {s t : State} (idle : s.hlc.collected = [])
    (offered : offerRequest ⟨kind, tag, payload⟩ s = t) (still : t.hlc.collected = []) :
    exec (.hostFrameReceived (hostFrame kind tag payload)) s = .next (transmit t) := by
  have received := receiveBytes_hostFrame (payload.length + 5) kind tag short s
  rw [offered, uncollected still] at received
  rw [exec_hostFrameReceived idle, ← received]
  congr 3
  simp [hostFrame, withCrc, be16]

/-- R183: a good frame with a place free joins the requests that wait. -/
theorem frame_queued (kind tag : Byte) {payload : List Byte} {s : State} (short : payload.length ≤ 240) (idle : s.hlc.collected = [])
    (room : s.hlc.executed.length + s.hlc.waiting.length < 8) (settled : Settled s) :
    exec (.hostFrameReceived (hostFrame kind tag payload)) s =
      .next { s with hlc := { s.hlc with waiting := s.hlc.waiting ++ [⟨kind, tag, payload⟩] } } := by
  have offered : offerRequest ⟨kind, tag, payload⟩ s = { s with hlc := { s.hlc with waiting := s.hlc.waiting ++ [⟨kind, tag, payload⟩] } } :=
    if_pos ((requestRoom_iff s).2 room)
  rw [exec_hostFrame kind tag short idle offered idle]
  exact congrArg _ (transmit_settled settled)

/-- Settles O7: the frame is laid out and judged alike, and one that is good is offered to the request queue. -/
theorem goodFrameIsQueued : Obligations.GoodFrameIsQueued := by
  refine ⟨fun kind tag payload => ?_, fun address kind content => ?_, ⟨rfl, fun bytes b => ?_, Tests.test_crc_check_value⟩,
    crcChecks_iff, fun kind tag payload s => frame_queued kind tag⟩
  · simp [hostFrame, withCrc]
  · simp [panelFrame, withCrc]
  · unfold crc16
    rw [List.foldl_append, List.foldl_cons, List.foldl_nil, crcByte_repeat]

/-! ### Frames turned away -/

/-- R184: a good frame without a place, answered by an overflow reply. -/
theorem frame_overflows (kind tag : Byte) {payload : List Byte} {s : State} (short : payload.length ≤ 240) (idle : s.hlc.collected = [])
    (full : 8 ≤ s.hlc.executed.length + s.hlc.waiting.length) (settled : Settled s)
    (few : count (fun m => m.cls == .overflow) s.hlc.outbound < 7) :
    exec (.hostFrameReceived (hostFrame kind tag payload)) s =
      .next { s with hlc :=
        if s.hlc.sending.isNone then { s.hlc with sending := some ⟨.overflow, tag, [6]⟩ }
        else { s.hlc with outbound := s.hlc.outbound ++ [⟨.overflow, tag, [6]⟩] } } := by
  have none_free : ¬s.requestRoom = true := by rw [requestRoom_iff]; omega
  have offered : offerRequest ⟨kind, tag, payload⟩ s =
      { s with hlc := { s.hlc with outbound := s.hlc.outbound ++ [⟨.overflow, tag, [6]⟩] } } :=
    (if_neg none_free).trans (if_pos few)
  rw [exec_hostFrame kind tag short idle offered idle, transmit_eq]
  unfold HostLink.begun
  cases busy : s.hlc.sending with
  | some m => simp [busy, ← idle]
  | none =>
    obtain ⟨empty, -⟩ := settled busy
    simp [empty, startMessage, ← idle]

/-- R184: a good frame without a place while 7 overflow replies wait. -/
theorem frame_dropped (kind tag : Byte) {payload : List Byte} {s : State} (short : payload.length ≤ 240) (idle : s.hlc.collected = [])
    (full : 8 ≤ s.hlc.executed.length + s.hlc.waiting.length) (settled : Settled s)
    (many : 7 ≤ count (fun m => m.cls == .overflow) s.hlc.outbound) :
    exec (.hostFrameReceived (hostFrame kind tag payload)) s = .next { s with hlc := s.hlc.raised .hostFrameError } := by
  have none_free : ¬s.requestRoom = true := by rw [requestRoom_iff]; omega
  have offered : offerRequest ⟨kind, tag, payload⟩ s = { s with hlc := s.hlc.raised .hostFrameError } :=
    ((if_neg none_free).trans (if_neg (Nat.not_lt.2 many))).trans (raise_eq _ _)
  have busy : s.hlc.sending ≠ none := fun free => by
    rw [(settled free).1] at many; exact absurd many (by decide)
  have still : (s.hlc.raised .hostFrameError).collected = [] ∧ (s.hlc.raised .hostFrameError).sending ≠ none := by
    rcases HostLink.raised_cases .hostFrameError s.hlc with e | ⟨-, -, e⟩ | ⟨-, -, e⟩ <;> rw [e] <;> exact ⟨idle, busy⟩
  rw [exec_hostFrame kind tag short idle offered still.1]
  exact congrArg _ (transmit_settled (s := { s with hlc := s.hlc.raised .hostFrameError }) fun free => absurd free still.2)

theorem fromStart_start (bytes : List Byte) : fromStart (0xC3 :: bytes) = 0xC3 :: bytes := if_pos rfl

/-- R181: a frame of a bad length or a bad CRC is dropped. -/
theorem judgeBytes_bad {len : Byte} {rest : List Byte}
    (bad : 240 < len.toNat ∨ len.toNat + 5 ≤ rest.length + 1 ∧ crcChecks ((len :: rest).take (len.toNat + 5)) = false) :
    judgeBytes (0xC3 :: len :: rest) = .dropped (len :: rest) := by
  unfold judgeBytes
  rw [fromStart_start]
  dsimp only
  rcases bad with long | ⟨complete, crc⟩
  · rw [if_pos long]
  · split
    · rfl
    · rw [if_neg (by rw [List.length_cons]; omega), crc]; rfl

theorem judgeBytes_partial {len : Byte} {rest : List Byte} (fits : len.toNat ≤ 240) (short : rest.length < len.toNat + 4) :
    judgeBytes (0xC3 :: len :: rest) = .collecting (0xC3 :: len :: rest) := by
  unfold judgeBytes
  rw [fromStart_start]
  dsimp only
  rw [if_neg (Nat.not_lt.2 fits), if_pos (by rw [List.length_cons]; omega)]

theorem raised_collected (f : Flag) (h : HostLink) : (h.raised f).collected = h.collected := by
  rcases HostLink.raised_cases f h with e | ⟨-, -, e⟩ | ⟨-, -, e⟩ <;> rw [e]

/-- R181: raising HOST_FRAME_ERROR reads no collected bytes. -/
theorem raised_uncollected (f : Flag) (h : HostLink) :
    ({ h with collected := [] } : HostLink).raised f = { h.raised f with collected := [] } := by
  unfold HostLink.raised; dsimp only; split <;> rfl

theorem exec_hostFrameTimeout (s : State) : exec .hostFrameTimeout s = .next (transmit (dropPartial s)) := rfl

/-- R181: the timeout drops the start byte and judges what it leaves. -/
theorem dropPartial_held {rest : List Byte} {s : State} (held : s.hlc.collected = 0xC3 :: rest) : dropPartial s =
    receiveBytes (rest.length + 1) rest { s with hlc := ({ s.hlc with collected := [] } : HostLink).raised .hostFrameError } := by
  unfold dropPartial
  rw [held]
  dsimp only
  rw [raise_eq, raised_uncollected]
  exact (receiveBytes_collected _ rest [] { s with hlc := s.hlc.raised .hostFrameError }).symm

/-- Settles O8: each frame that is turned away, by the judgement of its bytes. -/
theorem framesTurnedAway : Obligations.FramesTurnedAway := by
  refine ⟨fun kind tag payload s short idle full settled => ⟨frame_overflows kind tag short idle full settled,
      frame_dropped kind tag short idle full settled⟩, fun len rest s idle bad => ?_, fun bytes s idle hunting => ?_,
    fun len s idle long => ?_, fun len rest s idle fits short settled => ?_, fun rest s held hunting => ?_,
    fun rest s held => ?_, fun s idle settled => ?_⟩
  · have still : (s.hlc.raised .hostFrameError).collected = [] := (raised_collected _ _).trans idle
    have dropped : receiveBytes ((0xC3 :: len :: rest).length + 1) (0xC3 :: len :: rest) s =
        receiveBytes ((len :: rest).length + 1) (len :: rest) { s with hlc := s.hlc.raised .hostFrameError } := by
      rw [receiveBytes, judgeBytes_bad bad]
      dsimp only
      rw [raise_eq]; rfl
    refine ⟨?_, ?_⟩
    · rw [exec_hostFrameReceived idle, exec_hostFrameReceived (s := { s with hlc := s.hlc.raised .hostFrameError }) still, dropped]
    · rw [exec_hostBadLength idle, exec_hostBadLength (s := { s with hlc := s.hlc.raised .hostFrameError }) still, dropped]
  · rw [exec_hostFrameReceived idle, receiveBytes_none _ hunting, uncollected idle, transmit_eq]
  · have other : (0xC3 : Byte) ∉ [len] := by
      rw [List.mem_singleton]; rintro rfl; exact absurd long (by decide)
    rw [exec_hostBadLength idle, receiveBytes, judgeBytes_bad (.inl long)]
    dsimp only
    rw [show ([0xC3, len] : List Byte).length = 1 + 1 from rfl, receiveBytes_none _ other, raise_eq,
      uncollected (s := { s with hlc := s.hlc.raised .hostFrameError }) ((raised_collected _ _).trans idle), transmit_eq]
  · rw [exec_hostFrameReceived idle, receiveBytes, judgeBytes_partial fits short]
    exact congrArg _ (transmit_settled settled)
  · rw [exec_hostFrameTimeout, dropPartial_held held, receiveBytes_none _ hunting, transmit_eq]
    rw [uncollected (s := { s with hlc := ({ s.hlc with collected := [] } : HostLink).raised .hostFrameError }) (raised_collected _ _)]
  · rw [exec_hostFrameTimeout, dropPartial_held held,
      exec_hostFrameReceived (s := { s with hlc := ({ s.hlc with collected := [] } : HostLink).raised .hostFrameError })
        (raised_collected _ _)]
  · rw [exec_hostFrameTimeout, dropPartial, idle]
    exact congrArg _ (transmit_settled settled)

end Sys2Proof.Machine

/-! The destination table and the fabric devices: domains, permission, the mapping of a device, its retry and the ends of its
readbacks (R3 to R6, R11 to R19). -/

namespace Sys2Proof.Machine

/-! ### Requests in their turn -/

/-- Section 11.1: the two bytes of a number. -/
theorem be16_bytes {n : Nat} (h : n < 65536) : ∃ a b, be16 n = [a, b] ∧ nat16 a b = n :=
  ⟨_, _, rfl, Option.some.inj (wordArg_be16 h)⟩

/-- R183, R185: a request that its block refuses is answered and does nothing else. -/
theorem refused_inTurn {α : Type} {c : Instr} {kind tag : Byte} {payload : List Byte} {decode : List Byte → Option α}
    {body : Request → α → State → State} {a : α} {code : ReplyCode} {s s1 : State}
    (executes : exec c s = .next (requestOf kind tag payload decode body s)) (settled : Settled s)
    (turn : InTurn ⟨kind, tag, payload⟩ s s1) (read : decode payload = some a)
    (refusal : body ⟨kind, tag, payload⟩ a s1 = answer ⟨kind, tag, payload⟩ code s1) :
    exec c s = .next { s1 with hlc := s1.hlc.answered ⟨kind, tag, payload⟩ code [] } := by
  rw [executes, requestOf_inTurn turn read, refusal, transmit_answer _ _ (turn.settled settled)]

/-- R176, R185: a request that is answered, writes other blocks than the link and re-derives the lamps. -/
theorem transmit_relamp_answered {r : Request} {code : ReplyCode} {s u : State} (settled : Settled s)
    (replied : u.hlc = (answer r code s).hlc) :
    transmit (relamp u) = relamp { u with hlc := s.hlc.answered r code [] } := by
  rw [transmit_relamp, transmit_eq, replied]
  exact congrArg (fun h => relamp { u with hlc := h }) (begun_replied r code [] settled)

/-- R183, R185: a payload that the layout does not allow is answered BAD_ARG. -/
theorem unread_inTurn {α : Type} {c : Instr} {kind tag : Byte} {payload : List Byte} {decode : List Byte → Option α}
    {body : Request → α → State → State} {s s1 : State}
    (executes : exec c s = .next (requestOf kind tag payload decode body s)) (settled : Settled s)
    (turn : InTurn ⟨kind, tag, payload⟩ s s1) (unread : decode payload = none) :
    exec c s = .next { s1 with hlc := s1.hlc.answered ⟨kind, tag, payload⟩ .badArg [] } := by
  rw [executes, requestOf, request_inTurn turn, unread]
  exact congrArg _ (transmit_answer _ _ (turn.settled settled))

/-! ### Domains and permission (R3 to R6) -/

theorem destDomainOf_byte (dom : DestDomain) : destDomainOf (destDomainByte dom) = some dom := by cases dom <;> rfl

theorem destDomainArgs_be16 {d : Nat} (dom : DestDomain) (h : d < 65536) :
    destDomainArgs (be16 d ++ [destDomainByte dom]) = some (d, dom) := by
  obtain ⟨a, b, bytes, value⟩ := be16_bytes h
  rw [bytes, ← value]
  exact congrArg (Option.map _) (destDomainOf_byte dom)

/-- Settles O14. -/
theorem setDestDomainWrites : Obligations.SetDestDomainWrites := by
  intro tag d dom s s1 hw settled turn
  have executes : exec (.setDestDomain tag (be16 d ++ [destDomainByte dom])) s =
      .next (requestOf 0x10 tag (be16 d ++ [destDomainByte dom]) destDomainArgs setDestDomain s) := rfl
  refine ⟨fun range => ?_, fun outside => ?_⟩
  · obtain ⟨u, hu, written, lamps⟩ := answered_writes_dests ⟨0x10, tag, be16 d ++ [destDomainByte dom]⟩ .ok
      (s1.setDest d { s1.dest d with domain := dom }).rc.dests (turn.settled settled)
    refine ⟨u, ?_, ?_, fun e he => ?_, lamps⟩
    · rw [executes, requestOf_inTurn turn (destDomainArgs_be16 dom hw), ← hu]
      unfold setDestDomain
      rw [if_pos (within_iff.2 range)]; rfl
    · rw [State.dest_congr written, ← turn.dest_eq]; exact s1.dest_setDest_self d _
    · rw [State.dest_congr written, ← turn.dest_eq]; exact s1.dest_setDest_ne he _
  · exact refused_inTurn executes settled turn (destDomainArgs_be16 dom hw) (if_neg (mt within_iff.1 outside))

/-- R4: a panel passes the domain check for a shared destination and for one of its own domain. -/
theorem domainPasses_panel (s : State) (p k d : Nat) : s.domainPasses (.panel p k) d = true ↔
    ∃ v, s.panel? p = some v ∧ ((s.dest d).domain = .shared ∨ (s.dest d).domain = .a ∧ v.domain = .a ∨
      (s.dest d).domain = .b ∧ v.domain = .b) := by
  unfold State.domainPasses
  cases declared : s.panel? p with
  | none => simp [declared]
  | some v => cases (s.dest d).domain <;> simp [declared]

/-- Settles O17. -/
theorem domainPermissionAndToggle : Obligations.DomainPermissionAndToggle := by
  refine ⟨fun _ _ _ => rfl, domainPasses_panel, fun p q k tag o force => ?_, fun s p d => ⟨fun fails => ?_, fun passes => ?_⟩⟩
  · exact ⟨rfl, if_pos rfl, fun h => if_neg h, rfl, rfl, rfl, rfl, rfl, rfl⟩
  · unfold State.toggled; rw [fails]; rfl
  · unfold State.toggled
    rw [if_pos passes]
    refine ⟨fun h => by rw [h], fun h => by rw [h]; exact if_pos rfl, fun q hq h => by rw [h]; exact if_neg hq, ?_⟩
    rintro (h | h) <;> rw [h]

/-! ### The mapping of a device (R11 to R13) -/

theorem levelOf_byte (l : Level) : levelOf (levelByte l) = some l := by cases l <;> rfl

theorem fabricArgs_be16 {n a : Byte} {l : Level} {first last : Nat} (hf : first < 65536) (hl : last < 65536) :
    fabricArgs ([n, levelByte l] ++ be16 first ++ be16 last ++ [a]) = some ⟨n.toNat, l, first, last, a.toNat⟩ := by
  obtain ⟨f1, f2, firstBytes, firstValue⟩ := be16_bytes hf
  obtain ⟨l1, l2, lastBytes, lastValue⟩ := be16_bytes hl
  rw [firstBytes, lastBytes, ← firstValue, ← lastValue]
  exact congrArg (Option.map _) (levelOf_byte l)

theorem fabricArgs_inRange_iff (a : FabricArgs) : a.inRange = true ↔
    1 ≤ a.device ∧ a.device ≤ 8 ∧ 1 ≤ a.first ∧ a.first ≤ a.last ∧ a.last ≤ 256 ∧ 1 ≤ a.address ∧ a.address ≤ 63 := by
  unfold FabricArgs.inRange
  simp only [Bool.and_eq_true, within_iff, decide_eq_true_eq]
  omega

/-- R11: what the checks 3 and 4 of SET_FABRIC refuse. -/
theorem rangeOrAddressTaken_iff (s : State) (l : Level) (first last address : Nat) :
    (s.rangeTaken l first last = true ∨ s.addressTaken address = true) ↔ ∃ e ∈ s.rc.devices.entries,
      (e.2.level = l ∧ e.2.first ≤ last ∧ first ≤ e.2.last) ∨ e.2.address = address := by
  unfold State.rangeTaken State.addressTaken Table.values
  simp only [List.any_eq_true, List.mem_map, exists_exists_and_eq_and, Bool.and_eq_true, beq_iff_eq, decide_eq_true_eq]
  constructor
  · rintro (⟨e, he, h⟩ | ⟨e, he, h⟩)
    · exact ⟨e, he, .inl ⟨h.1.1, h.1.2, h.2⟩⟩
    · exact ⟨e, he, .inr h⟩
  · rintro ⟨e, he, h | h⟩
    · exact .inl ⟨e, he, ⟨h.1, h.2.1⟩, h.2.2⟩
    · exact .inr ⟨e, he, h⟩

/-- Levels written change the destination table alone. -/
theorem writeLevels_eq (l : Level) (vs : List LevelState) (d : Nat) (s : State) :
    writeLevels l d vs s = { s with rc := { s.rc with dests := (writeLevels l d vs s).rc.dests } } := by
  induction vs generalizing d s with
  | nil => rfl
  | cons v vs ih => rw [writeLevels, ih]; rfl

theorem setLevel_dest_kept (s : State) (d e : Nat) (l : Level) (v : LevelState) :
    ((s.setLevel d l v).dest e).domain = (s.dest e).domain ∧ ((s.setLevel d l v).dest e).protect = (s.dest e).protect := by
  unfold State.setLevel
  by_cases he : e = d
  · subst he; rw [State.dest_setDest_self]; exact ⟨rfl, rfl⟩
  · rw [State.dest_setDest_ne _ he]; exact ⟨rfl, rfl⟩

/-- Levels written leave the domains and the protect states. -/
theorem writeLevels_dest_kept (l : Level) (vs : List LevelState) (d : Nat) (s : State) (e : Nat) :
    ((writeLevels l d vs s).dest e).domain = (s.dest e).domain ∧
      ((writeLevels l d vs s).dest e).protect = (s.dest e).protect := by
  induction vs generalizing d s with
  | nil => exact ⟨rfl, rfl⟩
  | cons v vs ih =>
    obtain ⟨domain, protect⟩ := ih (d + 1) (s.setLevel d l v)
    obtain ⟨domain', protect'⟩ := setLevel_dest_kept s d e l v
    exact ⟨domain.trans domain', protect.trans protect'⟩

/-- R11, R13: an accepted SET_FABRIC writes the two tables. -/
theorem mapDevice_eq (n : Nat) (a : FabricArgs) (s : State) : mapDevice n a s =
    { s with rc := { s.rc with dests := (mapDevice n a s).rc.dests, devices := (mapDevice n a s).rc.devices } } := by
  unfold mapDevice
  dsimp only
  rw [writeLevels_eq]; rfl

theorem mapDevice_device?_ne {m n : Nat} (h : m ≠ n) (a : FabricArgs) (s : State) :
    (mapDevice n a s).device? m = s.device? m := by
  unfold mapDevice
  rw [State.device?_setDevice_ne _ h, State.device?, writeLevels_devices]; rfl

theorem InTurn.devices_eq {r : Request} {s s1 : State} (turn : InTurn r s s1) : s1.rc.devices = s.rc.devices := by
  rw [turn.rc_eq]

theorem InTurn.device?_eq {r : Request} {s s1 : State} (turn : InTurn r s s1) (n : Nat) : s1.device? n = s.device? n := by
  rw [State.device?, turn.rc_eq]; rfl

theorem InTurn.levelAt_eq {r : Request} {s s1 : State} (turn : InTurn r s s1) (d : Nat) (l : Level) :
    s1.levelAt d l = s.levelAt d l := by
  rw [State.levelAt, turn.dest_eq]; rfl

/-- Settles O18: the checks of SET_FABRIC in order, then the mapping. -/
theorem setFabricMaps : Obligations.SetFabricMaps := by
  intro tag n a l first last s s1 r hf hl hr settled turn fits taken
  subst hr
  have read := fabricArgs_be16 (n := n) (a := a) (l := l) hf hl
  have executes : ∀ x, exec (.setFabric tag x) s = .next (requestOf 0x15 tag x fabricArgs setFabric s) := fun _ => rfl
  have inRange : (FabricArgs.mk n.toNat l first last a.toNat).inRange = true ↔ fits := fabricArgs_inRange_iff _
  have takenIff : s1.rangeTaken l first last = true ∨ s1.addressTaken a.toNat = true ↔ taken := by
    rw [rangeOrAddressTaken_iff, turn.devices_eq]
  refine ⟨fun outside => ?_, fun range mapped => ?_, fun range fresh clash => ?_, fun range fresh free => ?_⟩
  · refine refused_inTurn (executes _) settled turn read (if_pos ?_)
    rw [Bool.not_eq_true', Bool.eq_false_iff]; exact mt inRange.1 outside
  · refine refused_inTurn (executes _) settled turn read ?_
    unfold setFabric
    rw [inRange.2 range, turn.device?_eq, Option.isSome_iff_ne_none.2 mapped]; rfl
  · refine refused_inTurn (executes _) settled turn read ?_
    unfold setFabric
    rw [inRange.2 range, turn.device?_eq, fresh]
    rcases takenIff.2 clash with h | h
    · rw [h]; rfl
    · rw [h]; simp
  · obtain ⟨noRange, noAddress⟩ := not_or.1 (mt takenIff.1 free)
    let r : Request := ⟨0x15, tag, [n, levelByte l] ++ be16 first ++ be16 last ++ [a]⟩
    have accepted : setFabric r ⟨n.toNat, l, first, last, a.toNat⟩ s1 =
        relamp (mapDevice n.toNat ⟨n.toNat, l, first, last, a.toNat⟩ (answer r .ok s1)) := by
      unfold setFabric
      rw [inRange.2 range, turn.device?_eq, fresh, Bool.eq_false_iff.2 noRange, Bool.eq_false_iff.2 noAddress]; rfl
    let u := mapDevice n.toNat ⟨n.toNat, l, first, last, a.toNat⟩ (answer r .ok s1)
    let h := s1.hlc.answered r .ok []
    have shape : { u with hlc := h } =
        { s1 with hlc := h, rc := { s1.rc with dests := u.rc.dests, devices := u.rc.devices } } :=
      congrArg (fun x : State => { x with hlc := h }) (mapDevice_eq n.toNat ⟨n.toNat, l, first, last, a.toNat⟩ (answer r .ok s1))
    refine ⟨relamp { u with hlc := h }, ?_, State.device?_setDevice_self .., fun m hm => ?_, fun d k => ?_, fun d => ?_, ?_⟩
    · rw [executes, requestOf_inTurn turn read, accepted, transmit_relamp_answered (turn.settled settled) (mapDevice_hlc ..)]
    · exact (mapDevice_device?_ne hm _ _).trans (turn.device?_eq m)
    · rw [← turn.levelAt_eq]
      exact levelAt_mapDevice n.toNat ⟨n.toNat, l, first, last, a.toNat⟩ (answer r .ok s1) d k
    · rw [← turn.dest_eq]
      exact writeLevels_dest_kept l _ first (answer r .ok s1) d
    · exact shape ▸ relamp_follows { u with hlc := h }

/-! ### The retry of a device (R13, R18) -/

/-- R18: what FABRIC_FAULT is evaluated to. -/
theorem evaluateFabric_cases (s : State) : ∃ now, evaluateFabric s =
      { s with hlc := s.hlc.handed .fabricFault s.rc.fabricFault now, rc := { s.rc with fabricFault := now } } ∧
    (now = true ↔ s.fabricFaulted) := by
  unfold evaluateFabric
  refine ⟨_, handOver_eq .., ?_⟩
  unfold State.fabricFaulted Table.values
  rw [Bool.or_eq_true]
  refine or_congr ?_ ?_
  · simp
  · simp only [List.any_eq_true, List.mem_map, exists_exists_and_eq_and]
    refine exists_congr fun e => and_congr_right fun _ => ⟨?_, ?_⟩
    · rintro ⟨l, -, marked⟩
      cases held : e.2.levels.get l with
      | notFitted => rw [held] at marked; cases marked
      | fitted x f => rw [held] at marked; exact ⟨l, x, by rw [held, show f = true from marked]⟩
    · rintro ⟨l, x, held⟩
      exact ⟨l, by cases l <;> decide, by rw [held]⟩

/-- Settles O19. -/
theorem fabricRetryBegins : Obligations.FabricRetryBegins := by
  intro tag n s s1 r hr settled turn
  subst hr
  have executes : exec (.fabricRetry tag [n]) s = .next (requestOf 0x16 tag [n] byteArg fabricRetry s) := rfl
  have read : byteArg [n] = some n.toNat := rfl
  refine ⟨fun outside => ?_, fun range fresh => ?_, fun v kind begun range mapped reading => ?_, fun v range mapped idle => ?_⟩
  · exact refused_inTurn executes settled turn read (if_neg (mt within_iff.1 outside))
  · refine refused_inTurn executes settled turn read ?_
    unfold fabricRetry
    rw [if_pos (within_iff.2 range), turn.device?_eq, fresh]
  · refine refused_inTurn executes settled turn read ?_
    unfold fabricRetry
    rw [if_pos (within_iff.2 range), turn.device?_eq, mapped]
    simp [Device.inReadback, reading]
  · let r : Request := ⟨0x16, tag, [n]⟩
    let w : Device := { v with phase := .readback .retry s1.rc.window.isNone }
    have accepted : fabricRetry r n.toNat s1 = relamp (evaluateFabric ((answer r .ok s1).setDevice n.toNat w)) := by
      unfold fabricRetry
      rw [if_pos (within_iff.2 range), turn.device?_eq, mapped]
      have quiet : v.inReadback = false := by
        unfold Device.inReadback; rcases idle with h | h <;> rw [h]
      dsimp only
      rw [quiet]; rfl
    obtain ⟨now, evaluated, faulted⟩ := evaluateFabric_cases ((answer r .ok s1).setDevice n.toNat w)
    have leads := replied_leads r .ok [] (turn.settled settled)
    let t : State := { s1 with
      hlc := (s1.hlc.answered r .ok []).handed .fabricFault s1.rc.fabricFault now
      rc := { s1.rc with devices := (s1.setDevice n.toNat w).rc.devices, fabricFault := now } }
    refine ⟨relamp t, ?_, ?_, fun m hm => ?_, faulted, ?_⟩
    · rw [executes, requestOf_inTurn turn read, accepted, evaluated, transmit_relamp, transmit_eq]
      refine congrArg (fun h => Host.Outcome.next (relamp { t with hlc := h })) ?_
      exact (begun_handed leads _ _ _).1.trans (by rw [begun_replied _ _ _ (turn.settled settled)]; rfl)
    · rw [← turn.rc_eq]; exact State.device?_setDevice_self ..
    · exact (State.device?_setDevice_ne _ hm _).trans (turn.device?_eq m)
    · rw [← turn.rc_eq]; exact relamp_follows t

end Sys2Proof.Machine

/-! Readbacks and stored salvos: how a readback ends (R14 to R19), and SALVO_STORE (R26). -/

namespace Sys2Proof.Machine

/-! ### The end of a readback -/

/-- R16: READBACK_DONE is raised when the readback was a start-up one and none is in flight. -/
theorem readbackDone_raised (kind : ReadbackKind) (s : State) :
    RaisedIf .readbackDone (kind = .startUp ∧ ∀ e ∈ s.rc.devices.entries, ∀ b, e.2.phase ≠ .readback .startUp b)
      s.hlc (readbackDone kind s).hlc := by
  unfold readbackDone
  dsimp only
  have quiet : ((s.rc.devices.values.any fun v => match v.phase with | .readback .startUp _ => true | _ => false) = false) ↔
      ∀ e ∈ s.rc.devices.entries, ∀ b, e.2.phase ≠ .readback .startUp b := by
    unfold Table.values
    rw [List.any_eq_false]
    simp only [List.mem_map, forall_exists_index, and_imp, forall_apply_eq_imp_iff₂]
    refine forall₂_congr fun e _ => ?_
    cases e.2.phase with
    | readback k b => cases k <;> simp
    | _ => simp
  constructor
  · rintro ⟨startUp, none⟩
    rw [if_pos ⟨startUp, quiet.2 none⟩, raise_hlc]
  · intro other
    rw [if_neg fun h => other ⟨h.1, quiet.1 h.2⟩]

theorem readbackDone_eq (kind : ReadbackKind) (s : State) : readbackDone kind s = { s with hlc := (readbackDone kind s).hlc } := by
  unfold readbackDone
  dsimp only
  split
  · rw [raise_eq]
  · rfl

/-- R14 to R16, R18: what the end of the readback of device n, whose record is `v`, leaves before its route change. -/
structure ReadbackEnded (n : Nat) (v : Device) (kind : ReadbackKind) (phase : DevicePhase) (value : Nat → LevelState)
    (s u : State) : Prop where
  devices : ∀ m, u.device? m = if m = n then some { v with phase := phase } else s.device? m
  levels : ∀ d l, u.levelAt d l = if l = v.level ∧ v.first ≤ d ∧ d ≤ v.last then value (d - v.first) else s.levelAt d l
  kept : ∀ d, (u.dest d).domain = (s.dest d).domain ∧ (u.dest d).protect = (s.dest d).protect
  rest : u = { s with hlc := u.hlc, rc := { s.rc with
    dests := u.rc.dests, devices := u.rc.devices, fabricFault := u.rc.fabricFault } }
  fault : u.rc.fabricFault = true ↔ u.fabricFaulted
  flags : ∃ h, RaisedIf .readbackDone (kind = .startUp ∧ ∀ e ∈ u.rc.devices.entries, ∀ b, e.2.phase ≠ .readback .startUp b) s.hlc h ∧
    u.hlc = h.handed .fabricFault s.rc.fabricFault u.rc.fabricFault

theorem endReadback_ended (n : Nat) (v : Device) (kind : ReadbackKind) (phase : DevicePhase) {range : List LevelState}
    {value : Nat → LevelState} (s : State) (whole : range.length = v.width)
    (values : ∀ i, i < range.length → range.getD i .notFitted = value i) :
    ∃ u, endReadback n v kind phase range s = relamp (recomputeTally u) ∧ ReadbackEnded n v kind phase value s u := by
  let written := writeLevels v.level v.first range s
  let moved := written.setDevice n { v with phase := phase }
  obtain ⟨now, evaluated, faulted⟩ := evaluateFabric_cases (readbackDone kind moved)
  let u : State := { s with
    hlc := (readbackDone kind moved).hlc.handed .fabricFault s.rc.fabricFault now
    rc := { s.rc with dests := written.rc.dests, devices := moved.rc.devices, fabricFault := now } }
  have still : moved = { s with rc := { s.rc with dests := written.rc.dests, devices := moved.rc.devices } } :=
    congrArg (fun x : State => { x with rc := { x.rc with devices := moved.rc.devices } })
      (writeLevels_eq v.level range v.first s)
  have ends : evaluateFabric (readbackDone kind moved) = u := by
    rw [evaluated, readbackDone_eq kind moved]
    exact congrArg (fun x : State => { x with
      hlc := (readbackDone kind moved).hlc.handed .fabricFault x.rc.fabricFault now, rc := { x.rc with fabricFault := now } }) still
  have devices : ∀ m, u.device? m = if m = n then some { v with phase := phase } else s.device? m := fun m => by
    by_cases hm : m = n
    · rw [if_pos hm, hm]; exact State.device?_setDevice_self written n _
    · rw [if_neg hm]
      exact (State.device?_setDevice_ne written hm _).trans (congrArg (fun t => t.find? m) (writeLevels_devices ..))
  have levels : ∀ d l, u.levelAt d l =
      if l = v.level ∧ v.first ≤ d ∧ d ≤ v.last then value (d - v.first) else s.levelAt d l := fun d l => by
    have at_written : u.levelAt d l = _ := levelAt_writeLevels v.level range v.first s d l
    rw [at_written, whole]
    by_cases h : l = v.level ∧ v.first ≤ d ∧ d ≤ v.last
    · have inside : d < v.first + v.width := by unfold Device.width; omega
      rw [if_pos h, if_pos ⟨h.1, h.2.1, inside⟩, values _ (by omega)]
    · rw [if_neg h, if_neg fun h' => h ⟨h'.1, h'.2.1, by have := h'.2.2; unfold Device.width at this; omega⟩]
  have fault : now = true ↔ u.fabricFaulted := by
    rw [← ends, evaluated]; rw [readbackDone_eq] at faulted ⊢; exact faulted
  have raised := readbackDone_raised kind moved
  rw [show moved.hlc = s.hlc from writeLevels_hlc ..] at raised
  exact ⟨u, congrArg routeChange ends, devices, levels, fun d => writeLevels_dest_kept v.level range v.first s d, rfl, fault,
    _, raised, rfl⟩

theorem readLevel_eq (x : Nat) : readLevel x = if x ≤ 256 then .fitted x false else .fitted 0 true := by
  unfold readLevel
  by_cases h : x ≤ 256
  · rw [if_pos h, if_pos (within_iff.2 ⟨Nat.zero_le _, h⟩)]
  · rw [if_neg h, if_neg fun h' => h (within_iff.1 h').2]

/-- R58, R186: a readback that ends is a route change, and then a waiting message begins. -/
theorem readback_ends {n : Nat} {v : Device} {kind : ReadbackKind} {phase : DevicePhase} {range : List LevelState}
    {value : Nat → LevelState} {s : State} {c : Instr} (listed : ascending s.tt.roots.entries = true)
    (executes : exec c s = .next (transmit (endReadback n v kind phase range s))) (whole : range.length = v.width)
    (values : ∀ i, i < range.length → range.getD i .notFitted = value i) :
    ∃ u t : State, exec c s = .next { t with hlc := t.hlc.begun } ∧ ReadbackEnded n v kind phase value s u ∧ Retraced u t := by
  obtain ⟨u, ends, ended⟩ := endReadback_ended n v kind phase s whole values
  refine ⟨u, relamp (recomputeTally u), ?_, ended, relamp_recomputeTally u (by rw [ended.rest]; exact listed)⟩
  rw [executes, ends, transmit_eq]

theorem completeReadback_begun {n : Nat} {v : Device} {kind : ReadbackKind} {sources : List Nat} {s : State}
    (mapped : s.device? n = some v) (reading : v.phase = .readback kind true) (whole : sources.length = v.width) :
    completeReadback n sources s = endReadback n v kind .online (sources.map readLevel) s := by
  unfold completeReadback
  rw [mapped]
  dsimp only
  rw [reading]
  exact if_pos whole

theorem failReadback_begun {n : Nat} {v : Device} {kind : ReadbackKind} {s : State}
    (mapped : s.device? n = some v) (reading : v.phase = .readback kind true) :
    failReadback n s = endReadback n v kind .failed (List.replicate v.width (.fitted 0 true)) s := by
  unfold failReadback
  rw [mapped]
  dsimp only
  rw [reading]

/-- R15, R19: an answer for a device that is in no exchange completes nothing. -/
theorem readback_idle {n : Nat} {s : State} (idle : ∀ v kind, s.device? n = some v → v.phase ≠ .readback kind true)
    (sources : List Nat) : completeReadback n sources s = s ∧ failReadback n s = s := by
  unfold completeReadback failReadback
  cases mapped : s.device? n with
  | none => exact ⟨rfl, rfl⟩
  | some v =>
    dsimp only
    split
    · next kind reading => exact absurd reading (idle v kind mapped)
    · exact ⟨rfl, rfl⟩

/-- R15: an answer that does not cover the range completes nothing. -/
theorem completeReadback_partial {n : Nat} {v : Device} {sources : List Nat} {s : State} (mapped : s.device? n = some v)
    (part : sources.length ≠ v.width) : completeReadback n sources s = s := by
  unfold completeReadback
  rw [mapped]
  dsimp only
  split
  · exact if_neg part
  · rfl

/-- Settles O20. -/
theorem readbackEnds : Obligations.ReadbackEnds := by
  refine ⟨fun n v kind s mapped reading listed => ?_, fun _ _ _ => rfl, fun n sources s settled idle => ?_,
    fun n v sources s settled mapped part => ?_⟩
  · refine ⟨fun sources whole => ?_, ?_⟩
    · obtain ⟨u, t, e, ended, retraced⟩ := readback_ends (n := n) (v := v) (kind := kind) (phase := .online)
        (value := fun i => if sources.getD i 0 ≤ 256 then .fitted (sources.getD i 0) false else .fitted 0 true)
        (c := .readbackCompletion n sources) listed
        (congrArg (fun x => Host.Outcome.next (transmit x)) (completeReadback_begun mapped reading whole))
        (by rw [List.length_map]; exact whole) (fun i hi => by
          rw [List.length_map] at hi
          rw [List.getD_eq_getElem _ _ (by simpa using hi), List.getElem_map, readLevel_eq, List.getD_eq_getElem _ _ hi])
      exact ⟨u, t, e, ended.devices, ended.levels, ended.kept, ended.rest, ended.fault, ended.flags, retraced⟩
    · obtain ⟨u, t, e, ended, retraced⟩ := readback_ends (n := n) (v := v) (kind := kind) (phase := .failed)
        (value := fun _ => .fitted 0 true) (c := .readbackFailure n) listed
        (congrArg (fun x => Host.Outcome.next (transmit x)) (failReadback_begun mapped reading))
        List.length_replicate (fun i hi => by
          rw [List.getD_eq_getElem _ _ hi, List.getElem_replicate])
      exact ⟨u, t, e, ended.devices, ended.levels, ended.kept, ended.rest, ended.fault, ended.flags, retraced⟩
  · obtain ⟨completed, failed⟩ := readback_idle idle sources
    exact ⟨congrArg Host.Outcome.next ((congrArg transmit completed).trans (transmit_settled settled)),
      congrArg Host.Outcome.next ((congrArg transmit failed).trans (transmit_settled settled))⟩
  · exact congrArg Host.Outcome.next ((congrArg transmit (completeReadback_partial mapped part)).trans (transmit_settled settled))

/-! ### SALVO_STORE (R26) -/

theorem byte_toNat {n : Nat} (h : n < 256) : (byte n).toNat = n := by simp [byte]; omega

theorem flatten_length {α : Type} {width : Nat} {xs : List (List α)} (each : ∀ x ∈ xs, x.length = width) :
    xs.flatten.length = width * xs.length := by
  induction xs with
  | nil => rfl
  | cons x xs ih =>
    rw [List.flatten_cons, List.length_append, each x (List.mem_cons_self ..), ih fun y hy => each y (List.mem_cons_of_mem _ hy),
      List.length_cons, Nat.mul_succ, Nat.add_comm]

/-- R194: a counted list of fewer than 256 items of one width is read. -/
theorem countedBytes_counted {width : Nat} {xs : List (List Byte)} (short : xs.length < 256)
    (each : ∀ x ∈ xs, x.length = width) : countedBytes width (counted xs) = some xs.flatten := by
  unfold counted countedBytes
  exact if_pos (by rw [flatten_length each, byte_toNat short])

theorem salvoItems_entries {items : List (Nat × Byte × Nat)} (words : ∀ e ∈ items, e.1 < 65536 ∧ e.2.2 < 65536) :
    salvoItems (items.map fun e => be16 e.1 ++ [e.2.1] ++ be16 e.2.2).flatten =
      items.map fun e => (e.1, maskOf e.2.1, e.2.2) := by
  induction items with
  | nil => rfl
  | cons e es ih =>
    have ih := ih fun x hx => words x (List.mem_cons_of_mem _ hx)
    obtain ⟨hd, hx⟩ := words e (List.mem_cons_self ..)
    obtain ⟨d1, d2, destBytes, destValue⟩ := be16_bytes hd
    obtain ⟨x1, x2, sourceBytes, sourceValue⟩ := be16_bytes hx
    rw [List.map_cons, List.flatten_cons, List.map_cons, ← ih, destBytes, sourceBytes]
    simp [salvoItems, destValue, sourceValue]

theorem salvoStoreArgs_entries {n : Byte} {items : List (Nat × Byte × Nat)} (short : items.length < 256)
    (words : ∀ e ∈ items, e.1 < 65536 ∧ e.2.2 < 65536) :
    salvoStoreArgs (n :: counted (items.map fun e => be16 e.1 ++ [e.2.1] ++ be16 e.2.2)) =
      some (n.toNat, items.map fun e => (e.1, maskOf e.2.1, e.2.2)) := by
  have read := countedBytes_counted (width := 5) (xs := items.map fun e => be16 e.1 ++ [e.2.1] ++ be16 e.2.2)
    (by rw [List.length_map]; exact short) (by
      intro x hx
      obtain ⟨e, -, rfl⟩ := List.mem_map.1 hx
      rfl)
  show Option.map (fun bytes => (n.toNat, salvoItems bytes)) (countedBytes 5 (counted _)) = _
  rw [read, Option.map_some, salvoItems_entries words]

/-- R26, R194: an entry of a SALVO_STORE is one when its numbers and its mask are in range. -/
theorem storedEntry_eq (d : Nat) (m : Byte) (x : Nat) : storedEntry (d, maskOf m, x) =
    if 1 ≤ d ∧ d ≤ 256 ∧ m.toNat < 16 ∧ x ≤ 256 then
      some ⟨d, ⟨m.getLsbD 0, m.getLsbD 1, m.getLsbD 2, m.getLsbD 3⟩, x⟩
    else none := by
  unfold storedEntry maskOf
  by_cases named : m.toNat < 16
  · rw [if_pos named]
    simp only [Bool.and_eq_true, within_iff, named, Nat.zero_le, true_and, and_assoc]
  · rw [if_neg named, if_neg fun h => named h.2.2.1]

/-- Settles O22. -/
theorem salvoStoreReplaces : Obligations.SalvoStoreReplaces := by
  intro tag n items s s1 r short words hr settled turn fits
  subst hr
  have read := salvoStoreArgs_entries (n := n) short words
  have executes : ∀ x, exec (.salvoStore tag x) s = .next (requestOf 0x21 tag x salvoStoreArgs salvoStore s) := fun _ => rfl
  have inRange : (within 1 16 n.toNat && decide ((items.map fun e => (e.1, maskOf e.2.1, e.2.2)).length ≤ 32) &&
      (items.map fun e => (e.1, maskOf e.2.1, e.2.2)).all fun x => (storedEntry x).isSome) = true ↔ fits := by
    simp only [Bool.and_eq_true, within_iff, decide_eq_true_eq, List.length_map, List.all_map, List.all_eq_true, fits,
      Function.comp, storedEntry_eq, and_assoc]
    refine and_congr_right fun _ => and_congr_right fun _ => and_congr_right fun _ => forall₂_congr fun e _ => ?_
    split <;> simp [*]
  refine ⟨fun good => ?_, fun bad => ?_⟩
  · let r : Request := ⟨0x21, tag, n :: counted (items.map fun e => be16 e.1 ++ [e.2.1] ++ be16 e.2.2)⟩
    let entries := (items.map fun e => (e.1, maskOf e.2.1, e.2.2)).filterMap storedEntry
    have listed : entries = items.map fun e =>
        (⟨e.1, ⟨e.2.1.getLsbD 0, e.2.1.getLsbD 1, e.2.1.getLsbD 2, e.2.1.getLsbD 3⟩, e.2.2⟩ : StoredEntry) := by
      have each : ∀ e ∈ items, storedEntry (e.1, maskOf e.2.1, e.2.2) = some
          (⟨e.1, ⟨e.2.1.getLsbD 0, e.2.1.getLsbD 1, e.2.1.getLsbD 2, e.2.1.getLsbD 3⟩, e.2.2⟩ : StoredEntry) := fun e he => by
        rw [storedEntry_eq, if_pos (good.2.2.2 e he)]
      unfold entries
      rw [List.filterMap_map, ← List.filterMap_eq_map]
      exact List.filterMap_congr each
    have accepted : salvoStore r (n.toNat, items.map fun e => (e.1, maskOf e.2.1, e.2.2)) s1 =
        { answer r .ok s1 with rc := { s1.rc with salvos := s1.rc.salvos.set [] n.toNat entries } } :=
      if_pos (inRange.2 good)
    refine ⟨{ s1 with hlc := s1.hlc.answered r .ok [], rc := { s1.rc with salvos := s1.rc.salvos.set [] n.toNat entries } },
      ?_, rfl, ?_, fun k hk => ?_⟩
    · rw [executes, requestOf_inTurn turn read, accepted, transmit_eq]
      exact congrArg (fun h => Host.Outcome.next
        ({ s1 with hlc := h, rc := { s1.rc with salvos := s1.rc.salvos.set [] n.toNat entries } } : State))
        (begun_replied r .ok [] (turn.settled settled))
    · exact (Table.get_set_self ..).trans listed
    · refine (Table.get_set_ne _ _ hk _).trans ?_
      rw [turn.rc_eq]; rfl
  · exact refused_inTurn (executes _) settled turn read (if_neg (mt inRange.1 bad))

end Sys2Proof.Machine

/-! RESTART of the talk blocks and of the panel blocks (R95, R96, R157, R178, R190). -/

namespace Sys2Proof.Machine

/-! ### What taking a turn leaves -/

section
variable {r : Request} {s s1 : State}

theorem InTurn.stu_eq (turn : InTurn r s s1) : s1.stu = s.stu := by rw [turn.eq]
theorem InTurn.tt_eq (turn : InTurn r s s1) : s1.tt = s.tt := by rw [turn.eq]
theorem InTurn.tou_eq (turn : InTurn r s s1) : s1.tou = s.tou := by rw [turn.eq]
theorem InTurn.tc_eq (turn : InTurn r s s1) : s1.tc = s.tc := by rw [turn.eq]
theorem InTurn.tme_eq (turn : InTurn r s s1) : s1.tme = s.tme := by rw [turn.eq]
theorem InTurn.pbc_eq (turn : InTurn r s s1) : s1.pbc = s.pbc := by rw [turn.eq]
theorem InTurn.fd_eq (turn : InTurn r s s1) : s1.fd = s.fd := by rw [turn.eq]
theorem InTurn.pending_eq (turn : InTurn r s s1) : s1.pending = s.pending := by rw [turn.eq]

end

/-! ### What a handling reads and what the endings of talks leave -/

/-- R110: what is handed to the Talk Mix Engine is seen in the talks, the IFBs, the ports and the path table alone. -/
theorem MixHandled.of_same {a b c : State} (h : MixHandled a b) (talks : c.tc.talks = b.tc.talks) (ifbs : c.tc.ifbs = b.tc.ifbs)
    (ports : c.tc.ports = b.tc.ports) (tme : c.tme = b.tme) : MixHandled a c := by
  rcases h with handled | ⟨⟨sameIfbs, sameTalks⟩, still⟩
  · refine .inl ?_
    rw [tme, handled]
    exact (handling_tme_congr (b := a) (b' := a) (s := { b with tme := a.tme }) (s' := { c with tme := a.tme })
      rfl rfl ⟨talks, ifbs, ports, rfl⟩).symm
  · exact .inr ⟨⟨ifbs.trans sameIfbs, by rw [talks]; exact sameTalks⟩, tme.trans still⟩

/-- R185 to R188: the flags of the endings of talks go out behind the reply. -/
theorem endTalks_reported_behind {r : Request} {code : ReplyCode} {s u : State} (settled : Settled s) (ids : List Nat)
    (replied : u.hlc = (answer r code s).hlc) (tc : u.tc = s.tc) (tme : u.tme = s.tme) :
    ((endTalks ids u).hlc.leads r (replyTo r code [])) ∧
      TalkReported s (endTalks ids u) (s.hlc.answered r code []) (endTalks ids u).hlc.begun := by
  have behind := endTalks_reported ids u
  rw [replied] at behind
  obtain ⟨reported, leads⟩ := behind.begun (replied_leads r code [] settled)
  refine ⟨leads, ?_⟩
  rw [← begun_replied r code [] settled]
  exact reported.congr (by rw [tc]) tme.symm rfl rfl

theorem mem_talkIds {s : State} {f : Talk → Bool} {id : Nat} : id ∈ s.talkIds f ↔ ∃ x ∈ s.tc.talks, f x = true ∧ x.id = id := by
  unfold State.talkIds
  simp only [List.mem_map, List.mem_filter, and_assoc]

/-- R104, R110: with no talk the path table holds PROGRAM paths alone. -/
theorem handling_programs {b s : State} (none : s.tc.talks = []) {p : Path} (hp : p ∈ (handling b s).tme.paths) :
    ∃ n, p.kind = .program n := by
  have listed : p.unplaced ∈ (b.standings s).map fun x => x.1.unplaced :=
    handling_unplaced b s ▸ List.mem_map_of_mem hp
  obtain ⟨x, hx, same⟩ := List.mem_map.1 listed
  cases kind : p.kind with
  | program n => exact ⟨n, rfl⟩
  | talk =>
    have talk : x.1.kind = .talk := (congrArg Path.kind same).trans kind
    have joined := (mem_standings hx talk).1
    unfold State.talkPairs at joined
    rw [none] at joined
    exact absurd joined (by simp [withoutRepeats])

/-- R116: where the arbitration is in order, the ends of every talk leave each IFB idle. -/
theorem endTalks_all_ifbs {s : State} (arbitrated : IfbArbitrated s) (n : Nat) :
    (endTalks (s.talkIds fun _ => true) s).ifb? n = (s.ifb? n).map fun i => { i with current := none, level := 0, pending := [] } := by
  have active : ∀ id, (∃ t, s.talk? id = some t) → id ∈ s.talkIds fun _ => true := by
    rintro id ⟨t, ht⟩
    have found := List.find?_some ht
    exact mem_talkIds.2 ⟨t, List.mem_of_find?_eq_some ht, rfl, by simpa using found⟩
  obtain ⟨left, still⟩ := ifbsLeft_endTalks (s.talkIds fun _ => true) s
  by_cases some_talk : ∃ x ∈ s.tc.talks, x.id ∈ s.talkIds fun _ => true
  · unfold State.ifb?
    rw [left some_talk, Table.find?_mapValues]
    cases configured : s.tc.ifbs.find? n with
    | none => rfl
    | some i =>
      have pending : (i.pending.filter fun id => !(s.talkIds fun _ => true).contains id) = [] := by
        rw [List.filter_eq_nil_iff]
        intro id hid
        obtain ⟨-, t, ht, -⟩ := arbitrated.pending n i id configured hid
        simpa using active id ⟨t, ht⟩
      rw [Option.map_some, Option.map_some]
      unfold State.withoutTalks
      rw [pending]
      cases current : i.current with
      | none =>
        obtain ⟨level, -⟩ := arbitrated.idle n i configured current
        rw [level]
      | some c =>
        obtain ⟨t, ht, -⟩ := arbitrated.current n i c configured current
        have ended := active c ⟨t, ht⟩
        rw [← List.contains_iff_mem] at ended
        dsimp only
        rw [if_pos ended]
  · have empty : s.tc.talks = [] := List.eq_nil_iff_forall_not_mem.2 fun x hx =>
      some_talk ⟨x, hx, mem_talkIds.2 ⟨x, hx, rfl, rfl⟩⟩
    unfold State.ifb?
    rw [still (by rw [empty]; simp)]
    cases configured : s.tc.ifbs.find? n with
    | none => rfl
    | some i =>
      cases current : i.current with
      | none =>
        obtain ⟨level, pending⟩ := arbitrated.idle n i configured current
        exact congrArg some (by rw [← current, ← level, ← pending])
      | some c =>
        obtain ⟨t, ht, -⟩ := arbitrated.current n i c configured current
        have := List.mem_of_find?_eq_some ht
        rw [empty] at this; cases this

/-! ### RESTART(TALK) -/

/-- R113: the arbitration is told by the Talk Controller. -/
theorem IfbArbitrated.of_tc {s t : State} (h : IfbArbitrated s) (tc : t.tc = s.tc) : IfbArbitrated t := by
  cases s; cases t
  dsimp only at tc
  subst tc
  exact ⟨h.idle, h.current, h.pending, h.room, h.order, h.complete, h.preempted⟩

theorem endTalks_tc_eq (ids : List Nat) (s : State) :
    (endTalks ids s).tc = { s.tc with talks := (endTalks ids s).tc.talks, ifbs := (endTalks ids s).tc.ifbs } := by
  unfold endTalks
  split
  · simp only [announceInterrupters_tc, handling_tc]; rfl
  · rfl

/-- R104, R110: when every talk ends, PROGRAM paths alone are left. -/
theorem endTalks_all_paths {s : State} (talks : s.tc.talks ≠ []) {p : Path}
    (hp : p ∈ (endTalks (s.talkIds fun _ => true) s).tme.paths) : ∃ n, p.kind = .program n := by
  have empty := endTalks_all s
  unfold endTalks at hp empty
  obtain ⟨x, hx⟩ := List.exists_mem_of_ne_nil _ talks
  have some_ended : (s.tc.talks.any fun t => (s.talkIds fun _ => true).contains t.id) = true :=
    List.any_eq_true.2 ⟨x, hx, List.contains_iff_mem.2 (mem_talkIds.2 ⟨x, hx, rfl, rfl⟩)⟩
  rw [if_pos some_ended] at hp empty
  rw [announceInterrupters_tc, handling_tc] at empty
  rw [announceInterrupters_tme] at hp
  exact handling_programs empty hp

/-- Settles O6. -/
theorem restartTalkScope : Obligations.RestartTalkScope := by
  intro tag s s1 settled arbitrated turn
  let r : Request := ⟨0xA1, tag, [2]⟩
  let a : State := { answer r .ok s1 with fd := { s1.fd with contexts := ⟨[]⟩ } }
  let ended := endTalks (a.talkIds fun _ => true) a
  let quiet : State := { idleAllKeys ended with tc := { (idleAllKeys ended).tc with counter := 1 } }
  have executes : exec (.restartTalk tag [2]) s = .next (requestOf 0xA1 tag [2] byteArg restart s) := rfl
  have read : byteArg [2] = some 2 := rfl
  obtain ⟨leads, reported⟩ := endTalks_reported_behind (u := a) (turn.settled settled) (a.talkIds fun _ => true) rfl rfl rfl
  let t := relamp { quiet with hlc := quiet.hlc.begun }
  have tc : t.tc = { s.tc with talks := [], counter := 1, keys := t.tc.keys, ifbs := t.tc.ifbs } := by
    show { ended.tc with keys := ⟨[]⟩, counter := 1 } = ({ s.tc with talks := [], counter := 1, keys := ⟨[]⟩, ifbs := ended.tc.ifbs } : TalkController)
    rw [endTalks_tc_eq, endTalks_all a, ← turn.tc_eq]; rfl
  have fd : t.fd = { s.fd with contexts := ⟨[]⟩ } := by
    show ended.fd = _
    rw [endTalks_fd, ← turn.fd_eq]
  refine ⟨t, ?_, ?_, ?_, ?_, ?_, ?_, endTalks_all a, rfl, fun p k => rfl, tc, fun n => ?_, fun talks p hp => ?_, ?_, fd, ?_, ?_⟩
  · rw [executes, requestOf_inTurn turn read]
    show Host.Outcome.next (transmit (relamp quiet)) = _
    rw [transmit_relamp, transmit_eq]
  · exact (endTalks_rc ..).trans turn.rc_eq
  · exact (endTalks_stu ..).trans turn.stu_eq
  · exact (endTalks_tt ..).trans turn.tt_eq
  · exact (endTalks_tou ..).trans turn.tou_eq
  · exact (endTalks_pending ..).trans turn.pending_eq
  · refine (endTalks_all_ifbs (s := a) (arbitrated.of_tc turn.tc_eq) n).trans ?_
    show (s1.ifb? n).map _ = _
    rw [State.ifb?, turn.tc_eq]; rfl
  · exact endTalks_all_paths (s := a) (by show s1.tc.talks ≠ []; rw [turn.tc_eq]; exact talks) hp
  · exact ((endTalks_mixed (a.talkIds fun _ => true) a).congr (a' := s) turn.tc_eq.symm turn.tme_eq.symm rfl rfl).of_same rfl rfl rfl rfl
  · refine relamped_tc _ _ ?_
    show ended.pbc = s.pbc
    rw [endTalks_pbc, ← turn.pbc_eq]; rfl
  · exact reported.congr (by rw [turn.tc_eq]) turn.tme_eq.symm rfl rfl

end Sys2Proof.Machine

/-! RESTART of the panel blocks (R49, R72, R95, R96, R157, R178, R190). -/

namespace Sys2Proof.Machine

/-! ### The mixers and the calls -/

/-- R49: one mixer marked stale when its source is a bridge. -/
def staleIfBridge (s : State) (m : Nat) : State :=
  if (s.mixer m).source = .system then s else s.setMixer m (s.mixer m).allStale

theorem mixer_staleIfBridge (s : State) (m k : Nat) : (staleIfBridge s m).mixer k =
    if k = m ∧ (s.mixer k).source ≠ .system then (s.mixer k).allStale else s.mixer k := by
  unfold staleIfBridge
  by_cases system : (s.mixer m).source = .system
  · rw [if_pos system, if_neg fun h => h.2 (h.1 ▸ system)]
  · rw [if_neg system]
    by_cases hk : k = m
    · subst hk; rw [State.mixer_setMixer_self, if_pos ⟨rfl, system⟩]
    · rw [State.mixer_setMixer_ne _ hk, if_neg fun h => hk h.1]

theorem mixer_staleAllBridges (s : State) (m : Nat) : (staleAllBridges s).mixer m =
    if within 1 2 m = true ∧ (s.mixer m).source ≠ .system then (s.mixer m).allStale else s.mixer m := by
  have steps : staleAllBridges s = staleIfBridge (staleIfBridge s 1) 2 := rfl
  rw [steps, mixer_staleIfBridge, mixer_staleIfBridge]
  simp only [within_iff]
  by_cases first : m = 1
  · subst first; simp
  · by_cases second : m = 2
    · subst second; simp
    · rw [if_neg fun h => second h.1, if_neg fun h => first h.1, if_neg fun h => by omega]

theorem tt_staleAllBridges (s : State) : (staleAllBridges s).tt = { s.tt with mixers := (staleAllBridges s).tt.mixers } := by
  have steps : staleAllBridges s = staleIfBridge (staleIfBridge s 1) 2 := rfl
  have kept : ∀ x m, (staleIfBridge x m).tt = { x.tt with mixers := (staleIfBridge x m).tt.mixers } := fun x m => by
    unfold staleIfBridge; split <;> rfl
  rw [steps, kept, kept]

/-- R69: a new list of call holders, and the drives over it. -/
theorem setHolders_tou (l : List CallEntry) (s : State) :
    (setHolders l s).tou = { s.tou with holders := l, outputs := (setHolders l s).tou.outputs } ∧ SameOutputs s (setHolders l s) :=
  ⟨rfl, fun n => by unfold setHolders; rw [output_driveAll]; exact ⟨rfl, rfl⟩⟩

theorem dropAllCalls_tou (s : State) :
    (dropAllCalls s).tou = { s.tou with holders := [], outputs := (dropAllCalls s).tou.outputs } ∧ SameOutputs s (dropAllCalls s) := by
  unfold dropAllCalls
  split
  · next empty => rw [← List.isEmpty_iff.1 empty]; exact ⟨rfl, fun n => ⟨rfl, rfl⟩⟩
  · exact setHolders_tou [] s

/-! ### The panel bus -/

/-- R157: a panel record after a restart: its lamps alone are taken over, and none is known. -/
theorem Panel.restarted_eq (v : Panel) : ∃ lamps : Table LampCell,
    v.restarted = { v with state := .absent, missed := 0, page := false, scan := 1, lamps := lamps } ∧
      ∀ k, within 1 64 k = true → (lamps.get LampCell.start k).sent = none := by
  let w : Panel := { v with state := .absent, missed := 0, page := false, scan := 1 }
  refine ⟨_, (Panel.forget_lamps (numbers 1 64) w 0).1, fun k hk => ?_⟩
  have forgotten := (Panel.forget_lamps (numbers 1 64) w k).2
  rw [if_pos (mem_numbers.2 hk)] at forgotten
  exact congrArg LampCell.sent forgotten

/-- R156: with no panel DEGRADED, PANEL_ERRORS is false. -/
theorem evaluatePanelErrors_none {s : State} (none : ∀ e ∈ s.pbc.panels.entries, e.2.state ≠ .degraded) :
    evaluatePanelErrors s = { s with
      hlc := s.hlc.handed .panelErrors s.pbc.panelErrors false, pbc := { s.pbc with panelErrors := false } } := by
  have now : (s.pbc.panels.values.any fun v => v.state == .degraded) = false := by
    rw [List.any_eq_false]
    intro v hv
    obtain ⟨e, he, rfl⟩ := List.mem_map.1 hv
    simpa using none e he
  unfold evaluatePanelErrors
  rw [now, handOver_eq]

/-- R137: what the start of a cycle leaves of the panel bus. -/
structure CycleKeeps (a b : PanelBus) : Prop where
  events : b.events = a.events
  odd : b.odd = a.odd
  mode : b.mode = a.mode
  threshold : b.threshold = a.threshold
  panelErrors : b.panelErrors = a.panelErrors
  newCycle : b.newCycle = a.newCycle

theorem CycleKeeps.restarted {b c : PanelBus} {n : Nat} (h : CycleKeeps { b with lastPolled := n } c) : CycleKeeps b c :=
  ⟨h.events, h.odd, h.mode, h.threshold, h.panelErrors, h.newCycle⟩

theorem sendPoll_keeps (p : Nat) (b : PanelBus) : CycleKeeps b (sendPoll p b) := by
  unfold sendPoll; split <;> exact ⟨rfl, rfl, rfl, rfl, rfl, rfl⟩

theorem sendProbe_keeps (p : Nat) (b : PanelBus) : CycleKeeps b (sendProbe p b) := by
  unfold sendProbe; split <;> exact ⟨rfl, rfl, rfl, rfl, rfl, rfl⟩

theorem startCycle_keeps (b : PanelBus) : CycleKeeps b (startCycle b) := by
  unfold startCycle
  dsimp only
  split
  · exact (sendPoll_keeps _ { b with lastPolled := 0 }).restarted
  · split
    · exact (sendProbe_keeps _ { b with lastPolled := 0 }).restarted
    · exact ⟨rfl, rfl, rfl, rfl, rfl, rfl⟩

/-- R137: with every panel ABSENT none qualifies for a poll, and the start of a cycle leaves the panels. -/
theorem startCycle_panels {b : PanelBus} (absent : ∀ p v, b.panels.find? p = some v → v.state = .absent) :
    (startCycle b).panels = b.panels := by
  have no_poll : ({ b with lastPolled := 0 } : PanelBus).nextPoll = none := by
    unfold PanelBus.nextPoll
    rw [List.find?_eq_none]
    intro p _
    dsimp only
    cases declared : b.panels.find? p with
    | none => simp
    | some v => dsimp only; rw [absent p v declared]; simp [PanelBus.polls]
  unfold startCycle
  dsimp only
  rw [no_poll]
  dsimp only
  split
  · exact sendProbe_panels _ _
  · rfl

/-- R157: the bus after a restart: with a transaction in flight the new cycle waits for its end. -/
def PanelBus.resumed (b : PanelBus) : PanelBus := if b.transaction.isSome then b else startCycle b

theorem resumed_keeps (b : PanelBus) : CycleKeeps b b.resumed := by
  unfold PanelBus.resumed
  split
  · exact ⟨rfl, rfl, rfl, rfl, rfl, rfl⟩
  · exact startCycle_keeps b

theorem resumed_panels {b : PanelBus} (absent : ∀ p v, b.panels.find? p = some v → v.state = .absent) :
    b.resumed.panels = b.panels := by
  unfold PanelBus.resumed
  split
  · rfl
  · exact startCycle_panels absent

/-- R174: a lamp reads the page, the access level and the domain of its panel's record. -/
theorem lampOf_record (s : State) (p k : Nat) {v w : Panel} (page : w.page = v.page) (access : w.access = v.access)
    (domain : w.domain = v.domain) : s.lampOf p k w = s.lampOf p k v := by
  have shown : ∀ a, s.functionLamp p k w a = s.functionLamp p k v a := fun a => by
    unfold State.functionLamp; rw [domain, page]
  have allowed : ∀ f : KeyFunction, f.allows w = f.allows v := fun f => by
    unfold KeyFunction.allows; rw [access, domain]
  unfold State.lampOf
  simp only [page, shown, allowed]

/-! ### RESTART(PANELS) -/

/-- R95, R96: with distinct ids, the talks that are left are those that no panel holds. -/
theorem endTalks_ofAnyPanel {s : State} (distinct : (s.tc.talks.map fun t => t.id).Nodup) (f : Talk → Bool) :
    SameTalks (endTalks (s.talkIds f) s).tc.talks (s.tc.talks.filter fun x => !f x) := by
  have left := endTalks_talks (s.talkIds f) s
  have same : (s.tc.talks.filter fun t => !(s.talkIds f).contains t.id) = s.tc.talks.filter fun x => !f x := by
    refine List.filter_congr fun x hx => ?_
    have ended : (s.talkIds f).contains x.id = f x := by
      rw [Bool.eq_iff_iff, List.contains_iff_mem, mem_talkIds]
      refine ⟨?_, fun h => ⟨x, hx, h, rfl⟩⟩
      rintro ⟨y, hy, h, same⟩
      rw [← List.inj_on_of_nodup_map distinct hy hx same]; exact h
    rw [ended]
  rwa [same] at left

/-- R157, R190: the state that RESTART(PANELS) leaves before the lamps and the new cycle, but for the flags of the panels. -/
def panelsRestarted (s : State) : State :=
  let s1 := { s with
    pbc := restartBus s.pbc
    fd := { s.fd with contexts := ⟨[]⟩, held := ⟨[]⟩ } }
  staleAllBridges (dropAllCalls (idleAllKeys (endTalks (s1.talkIds Talk.ofAnyPanel) s1)))

/-- R152: the link after PANEL_STATE is raised when a panel was not ABSENT. -/
def panelsLeft (s : State) (h : HostLink) : HostLink :=
  if s.pbc.panels.values.any fun v => v.state != .absent then h.raised .panelState else h

theorem panelsLeft_raised (s : State) (h : HostLink) :
    RaisedIf .panelState (∃ e ∈ s.pbc.panels.entries, e.2.state ≠ .absent) h (panelsLeft s h) := by
  have changed : (s.pbc.panels.values.any fun v => v.state != .absent) = true ↔ ∃ e ∈ s.pbc.panels.entries, e.2.state ≠ .absent := by
    simp [Table.values]
  unfold panelsLeft
  exact ⟨fun h' => if_pos (changed.2 h'), fun h' => if_neg (mt changed.1 h')⟩

/-- R152, R156, R157: RESTART(PANELS), its flags and its lamps apart from the rest. -/
theorem restartPanels_eq (s : State) : restartPanels s =
    let u := panelsRestarted s
    let t := relamp { u with
      hlc := (panelsLeft s u.hlc).handed .panelErrors s.pbc.panelErrors false
      pbc := { restartBus s.pbc with panelErrors := false } }
    { t with pbc := t.pbc.resumed } := by
  let u := panelsRestarted s
  have bus : u.pbc = restartBus s.pbc := by simp [u, panelsRestarted]
  have none : ∀ h : HostLink, ∀ e ∈ ({ u with hlc := h } : State).pbc.panels.entries, e.2.state ≠ .degraded := fun _ e he => by
    replace he : e ∈ u.pbc.panels.entries := he
    rw [bus] at he
    obtain ⟨x, -, rfl⟩ := List.mem_map.1 he
    obtain ⟨lamps, restarted, -⟩ := x.2.restarted_eq
    dsimp only
    rw [restarted]; simp
  have flags : (if s.pbc.panels.values.any fun v => v.state != .absent then panelStateChanged u else evaluatePanelErrors u) =
      { u with hlc := (panelsLeft s u.hlc).handed .panelErrors s.pbc.panelErrors false
               pbc := { restartBus s.pbc with panelErrors := false } } := by
    have errors : u.pbc.panelErrors = s.pbc.panelErrors := by rw [bus]; rfl
    unfold panelsLeft
    split
    · rw [panelStateChanged, raise_eq, evaluatePanelErrors_none (none _), ← bus, ← errors]
    · rw [evaluatePanelErrors_none (none u.hlc), ← bus, ← errors]
  have steps : restartPanels s = (fun x => if (relamp x).pbc.transaction.isSome then relamp x else
      { relamp x with pbc := startCycle (relamp x).pbc })
      (if s.pbc.panels.values.any fun v => v.state != .absent then panelStateChanged u else evaluatePanelErrors u) := rfl
  rw [steps, flags]
  dsimp only
  unfold PanelBus.resumed
  split <;> rfl

/-- R157, R176: the panels of a bus that has been restarted, with the lamps re-derived. -/
theorem restarted_panels {u : State} {b : PanelBus} (bus : u.pbc.panels = (restartBus b).panels) :
    (∀ p, b.panels.find? p = none → (relamp u).panel? p = none) ∧
    ∀ p v, b.panels.find? p = some v → ∃ lamps : Table LampCell,
      (relamp u).panel? p = some { v with state := .absent, missed := 0, page := false, scan := 1, lamps := lamps } ∧
        ∀ k, within 1 64 k = true → lamps.get LampCell.start k = ⟨(relamp u).lampOf p k { v with page := false }, none⟩ := by
  have before : ∀ p, u.panel? p = (b.panels.find? p).map fun v => v.restarted := fun p => by
    rw [State.panel?, bus]; exact Table.find?_mapValues ..
  have follows := relamp_relamped u
  refine ⟨fun p undeclared => follows.undeclared p (by rw [before, undeclared]; rfl), fun p v declared => ?_⟩
  obtain ⟨old, restarted, unknown⟩ := v.restarted_eq
  obtain ⟨lamps, after, cells⟩ := follows.declared p v.restarted (by rw [before, declared]; rfl)
  refine ⟨lamps, by rw [after, restarted], fun k hk => ?_⟩
  obtain ⟨sent, desired⟩ := cells k
  have forgotten : (v.restarted.lamp k).sent = none := by rw [restarted]; exact unknown k hk
  have shows : (relamp u).lampOf p k v.restarted = (relamp u).lampOf p k { v with page := false } := by
    rw [restarted]; exact lampOf_record _ p k rfl rfl rfl
  rw [← shows, ← desired hk, ← forgotten, ← sent]

/-- Settles O5. -/
theorem restartPanelsScope : Obligations.RestartPanelsScope := by
  intro tag s s1 settled turn distinct
  let r : Request := ⟨0xA1, tag, [1]⟩
  let a : State := answer r .ok s1
  let b : State := { a with pbc := restartBus a.pbc, fd := { a.fd with contexts := ⟨[]⟩, held := ⟨[]⟩ } }
  let ended := endTalks (b.talkIds Talk.ofAnyPanel) b
  let quiet := panelsRestarted a
  let link := (panelsLeft a quiet.hlc).handed .panelErrors a.pbc.panelErrors false
  let lit : State := relamp { quiet with hlc := link, pbc := { restartBus a.pbc with panelErrors := false } }
  let t : State := { lit with hlc := link.begun, pbc := lit.pbc.resumed }
  have executes : exec (.restartPanels tag [1]) s = .next (requestOf 0xA1 tag [1] byteArg restart s) := rfl
  have read : byteArg [1] = some 1 := rfl
  have result : exec (.restartPanels tag [1]) s = .next t := by
    rw [executes, requestOf_inTurn turn read]
    show Host.Outcome.next (transmit (restartPanels a)) = _
    rw [restartPanels_eq, transmit_eq]; rfl
  have tc : quiet.tc = { ended.tc with keys := ⟨[]⟩ } := by
    unfold quiet panelsRestarted
    rw [staleAllBridges_tc, dropAllCalls_tc]; rfl
  have tme : quiet.tme = ended.tme := by simp [quiet, panelsRestarted, ended, b]
  have hlc : quiet.hlc = ended.hlc := by simp [quiet, panelsRestarted, ended, b]
  have tou : quiet.tou = (dropAllCalls (idleAllKeys ended)).tou := by simp [quiet, panelsRestarted, ended, b]
  obtain ⟨undeclared, declared⟩ := restarted_panels (b := s.pbc)
    (u := { quiet with hlc := link, pbc := { restartBus a.pbc with panelErrors := false } })
    (by show (restartBus s1.pbc).panels = _; rw [turn.pbc_eq])
  have calls : (idleAllKeys ended).tou = s.tou := by rw [← turn.tou_eq]; exact endTalks_tou ..
  have absent : ∀ p v, lit.pbc.panels.find? p = some v → v.state = .absent := fun p v found => by
    cases before : s.pbc.panels.find? p with
    | none => rw [show lit.pbc.panels.find? p = none from undeclared p before] at found; cases found
    | some w =>
      obtain ⟨lamps, after, -⟩ := declared p w before
      cases Option.some.inj (found.symm.trans after); rfl
  have kept := resumed_keeps lit.pbc
  have panels : t.pbc.panels = lit.pbc.panels := resumed_panels absent
  obtain ⟨leads, reported⟩ := endTalks_reported_behind (u := b) (turn.settled settled) (b.talkIds Talk.ofAnyPanel) rfl rfl rfl
  have talkFlags : TalkReported s t (s1.hlc.answered r .ok []) ended.hlc.begun :=
    reported.congr (by rw [turn.tc_eq]) turn.tme_eq.symm (by show quiet.tc.ifbs = _; rw [tc]) tme
  have panelFlag := panelsLeft_raised a quiet.hlc
  rw [hlc] at panelFlag
  obtain ⟨panelFlag, leads⟩ := panelFlag.begun leads
  rw [show a.pbc = s.pbc from turn.pbc_eq] at panelFlag
  have shape : quiet.tc = { s.tc with talks := quiet.tc.talks, ifbs := quiet.tc.ifbs, keys := quiet.tc.keys } := by
    rw [tc, endTalks_tc_eq, ← turn.tc_eq]; rfl
  refine ⟨t, result, ?_, ?_, ?_, ?_, fun m => ?_, ?_, ?_, ?_, ?_, shape, ?_, fun p k => ?_, ?_, kept.events, kept.odd, ?_, ?_,
    fun x transaction => ?_, fun p none => ?_, fun p v some => ?_, _, _, talkFlags, panelFlag, ?_, kept.panelErrors⟩
  · show quiet.rc = _
    simp [quiet, panelsRestarted, a, turn.rc_eq]
  · show quiet.stu = _
    simp [quiet, panelsRestarted, a, turn.stu_eq]
  · show quiet.pending = _
    simp [quiet, panelsRestarted, a, turn.pending_eq]
  · show quiet.tt = { s.tt with mixers := quiet.tt.mixers }
    unfold quiet panelsRestarted
    rw [tt_staleAllBridges]
    simp [a, turn.tt_eq]
  · have mixers : ∀ x : State, x.tt = s.tt → x.mixer m = s.mixer m := fun x h => by rw [State.mixer, h]; rfl
    show quiet.mixer m = _
    unfold quiet panelsRestarted
    dsimp only
    rw [mixer_staleAllBridges, mixers]
    simp [a, turn.tt_eq]
  · show quiet.tou = { s.tou with holders := [], outputs := quiet.tou.outputs }
    rw [tou, (dropAllCalls_tou _).1, calls]
  · intro n
    have same := (dropAllCalls_tou (idleAllKeys ended)).2 n
    rw [show t.output n = (dropAllCalls (idleAllKeys ended)).output n by show quiet.tou.outputs.get _ n = _; rw [tou]; rfl]
    rw [show s.output n = (idleAllKeys ended).output n by rw [State.output, State.output, calls]]
    exact same
  · show SameTalks quiet.tc.talks _
    rw [tc, ← turn.tc_eq]
    exact endTalks_ofAnyPanel (s := b) (by show (s1.tc.talks.map _).Nodup; rw [turn.tc_eq]; exact distinct) _
  · exact ((endTalks_mixed (b.talkIds Talk.ofAnyPanel) b).congr (a' := s) turn.tc_eq.symm turn.tme_eq.symm rfl rfl).of_same
      (by show quiet.tc.talks = _; rw [tc]) (by show quiet.tc.ifbs = _; rw [tc]) (by show quiet.tc.ports = _; rw [tc]) tme
  · have ids : b.talkIds Talk.ofAnyPanel = (s.tc.talks.filter fun x => x.ofAnyPanel).map fun x => x.id := by
      rw [← turn.tc_eq]; rfl
    rw [← ids]
    exact (ifbsLeft_endTalks (b.talkIds Talk.ofAnyPanel) b).congr (congrArg TalkController.talks turn.tc_eq.symm) (congrArg TalkController.ifbs turn.tc_eq.symm)
      (by show quiet.tc.talks = _; rw [tc]) (by show quiet.tc.ifbs = _; rw [tc])
  · show quiet.key p k = _
    rw [State.key, tc]; rfl
  · show quiet.fd = _
    simp [quiet, panelsRestarted, a, turn.fd_eq]
  · exact kept.mode.trans (by rw [← turn.pbc_eq]; rfl)
  · exact kept.threshold.trans (by rw [← turn.pbc_eq]; rfl)
  · have waiting : lit.pbc.transaction = some { x with discard := true } := by
      show discarded s1.pbc.transaction = _
      rw [turn.pbc_eq, transaction]; rfl
    have still : t.pbc = lit.pbc := if_pos (by rw [waiting]; rfl)
    rw [still]
    refine ⟨waiting, ?_, rfl⟩
    show s1.pbc.transaction.isSome = true
    rw [turn.pbc_eq, transaction]; rfl
  · rw [State.panel?, panels]; exact undeclared p none
  · rw [State.panel?, panels]; exact declared p v some
  · show link.begun = _
    unfold link
    rw [hlc, (begun_handed leads _ _ _).1, show a.pbc = s.pbc from turn.pbc_eq]

end Sys2Proof.Machine

/-! Takes and salvo firings: their checks, supersession, and the counts of a firing (R22 to R28). -/

namespace Sys2Proof.Machine

/-! ### The rules of an entry, of a device and of the room -/

theorem deviceRule (s : State) (d : Nat) (l : Level) : DeviceRule s d l := by
  constructor
  · intro v; unfold Device.covers; simp [and_assoc]
  · unfold State.readbackAt State.coveredBy
    rw [← deviceOf?_eq]
    cases covered : s.deviceOf? d l with
    | none => simp
    | some e =>
      obtain ⟨n, v⟩ := e
      unfold Device.inReadback
      cases phase : v.phase with
      | readback kind begun => exact ⟨fun _ => ⟨n, v, kind, begun, rfl, phase⟩, fun _ => by dsimp only; rw [phase]⟩
      | _ => simp [phase]
  · unfold State.onlineAt State.coveredBy
    rw [← deviceOf?_eq]
    cases covered : s.deviceOf? d l with
    | none => simp
    | some e =>
      obtain ⟨n, v⟩ := e
      simp
  · intro n v covered
    unfold State.deviceNumber
    rw [deviceOf?_eq, show _ = some (n, v) from covered]

theorem roomRule (s : State) : RoomRule s := by
  refine ⟨rfl, fun h => ?_, fun w h => ?_⟩ <;> unfold State.drawnEntries <;> rw [h]

/-- R22: the checks 3 to 5 of an entry, over its trimmed mask. -/
theorem checkEntry_trimmed {s : State} {e : Entry} {mask : LevelMask} (trims : s.trims e mask) : s.checkEntry e =
    if mask.isEmpty then .error .badArg
    else if s.domainPasses e.origin e.dest then
      match permission (s.dest e.dest).protect e.origin e.force with
      | some why => .error why
      | none => if mask.list.any (s.readbackAt e.dest) then .error .busy else .ok { e with mask := mask }
    else .error .denied := by
  unfold State.checkEntry
  rw [trims.eq]
  exact if_pos (by rw [Bool.and_eq_true, within_iff, within_iff]; exact ⟨trims.1.1, Nat.zero_le _, trims.1.2⟩)

theorem entryRule (s : State) (e : Entry) : EntryRule s e := by
  have filled : ∀ {mask : LevelMask}, (∃ l, mask.has l = true) → mask.isEmpty = false := fun {mask} ⟨l, hl⟩ => by
    rw [Bool.eq_false_iff]
    intro empty
    rw [(LevelMask.isEmpty_iff mask).1 empty l] at hl; cases hl
  constructor
  · intro outside
    unfold State.checkEntry
    refine if_neg fun h => outside ?_
    rw [Bool.and_eq_true, within_iff, within_iff] at h
    exact ⟨h.1, h.2.2⟩
  · intro mask trims empty
    rw [checkEntry_trimmed trims, if_pos ((LevelMask.isEmpty_iff mask).2 empty)]
  · intro mask trims named fails
    rw [checkEntry_trimmed trims, filled named, fails]; rfl
  · intro mask why trims named passes refusal
    rw [checkEntry_trimmed trims, filled named, passes, refusal]; rfl
  · rintro mask trims passes permitted ⟨l, hl, reading⟩
    rw [checkEntry_trimmed trims, filled ⟨l, hl⟩, passes, permitted]
    exact if_pos ((LevelMask.any_iff mask _).2 ⟨l, hl, reading⟩)
  · intro mask trims named passes permitted idle
    rw [checkEntry_trimmed trims, filled named, passes, permitted]
    refine (if_neg (c := mask.list.any (s.readbackAt e.dest) = true) fun reading => ?_ :)
    obtain ⟨l, hl, h⟩ := (LevelMask.any_iff mask _).1 reading
    rw [idle l hl] at h; cases h

/-! ### A take that is accepted -/

theorem freeRoom_zero_iff (s : State) : s.freeRoom = 0 ↔ 64 ≤ s.pendingEntries + s.drawnEntries := by
  unfold State.freeRoom; simp only [Config.takeRoom]; omega

/-- R22 to R25: an accepted take supersedes, and joins the queue as a group of its own. -/
theorem offerTake_accepted {s : State} {e x : Entry} (check : s.checkEntry e = .ok x)
    (room : s.pendingEntries + s.drawnEntries < 64) : ∃ firings,
    offerTake e s = .ok { s with
      hlc := { s.hlc with outbound := s.hlc.outbound ++ s.rc.queue.flatMap (supersededReplies x.dest x.mask) }
      rc := { s.rc with queue := supersededQueue x.dest x.mask s.rc.queue ++ [⟨none, [x]⟩] }
      fd := { s.fd with firings := firings } } ∧
    ∀ p n, s.countsOver firings p n = s.pendingFirings p n - endedFirings p n x.dest x.mask s.rc.queue := by
  obtain ⟨firings, superseded, counts⟩ := supersede_eq x.dest x.mask s
  refine ⟨firings, ?_, counts⟩
  unfold offerTake
  rw [check]
  dsimp only
  rw [if_neg (by rw [freeRoom_zero_iff]; omega), superseded]; rfl

theorem offerTake_full {s : State} {e x : Entry} (check : s.checkEntry e = .ok x)
    (full : 64 ≤ s.pendingEntries + s.drawnEntries) : offerTake e s = .error .busy := by
  unfold offerTake
  rw [check]
  exact if_pos ((freeRoom_zero_iff s).2 full)

theorem offerTake_refused {s : State} {e : Entry} {why : Reason} (check : s.checkEntry e = .error why) :
    offerTake e s = .error why := by
  unfold offerTake; rw [check]

/-! ### TAKE -/

theorem takeArgs_be16 {m f : Byte} {d x : Nat} (hd : d < 65536) (hx : x < 65536) :
    takeArgs (be16 d ++ [m] ++ be16 x ++ [f]) = some ⟨d, maskOf m, x, forceOf f⟩ := by
  obtain ⟨d1, d2, destBytes, destValue⟩ := be16_bytes hd
  obtain ⟨x1, x2, sourceBytes, sourceValue⟩ := be16_bytes hx
  rw [destBytes, sourceBytes, ← destValue, ← sourceValue]; rfl

theorem forceOf_eq (f : Byte) : forceOf f = if f.toNat < 2 then some (f == 1) else none := by
  unfold forceOf boolOf
  by_cases zero : f = 0
  · subst zero; rfl
  · by_cases one : f = 1
    · subst one; rfl
    · rw [if_neg zero, if_neg one, if_neg]
      intro small
      have : f.toNat = 0 ∨ f.toNat = 1 := by omega
      rcases this with h | h
      · exact zero (BitVec.eq_of_toNat_eq h)
      · exact one (BitVec.eq_of_toNat_eq h)

theorem maskOf_eq {m : Byte} (h : m.toNat < 16) :
    maskOf m = some ⟨m.getLsbD 0, m.getLsbD 1, m.getLsbD 2, m.getLsbD 3⟩ := if_pos h

/-- R12: the levels of a mask that a mapped device covers. -/
theorem trimmed_eq (s : State) (d : Nat) (m : LevelMask) :
    s.trimmed d m = m.keep fun l => s.rc.devices.entries.any fun e => e.2.covers d l := by
  unfold State.trimmed
  congr 1
  funext l
  rw [Bool.eq_iff_iff, State.deviceOf?, List.find?_isSome, List.any_eq_true]

/-- R5: the host is refused by a panel protect without FORCE alone. -/
theorem permission_system (p : Protect) (tag : Byte) (force : Bool) :
    ((force = false ∧ ∃ q, p = .panel q) → permission p (.system tag) force = some .prot) ∧
      (¬(force = false ∧ ∃ q, p = .panel q) → permission p (.system tag) force = none) := by
  refine ⟨?_, fun free => ?_⟩
  · rintro ⟨rfl, q, rfl⟩; rfl
  · cases p with
    | panel q => exact if_pos (by simpa using free)
    | _ => rfl

/-- R185, R186: a request whose reply is deferred: its messages go out, and the lamps follow. -/
theorem transmit_relamp_deferred (s : State) : transmit (relamp (deferReply s)) =
    relamp { s with hlc := { s.hlc with owed := s.hlc.owed + 1 }.begun } := by
  rw [transmit_relamp, transmit_eq]; rfl

/-- Settles O21: the checks of TAKE in order, then the accepted take. -/
theorem takeIsOffered : Obligations.TakeIsOffered := by
  refine ⟨entryRule, deviceRule, roomRule, fun m => rfl, ?_⟩
  intro tag m f d x s s1 r hd hx hr settled turn refused fits asked mask protectedBy reading
  subst hr
  let r : Request := ⟨0x20, tag, be16 d ++ [m] ++ be16 x ++ [f]⟩
  let e : Entry := ⟨d, asked, x, .system tag, f == 1⟩
  have read := takeArgs_be16 (m := m) (f := f) hd hx
  have executes : ∀ p, exec (.take tag p) s = .next (requestOf 0x20 tag p takeArgs take s) := fun _ => rfl
  have refuses : ∀ code, take r ⟨d, maskOf m, x, forceOf f⟩ s1 = answer r code s1 → refused code := fun code h =>
    refused_inTurn (executes _) settled turn read h
  have owed : s1.hlc.owed = s.hlc.owed := by rw [turn.eq]
  have offers : s.hlc.owed < 64 → fits → take r ⟨d, maskOf m, x, forceOf f⟩ s1 =
      match offerTake e s1 with
      | .ok t => relamp (deferReply t)
      | .error why => answer r why.code s1 := fun few ⟨_, _, _, named, flag⟩ => by
    unfold take hostTake
    rw [maskOf_eq named, forceOf_eq, if_pos flag]
    exact if_neg (by rw [owed]; exact Nat.not_le.2 few)
  have trims : fits → s1.trims e mask := fun ⟨lo, hi, source, _, _⟩ => by
    have trimmed : s1.trimmed d asked = mask := by rw [trimmed_eq, turn.devices_eq]
    have all := State.trims_trimmed (s := s1) (e := e) ⟨⟨lo, hi⟩, source⟩
    rwa [show s1.trimmed e.dest e.mask = mask from trimmed] at all
  have named : mask ≠ ⟨false, false, false, false⟩ → ∃ l, mask.has l = true := fun some => by
    by_contra none
    refine some (LevelMask.ext_has fun l => ?_)
    have : mask.has l ≠ true := fun h => none ⟨l, h⟩
    simp only [this]
    cases l <;> decide
  have prot : (s1.dest d).protect = (s.dest d).protect := by rw [turn.dest_eq]
  have flagged : fits → ((f == 1) = false ↔ f = 0) := fun ⟨_, _, _, _, flag⟩ => by
    have bits : f.toNat = 0 ∨ f.toNat = 1 := by omega
    rcases bits with h | h
    · rw [show f = 0 from BitVec.eq_of_toNat_eq h]; decide
    · rw [show f = 1 from BitVec.eq_of_toNat_eq h]; decide
  have readingAt : (∃ l, mask.has l = true ∧ s1.readbackAt d l = true) ↔ reading := by
    unfold reading State.readbackAt State.deviceOf?
    rw [turn.devices_eq]
  have places : s1.pendingEntries + s1.drawnEntries = s.pendingEntries + s.drawnEntries := by
    unfold State.pendingEntries State.drawnEntries; rw [turn.rc_eq]
  have rule := entryRule s1 e
  have permitted : fits → ¬protectedBy → permission (s1.dest d).protect (.system tag) (f == 1) = none := fun good free =>
    (permission_system _ tag _).2 fun h => free ⟨(flagged good).1 h.1, by rw [← prot]; exact h.2⟩
  have passes : fits → mask ≠ ⟨false, false, false, false⟩ → ¬protectedBy → ¬reading →
      s1.checkEntry e = .ok { e with mask := mask } := fun good filled free idle =>
    rule.passes mask (trims good) (named filled) rfl (permitted good free) fun l hl => by
      rw [Bool.eq_false_iff]; exact fun h => idle (readingAt.1 ⟨l, hl, h⟩)
  refine ⟨fun full => ?_, fun few bad => ?_, fun few good filled guarded => ?_, fun few good filled free stuck => ?_,
    fun few good filled free idle room => ?_⟩
  · exact refuses _ (if_pos (by rw [owed]; exact full))
  · rcases bad with outside | ⟨good, empty⟩
    · refine refuses _ ?_
      unfold take hostTake
      rw [if_neg (by rw [owed]; exact Nat.not_le.2 few), forceOf_eq]
      by_cases flag : f.toNat < 2
      · rw [if_pos flag]
        by_cases bits : m.toNat < 16
        · rw [maskOf_eq bits]
          dsimp only
          have range : s1.checkEntry e = .error .badArg := rule.range fun h => outside ⟨h.1.1, h.1.2, h.2, bits, flag⟩
          rw [show offerTake _ s1 = _ from offerTake_refused range]; rfl
        · rw [show maskOf m = none from if_neg bits]; rfl
      · rw [if_neg flag]
        cases maskOf m <;> rfl
    · refine refuses _ ?_
      rw [offers few good, offerTake_refused (rule.empty mask (trims good) fun l => by rw [empty]; cases l <;> rfl)]; rfl
  · refine refuses _ ?_
    rw [offers few good, offerTake_refused (rule.locked mask .prot (trims good) (named filled) rfl ?_)]; rfl
    exact (permission_system _ tag _).1 ⟨(flagged good).2 guarded.1, by rw [prot]; exact guarded.2⟩
  · refine refuses _ ?_
    rw [offers few good]
    by_cases busy : reading
    · rw [offerTake_refused (rule.busy mask (trims good) rfl (permitted good free) (readingAt.2 busy))]; rfl
    · rw [offerTake_full (passes good filled free busy) (by rw [places]; exact stuck.resolve_left busy)]; rfl
  · obtain ⟨firings, accepted, counts⟩ := offerTake_accepted (passes good filled free idle) (by rw [places]; exact room)
    let u : State := { s1 with
      hlc := { s1.hlc with outbound := s1.hlc.outbound ++ s1.rc.queue.flatMap (supersededReplies d mask) }
      rc := { s1.rc with queue := supersededQueue d mask s1.rc.queue ++ [⟨none, [⟨d, mask, x, .system tag, f == 1⟩]⟩] }
      fd := { s1.fd with firings := firings } }
    have result : exec (.take tag r.payload) s = .next (relamp { u with hlc := { u.hlc with owed := u.hlc.owed + 1 }.begun }) := by
      rw [executes, requestOf_inTurn turn read, offers few good, accepted]
      exact congrArg Host.Outcome.next (transmit_relamp_deferred u)
    have outbound : s1.hlc.outbound = s.hlc.outbound := by rw [turn.eq]
    refine ⟨_, result, ?_, fun p n => ?_, ?_⟩
    · show { s1.fd with firings := firings } = { s.fd with firings := firings }
      rw [turn.fd_eq]
    · refine (counts p n).trans ?_
      rw [turn.rc_eq]
      unfold State.pendingFirings
      rw [turn.fd_eq]
    · rw [← owed, ← outbound, ← turn.rc_eq]
      exact relamp_follows _

end Sys2Proof.Machine

/-! Salvo firings: SALVO_FIRE, and the counts that add up to the stored entries (R24, R25, R27, R28). -/

namespace Sys2Proof.Machine

theorem passingRule (s : State) (n : Nat) (o : Origin) (force : Bool) : PassingRule s n o force := by
  unfold PassingRule State.passing
  refine List.filterMap_congr fun e _ => ?_
  show (s.checkEntry ⟨e.dest, e.mask, e.source, o, force⟩).toOption = _
  cases s.checkEntry ⟨e.dest, e.mask, e.source, o, force⟩ <;> rfl

/-! ### A firing -/

theorem fireSalvo_ended {s : State} {n : Nat} {o : Origin} {force : Bool} (none : s.passing n o force = []) :
    fireSalvo n o force s = .ended ⟨0, (s.salvo n).length, 0, 0, 0⟩ := by
  unfold fireSalvo
  rw [none]; rfl

theorem fireSalvo_busy {s : State} {n : Nat} {o : Origin} {force : Bool} (filled : s.passing n o force ≠ [])
    (full : 64 < s.pendingEntries + s.drawnEntries + (s.passing n o force).length) : fireSalvo n o force s = .busy := by
  have positive := List.length_pos_iff.2 filled
  unfold fireSalvo
  dsimp only
  rw [if_neg (by rw [List.isEmpty_iff]; exact filled), if_pos]
  unfold State.freeRoom
  simp only [Config.takeRoom]
  omega

/-- R27, R28: an accepted firing supersedes entry by entry, and its group joins the queue. -/
theorem fireSalvo_accepted {s : State} {n : Nat} {o : Origin} {force : Bool} (filled : s.passing n o force ≠ [])
    (room : s.pendingEntries + s.drawnEntries + (s.passing n o force).length ≤ 64) :
    let passing := s.passing n o force
    let own := (acceptedEntries passing ([], s.rc.queue, [])).1
    ∃ firings, fireSalvo n o force s = .accepted { s with
        hlc := { s.hlc with outbound := s.hlc.outbound ++ (acceptedEntries passing ([], s.rc.queue, [])).2.2 }
        rc := { s.rc with queue := (acceptedEntries passing ([], s.rc.queue, [])).2.1 ++
          [⟨some ⟨o, n, ⟨0, (s.salvo n).length - passing.length, 0, passing.length - own.length, 0⟩⟩, own⟩] }
        fd := { s.fd with firings := firings } } ∧
      ∀ p k, s.countsOver firings p k = s.pendingFirings p k - acceptedFirings p k passing s.rc.queue := by
  intro passing own
  obtain ⟨firings, accepted, counts⟩ := acceptEntries_eq passing [] s
  refine ⟨firings, ?_, counts⟩
  unfold fireSalvo
  dsimp only
  rw [if_neg (by rw [List.isEmpty_iff]; exact filled), if_neg, accepted]
  · rfl
  · unfold State.freeRoom
    simp only [Config.takeRoom]
    omega

/-! ### SALVO_FIRE -/

/-- Settles O23: the checks of SALVO_FIRE in order, then what the firing comes to. -/
theorem salvoFireIsOffered : Obligations.SalvoFireIsOffered := by
  refine ⟨passingRule, ?_⟩
  intro tag n f s s1 r hr settled turn fits stored passing used own left replies
  subst hr
  let r : Request := ⟨0x22, tag, [n, f]⟩
  have read : salvoFireArgs [n, f] = some (n.toNat, forceOf f) := rfl
  have executes : exec (.salvoFire tag [n, f]) s = .next (requestOf 0x22 tag [n, f] salvoFireArgs salvoFire s) := rfl
  have owed : s1.hlc.owed = s.hlc.owed := by rw [turn.eq]
  have offers : s.hlc.owed < 64 → fits → salvoFire r (n.toNat, forceOf f) s1 =
      match fireSalvo n.toNat (.system tag) (f == 1) s1 with
      | .busy => answer r .busy s1
      | .ended counts => answerData r .done (countsBytes counts) s1
      | .accepted t => relamp (deferReply t) := fun few ⟨lo, hi, flag⟩ => by
    unfold salvoFire
    rw [if_neg (show ¬Config.owedLimit ≤ s1.hlc.owed by rw [owed]; exact Nat.not_le.2 few), forceOf_eq, if_pos flag]
    exact if_pos (within_iff.2 ⟨lo, hi⟩)
  have samePassing : s1.passing n.toNat (.system tag) (f == 1) = passing := by
    rw [turn.eq]; rfl
  have sameStored : s1.salvo n.toNat = stored := by rw [State.salvo, turn.rc_eq]; rfl
  have places : s1.pendingEntries + s1.drawnEntries = used := by
    unfold used State.pendingEntries State.drawnEntries; rw [turn.rc_eq]
  refine ⟨fun full => ?_, fun few bad => ?_, fun few good none => ?_, fun few good filled full => ?_,
    fun few good filled room => ?_⟩
  · exact refused_inTurn executes settled turn read (if_pos (by rw [owed]; exact full))
  · refine refused_inTurn executes settled turn read ?_
    unfold salvoFire
    rw [if_neg (show ¬Config.owedLimit ≤ s1.hlc.owed by rw [owed]; exact Nat.not_le.2 few), forceOf_eq]
    by_cases flag : f.toNat < 2
    · rw [if_pos flag]
      exact if_neg fun range => bad ⟨(within_iff.1 range).1, (within_iff.1 range).2, flag⟩
    · rw [if_neg flag]
  · rw [executes, requestOf_inTurn turn read]
    show Host.Outcome.next (transmit (salvoFire r (n.toNat, forceOf f) s1)) = _
    rw [offers few good, fireSalvo_ended (samePassing.trans none), sameStored]
    exact congrArg _ (transmit_answerData r .done _ (turn.settled settled))
  · refine refused_inTurn executes settled turn read ?_
    rw [offers few good, fireSalvo_busy (by rw [samePassing]; exact filled) (by rw [samePassing, places]; exact full)]
  · obtain ⟨firings, accepted, counts⟩ := fireSalvo_accepted (s := s1) (n := n.toNat) (o := .system tag) (force := f == 1)
      (by rw [samePassing]; exact filled) (by rw [samePassing, places]; exact room)
    have queue : s1.rc.queue = s.rc.queue := by rw [turn.rc_eq]
    have outbound : s1.hlc.outbound = s.hlc.outbound := by rw [turn.eq]
    rw [samePassing, sameStored, queue, outbound] at accepted
    let u : State := { s1 with
      hlc := { s1.hlc with outbound := s.hlc.outbound ++ replies }
      rc := { s1.rc with queue := left ++
        [⟨some ⟨.system tag, n.toNat, ⟨0, stored.length - passing.length, 0, passing.length - own.length, 0⟩⟩, own⟩] }
      fd := { s1.fd with firings := firings } }
    have result : exec (.salvoFire tag [n, f]) s = .next (relamp { u with hlc := { u.hlc with owed := u.hlc.owed + 1 }.begun }) := by
      rw [executes, requestOf_inTurn turn read]
      show Host.Outcome.next (transmit (salvoFire r (n.toNat, forceOf f) s1)) = _
      rw [offers few good, accepted]
      exact congrArg Host.Outcome.next (transmit_relamp_deferred u)
    refine ⟨_, result, ?_, fun p k => ?_, ?_⟩
    · show { s1.fd with firings := firings } = { s.fd with firings := firings }
      rw [turn.fd_eq]
    · refine (counts p k).trans ?_
      rw [samePassing, queue]
      unfold State.pendingFirings
      rw [turn.fd_eq]
    · rw [← owed]
      exact relamp_follows _

/-! ### The counts of a firing -/

theorem strip_eq_without (d : Nat) (mask : LevelMask) (e : Entry) : e.strip d mask = e.without d mask := by
  unfold Entry.strip Entry.without
  split <;> rfl

theorem stripRule (d : Nat) (mask : LevelMask) (g : TakeGroup) : StripRule d mask g := by
  constructor
  · have same : Entry.strip d mask = Entry.without d mask := funext (strip_eq_without d mask)
    unfold TakeGroup.strip stripEntries LevelMask.isEmpty
    simp only [same, Bool.not_not]
  · rfl
  · intro none; unfold TakeGroup.strip; rw [none]; rfl
  · intro f firing; unfold TakeGroup.strip; rw [firing]; rfl

theorem acceptEntries_length (es own : List Entry) (s : State) :
    (acceptEntries es own s).1.length ≤ own.length + es.length := by
  induction es generalizing own s with
  | nil => exact Nat.le_refl _
  | cons e es ih =>
    have stripped := stripEntries_length e.dest e.mask own
    have rest := ih (stripEntries e.dest e.mask own ++ [e]) (supersede e.dest e.mask s)
    rw [List.length_append] at rest
    unfold acceptEntries
    simp only [List.length_cons, List.length_nil] at *
    omega

theorem passing_length (s : State) (n : Nat) (o : Origin) (force : Bool) :
    (s.passing n o force).length ≤ (s.salvo n).length := List.length_filterMap_le ..

theorem total_count (c : Counts) (x : Outcome) : (c.count x).total = c.total + 1 := by
  unfold Counts.total Counts.count
  cases x <;> (dsimp only; omega)

theorem total_foldl_count (writes : List Write) (xs : List Drawn) (c : Counts) :
    (xs.foldl (fun c x => c.count (outcomeOf writes x)) c).total = c.total + xs.length := by
  induction xs generalizing c with
  | nil => rfl
  | cons x xs ih => rw [List.foldl_cons, ih, total_count, List.length_cons]; omega

/-- Settles O24. -/
theorem firingCountsAddUp : Obligations.FiringCountsAddUp := by
  refine ⟨stripRule, fun n o force s t accepted => ?_, fun n o force s c ended => ?_, fun d mask g f firing => ?_,
    fun writes g f => total_foldl_count writes g.entries f.counts⟩
  · have stored := passing_length s n o force
    have taken := acceptEntries_length (s.passing n o force) [] s
    unfold fireSalvo at accepted
    dsimp only at accepted
    split at accepted
    · cases accepted
    · split at accepted
      · cases accepted
      · cases accepted
        refine ⟨_, _, List.getLast?_concat .., rfl, rfl, rfl, ?_⟩
        simp only [Counts.total, List.length_nil] at *
        omega
  · have none : s.passing n o force = [] := by
      by_contra filled
      unfold fireSalvo at ended
      dsimp only at ended
      rw [if_neg (by rw [List.isEmpty_iff]; exact filled)] at ended
      split at ended <;> cases ended
    rw [fireSalvo_ended none] at ended
    cases ended
    simp [Counts.total]
  · have left := stripEntries_length d mask g.entries
    have rule := stripRule d mask g
    unfold TakeGroup.countsTotal
    rw [rule.salvo f firing, firing]
    simp only [Counts.total, rule.alone]
    omega

end Sys2Proof.Machine

/-! The close of a switch window: the levels, the devices, the report of each drawn group, and the recomputation that follows
(R13, R17, R18, R28, R38 to R41, R58, R171). -/

namespace Sys2Proof.Machine

/-! ### Deferred replies on the link -/

theorem deferred_raised (f : Flag) (h : HostLink) : (h.raised f).deferred = h.deferred := by
  rcases HostLink.raised_cases f h with e | ⟨-, -, e⟩ | ⟨-, -, e⟩ <;> rw [e]
  · rfl
  · unfold HostLink.deferred HostLink.messages
    dsimp only
    rw [← List.append_assoc, List.filter_append]
    exact List.append_nil _

theorem Announced.deferred_eq {h k : HostLink} (announced : Announced h k) : k.deferred = h.deferred := by
  obtain ⟨gs, rfl⟩ := announced
  induction gs generalizing h with
  | nil => rfl
  | cons g gs ih => rw [List.foldl_cons, ih, deferred_raised]

theorem deferred_queued (h : HostLink) {ms : List Message} (deferred : ∀ m ∈ ms, m.cls = .deferred) :
    ({ h with outbound := h.outbound ++ ms } : HostLink).deferred = h.deferred ++ ms := by
  unfold HostLink.deferred HostLink.messages
  dsimp only
  rw [← List.append_assoc, List.filter_append]
  exact congrArg _ (List.filter_eq_self.2 fun m hm => by rw [deferred m hm]; rfl)

/-! ### The report of the drawn groups (R41, R171) -/

/-- R28, R41, R171: `u` is `s` after the drawn groups `gs` were reported, in order. -/
structure GroupsReported (writes : List Write) (gs : List DrawnGroup) (s u : State) : Prop where
  panels : ∀ p, u.panel? p = (s.panel? p).map fun v =>
    { v with lastRefusal := (gs.flatMap (refusedKeys p)).getLast?.or v.lastRefusal }
  firings : ∀ p n, u.pendingFirings p n = s.pendingFirings p n - count (DrawnGroup.firedBy p n) gs
  rest : u = { s with
    hlc := gs.foldl (reportedLink s writes) s.hlc
    pbc := { s.pbc with panels := u.pbc.panels }
    fd := { s.fd with firings := u.fd.firings } }

section
variable {writes : List Write}

theorem GroupsReported.refl (s : State) : GroupsReported writes [] s s :=
  ⟨fun p => by cases s.panel? p <;> rfl, fun _ _ => rfl, rfl⟩

/-- A report reads which panels are declared and no more of the state. -/
theorem reportedLink_congr {s u : State} (h : ∀ p, (u.panel? p).isSome = (s.panel? p).isSome) :
    reportedLink u writes = reportedLink s writes := by
  funext x g
  unfold reportedLink
  simp only [h]

theorem GroupsReported.trans {gs hs : List DrawnGroup} {s u v : State} (first : GroupsReported writes gs s u)
    (next : GroupsReported writes hs u v) : GroupsReported writes (gs ++ hs) s v := by
  have declared : ∀ p, (u.panel? p).isSome = (s.panel? p).isSome := fun p => by rw [first.panels, Option.isSome_map]
  refine ⟨fun p => ?_, fun p n => ?_, ?_⟩
  · rw [next.panels, first.panels, Option.map_map]
    congr 1
    funext w
    simp only [Function.comp, List.flatMap_append, List.getLast?_append, Option.or_assoc]
  · rw [next.firings, first.firings, Nat.sub_sub]
    unfold count
    rw [List.filter_append, List.length_append]
  · have both := next.rest.trans (congrArg (fun x : State => { x with
      hlc := hs.foldl (reportedLink u writes) x.hlc
      pbc := { x.pbc with panels := v.pbc.panels }
      fd := { x.fd with firings := v.fd.firings } }) first.rest)
    rw [reportedLink_congr declared] at both
    rw [List.foldl_append]
    exact both

/-- Entries reported one by one are reported as their group is. -/
theorem GroupsReported.entries {x : Drawn} {xs : List Drawn} {s u v : State}
    (first : GroupsReported writes [⟨none, [x]⟩] s u) (next : GroupsReported writes [⟨none, xs⟩] u v) :
    GroupsReported writes [⟨none, x :: xs⟩] s v := by
  have both := first.trans next
  have refused : ∀ p, [(⟨none, x :: xs⟩ : DrawnGroup)].flatMap (refusedKeys p) =
      [(⟨none, [x]⟩ : DrawnGroup), ⟨none, xs⟩].flatMap (refusedKeys p) := fun p => by
    simp only [List.flatMap_cons, List.flatMap_nil, List.append_nil]
    unfold refusedKeys
    exact List.filterMap_append (l := [x]) (l' := xs)
  exact ⟨fun p => by rw [refused]; exact both.panels p, both.firings, both.rest⟩

theorem outcomeOf_refused {x : Drawn} {why : Reason} (h : x.refusal = some why) : outcomeOf writes x = .refused why := by
  unfold outcomeOf; rw [h]

theorem outcomeOf_not_refused {x : Drawn} (h : x.refusal = none) (why : Reason) : outcomeOf writes x ≠ .refused why := by
  unfold outcomeOf; rw [h]
  dsimp only
  split <;> simp

/-- A report that is seen in the link alone. -/
theorem GroupsReported.of_link {g : DrawnGroup} {s u : State} (unrefused : ∀ p, refusedKeys p g = [])
    (unfired : ∀ p n, g.firedBy p n = false) (link : u = { s with hlc := reportedLink s writes s.hlc g }) :
    GroupsReported writes [g] s u := by
  subst link
  refine ⟨fun p => ?_, fun p n => ?_, rfl⟩
  · rw [List.flatMap_cons, unrefused]
    show s.panel? p = _
    cases s.panel? p <;> rfl
  · unfold count
    rw [List.filter_cons, unfired]; rfl

/-- R41, R171: the report of one drawn take. -/
theorem reportTake_reported (s : State) (x : Drawn) : GroupsReported writes [⟨none, [x]⟩] s (reportTake writes s x) := by
  obtain ⟨⟨d, mask, source, origin, force⟩, refusal, written⟩ := x
  cases origin with
  | system tag =>
    refine .of_link (fun _ => rfl) (fun _ _ => rfl) ?_
    unfold reportTake reportedLink outcomeReplies
    dsimp only
    cases outcome : outcomeOf writes ⟨⟨d, mask, source, .system tag, force⟩, refusal, written⟩ <;>
      simp [issueDeferred, queueMessage, outcome]
  | panel p k =>
    cases refusal with
    | none =>
      refine .of_link (fun _ => rfl) (fun _ _ => rfl) ?_
      unfold reportTake reportedLink outcomeReplies
      dsimp only
      cases outcome : outcomeOf writes ⟨⟨d, mask, source, .panel p k, force⟩, none, written⟩ with
      | refused why => exact absurd outcome (outcomeOf_not_refused rfl why)
      | _ => simp
    | some why =>
      have refuses : reportTake writes s ⟨⟨d, mask, source, .panel p k, force⟩, some why, written⟩ = keyRefusal p k why s := by
        unfold reportTake
        rw [outcomeOf_refused rfl]
      have keys : ∀ q, [(⟨none, [⟨⟨d, mask, source, .panel p k, force⟩, some why, written⟩]⟩ : DrawnGroup)].flatMap (refusedKeys q) =
          if p = q then [(k, why)] else [] := fun q => by
        by_cases h : p = q <;> simp [refusedKeys, h]
      have link : [(⟨none, [⟨⟨d, mask, source, .panel p k, force⟩, some why, written⟩]⟩ : DrawnGroup)].foldl (reportedLink s writes) s.hlc =
          if (s.panel? p).isSome then s.hlc.raised .keyRefused else s.hlc := rfl
      rw [refuses]
      cases declared : s.panel? p with
      | none =>
        have nothing : keyRefusal p k why s = s := by unfold keyRefusal; rw [declared]
        rw [nothing]
        refine ⟨fun q => ?_, fun _ _ => rfl, ?_⟩
        · rw [keys]
          by_cases h : p = q
          · subst h; rw [declared]; rfl
          · rw [if_neg h]; cases s.panel? q <;> rfl
        · rw [link, declared]; rfl
      | some v =>
        obtain ⟨record, others, rest⟩ := keyRefusal_refused (k := k) why declared
        refine ⟨fun q => ?_, fun _ _ => ?_, ?_⟩
        · rw [keys]
          by_cases h : p = q
          · subst h; rw [record, declared]; simp
          · rw [others q (Ne.symm h), if_neg h]; cases s.panel? q <;> rfl
        · rw [rest]; rfl
        · rw [link, declared]; exact rest.trans (by rw [rest]; rfl)

theorem reportTakes_reported (xs : List Drawn) (s : State) :
    GroupsReported writes [⟨none, xs⟩] s (xs.foldl (reportTake writes) s) := by
  induction xs generalizing s with
  | nil => exact .of_link (fun _ => rfl) (fun _ _ => rfl) rfl
  | cons x xs ih => exact (reportTake_reported s x).entries (ih _)

/-- R28, R41: the report of one drawn group. -/
theorem reportGroup_reported (s : State) (g : DrawnGroup) : GroupsReported writes [g] s (reportGroup writes s g) := by
  obtain ⟨firing, entries⟩ := g
  cases firing with
  | none => exact reportTakes_reported entries s
  | some f =>
    obtain ⟨origin, salvo, before⟩ := f
    obtain ⟨firings, ended, counts⟩ := endFiring_eq
      ⟨origin, salvo, entries.foldl (fun c x => c.count (outcomeOf writes x)) before⟩ s
    have report : reportGroup writes s ⟨some ⟨origin, salvo, before⟩, entries⟩ = _ := ended
    rw [report]
    refine ⟨fun p => ?_, fun p n => ?_, ?_⟩
    · show s.panel? p = _
      cases s.panel? p <;> rfl
    · refine (counts p n).trans ?_
      unfold count
      rw [List.filter_cons]
      show _ - (if (DrawnGroup.firedBy p n ⟨some ⟨origin, salvo, before⟩, entries⟩) = true then 1 else 0) = _
      split <;> rfl
    · show _ = { s with hlc := reportedLink s writes s.hlc ⟨some ⟨origin, salvo, before⟩, entries⟩, fd := { s.fd with firings := firings } }
      cases origin <;> rfl

theorem reportGroups_reported (gs : List DrawnGroup) (s : State) :
    GroupsReported writes gs s (gs.foldl (reportGroup writes) s) := by
  induction gs generalizing s with
  | nil => exact .refl s
  | cons g gs ih => exact (reportGroup_reported s g).trans (ih _)

theorem deferred_reportedLink (s : State) (h : HostLink) (g : DrawnGroup) :
    (reportedLink s writes h g).deferred = h.deferred ++ outcomeReplies writes g := by
  have replies : ∀ g, ∀ m ∈ outcomeReplies writes g, m.cls = .deferred := fun g m hm => by
    unfold outcomeReplies at hm
    split at hm
    · split at hm
      · obtain rfl := List.mem_singleton.1 hm; rfl
      · cases hm
    · obtain ⟨x, -, hm⟩ := List.mem_flatMap.1 hm
      split at hm
      · obtain rfl := List.mem_singleton.1 hm; rfl
      · cases hm
  obtain ⟨firing, entries⟩ := g
  cases firing with
  | some f => exact deferred_queued h (replies ⟨some f, entries⟩)
  | none =>
    unfold reportedLink
    dsimp only
    induction entries generalizing h with
    | nil => exact (List.append_nil _).symm
    | cons x xs ih =>
      have split : outcomeReplies writes ⟨none, x :: xs⟩ = outcomeReplies writes ⟨none, [x]⟩ ++ outcomeReplies writes ⟨none, xs⟩ := by
        unfold outcomeReplies
        exact List.flatMap_append (xs := [x])
      rw [List.foldl_cons, ih, split, ← List.append_assoc]
      congr 1
      split
      · next origin _ =>
        have silent : outcomeReplies writes ⟨none, [x]⟩ = [] := by unfold outcomeReplies; simp [origin]
        rw [silent, List.append_nil]
        split
        · exact deferred_raised _ h
        · rfl
      · exact deferred_queued h (replies ⟨none, [x]⟩)

theorem deferred_reportedLinks (s : State) (gs : List DrawnGroup) (h : HostLink) :
    (gs.foldl (reportedLink s writes) h).deferred = h.deferred ++ gs.flatMap (outcomeReplies writes) := by
  induction gs generalizing h with
  | nil => exact (List.append_nil _).symm
  | cons g gs ih => rw [List.foldl_cons, ih, deferred_reportedLink, List.flatMap_cons, List.append_assoc]

end

/-! ### The writes of a window (R13, R17) -/

theorem applyWrite_dest_kept (s : State) (w : Write) (d : Nat) :
    ((applyWrite s w).dest d).domain = (s.dest d).domain ∧ ((applyWrite s w).dest d).protect = (s.dest d).protect := by
  unfold applyWrite
  split
  · exact ⟨rfl, rfl⟩
  · dsimp only
    split
    · exact setLevel_dest_kept ..
    · split
      · split <;> exact setLevel_dest_kept ..
      · exact setLevel_dest_kept ..

/-- R17: what one answer makes of the state of a device. -/
def answeredPhase (s : State) (w : Write) (n : Nat) : DevicePhase → DevicePhase
  | .online => if (w.device == n && w.state != .acknowledged && s.levelAt w.dest w.level != .notFitted) = true then .failed else .online
  | phase => phase

theorem applyWrite_device? (s : State) (w : Write) (n : Nat) :
    (applyWrite s w).device? n = (s.device? n).map fun v => { v with phase := answeredPhase s w n v.phase } := by
  have unmoved : (∀ v, s.device? n = some v → answeredPhase s w n v.phase = v.phase) →
      s.device? n = (s.device? n).map fun v => { v with phase := answeredPhase s w n v.phase } := fun still => by
    cases mapped : s.device? n with
    | none => rfl
    | some v => rw [Option.map_some, still v mapped]
  have phases : (¬(w.device = n ∧ w.state ≠ .acknowledged ∧ s.levelAt w.dest w.level ≠ .notFitted)) →
      ∀ phase, answeredPhase s w n phase = phase := fun other phase => by
    cases phase with
    | online => exact if_neg fun h => other (by simpa [and_assoc] using h)
    | _ => rfl
  unfold applyWrite
  split
  · next unfitted => exact unmoved fun v _ => phases (fun h => h.2.2 unfitted) _
  · next x f fitted =>
    split
    · next acknowledged => exact unmoved fun v _ => phases (fun h => h.2.1 acknowledged) _
    · next refused =>
      have hit : ∀ v : Device, s.device? w.device = some v → v.phase ≠ .online → n = w.device →
          s.device? n = (s.device? n).map fun v => { v with phase := answeredPhase s w n v.phase } := fun v mapped idle same =>
        unmoved fun u hu => by
          rw [same, mapped] at hu
          cases hu
          cases phase : v.phase with
          | online => exact absurd phase idle
          | _ => rfl
      have miss : n ≠ w.device → s.device? n = (s.device? n).map fun v => { v with phase := answeredPhase s w n v.phase } :=
        fun other => unmoved fun v _ => phases (fun h => other h.1.symm) _
      dsimp only
      rw [show (s.setLevel w.dest w.level (.fitted x true)).device? w.device = s.device? w.device from rfl]
      by_cases same : n = w.device
      · subst same
        cases mapped : s.device? w.device with
        | none => exact mapped
        | some v =>
          dsimp only
          by_cases online : v.phase = .online
          · have fails : answeredPhase s w w.device .online = .failed := if_pos (by simp [refused, fitted])
            rw [if_pos online, State.device?_setDevice_self, Option.map_some, online, fails]
          · rw [if_neg online, ← mapped]; exact hit v mapped online rfl
      · split
        · split
          · rw [State.device?_setDevice_ne _ same]; exact miss same
          · exact miss same
        · exact miss same

/-- R13: a readback that waited for the close of the window begins. -/
def begunPhase : DevicePhase → DevicePhase
  | .readback kind _ => .readback kind true
  | phase => phase

theorem closedPhase_eq (s : State) (ws : List Write) (n : Nat) (phase : DevicePhase) : closedPhase s ws n phase =
    begunPhase (if phase = .online ∧ (ws.any fun w =>
      w.device == n && w.state != .acknowledged && s.levelAt w.dest w.level != .notFitted) = true then .failed else phase) := by
  cases phase with
  | online => unfold closedPhase; simp only [true_and]; split <;> rfl
  | readback kind begun => simp [closedPhase, begunPhase]
  | failed => simp [closedPhase, begunPhase]

/-- R17: the devices after all the answers. -/
theorem foldl_applyWrite_device? (ws : List Write) (s : State) (n : Nat) : (ws.foldl applyWrite s).device? n =
    (s.device? n).map fun v => { v with phase := if v.phase = .online ∧ (ws.any fun w =>
      w.device == n && w.state != .acknowledged && s.levelAt w.dest w.level != .notFitted) = true then .failed else v.phase } := by
  induction ws generalizing s with
  | nil => cases mapped : s.device? n <;> simp [mapped]
  | cons w ws ih =>
    have fitted : ∀ x : Write, ((applyWrite s w).levelAt x.dest x.level != .notFitted) = (s.levelAt x.dest x.level != .notFitted) :=
      fun x => by
        rw [Bool.eq_iff_iff, bne_iff_ne, bne_iff_ne, ne_eq, applyWrite_fitted]
    rw [List.foldl_cons, ih, applyWrite_device?, Option.map_map]
    congr 1
    funext v
    simp only [Function.comp, fitted, List.any_cons]
    congr 1
    cases v.phase with
    | online =>
      unfold answeredPhase
      by_cases hit : (w.device == n && w.state != .acknowledged && s.levelAt w.dest w.level != .notFitted) = true
      · simp only [hit, Bool.true_or]; simp
      · simp only [Bool.eq_false_iff.2 hit, Bool.false_or]; simp
    | _ => simp [answeredPhase]

end Sys2Proof.Machine

/-! The close of a switch window, whole (R13, R17, R18, R28, R39 to R41, R58, R171, R176). -/

namespace Sys2Proof.Machine

/-- R69: drives evaluated anew leave the configurations and the fault states. -/
theorem sameOutputs_driveAll (s : State) : SameOutputs s (driveAll s) := fun n => by rw [output_driveAll]; exact ⟨rfl, rfl⟩

/-- R58, R61: what a recomputation leaves alone. -/
theorem recomputeTally_frame (s : State) : TallyFrame s (recomputeTally s) := by
  have flagged : ∃ h, (if newFault s.tt.roots (retrace s).tt.roots then raise .traceFault (retrace s) else retrace s) =
      { retrace s with hlc := h } := by
    split
    · exact ⟨_, raise_eq ..⟩
    · exact ⟨_, rfl⟩
  obtain ⟨h, flagged⟩ := flagged
  unfold recomputeTally
  dsimp only
  rw [flagged, raise_eq]
  split
  · obtain ⟨talks, same, change, -⟩ := tallyChange_eq { retrace s with hlc := h.raised .tallyChange }
    rw [change]
    exact ⟨rfl, rfl, ⟨rfl, fun n => by
      exact sameOutputs_driveAll { retrace s with hlc := h.raised .tallyChange } n⟩, rfl, same⟩
  · exact ⟨rfl, rfl, ⟨rfl, fun n => ⟨rfl, rfl⟩⟩, rfl, rfl⟩

theorem recomputeTally_tables (s : State) : (recomputeTally s).tt =
    { s.tt with roots := (recomputeTally s).tt.roots, coloursA := (recomputeTally s).tt.coloursA,
                coloursB := (recomputeTally s).tt.coloursB } := by
  rw [(recomputeTally_cases s).1]; rfl

/-- R17: the answers of a window write the destination table and the device table. -/
theorem applyWrites_eq (ws : List Write) (s : State) : ws.foldl applyWrite s =
    { s with rc := { s.rc with dests := (ws.foldl applyWrite s).rc.dests, devices := (ws.foldl applyWrite s).rc.devices } } := by
  induction ws generalizing s with
  | nil => rfl
  | cons w ws ih =>
    have one : ∃ dests devices, applyWrite s w = { s with rc := { s.rc with dests := dests, devices := devices } } := by
      unfold applyWrite
      split
      · exact ⟨_, _, rfl⟩
      · dsimp only
        split
        · exact ⟨_, _, rfl⟩
        · split
          · split <;> exact ⟨_, _, rfl⟩
          · exact ⟨_, _, rfl⟩
    obtain ⟨dests, devices, one⟩ := one
    rw [List.foldl_cons, ih, one]

theorem applyWrites_dest_kept (ws : List Write) (s : State) (d : Nat) :
    ((ws.foldl applyWrite s).dest d).domain = (s.dest d).domain ∧ ((ws.foldl applyWrite s).dest d).protect = (s.dest d).protect := by
  induction ws generalizing s with
  | nil => exact ⟨rfl, rfl⟩
  | cons w ws ih =>
    obtain ⟨domain, protect⟩ := ih (applyWrite s w)
    obtain ⟨domain', protect'⟩ := applyWrite_dest_kept s w d
    exact ⟨domain.trans domain', protect.trans protect'⟩

/-- R58: whether the answers of a window change a level. -/
theorem levels_changed_iff (ws : List Write) (s : State) :
    (ws.any fun x => s.levelAt x.dest x.level != (ws.foldl applyWrite s).levelAt x.dest x.level) = true ↔
      ∃ d l, (ws.foldl applyWrite s).levelAt d l ≠ s.levelAt d l := by
  rw [List.any_eq_true]
  constructor
  · rintro ⟨x, -, h⟩
    exact ⟨x.dest, x.level, Ne.symm (by simpa using h)⟩
  · rintro ⟨d, l, h⟩
    by_contra unchanged
    refine h ?_
    by_cases written : ∃ x ∈ ws, x.dest = d ∧ x.level = l
    · obtain ⟨x, hx, rfl, rfl⟩ := written
      by_contra differs
      exact unchanged ⟨x, hx, by simpa using Ne.symm differs⟩
    · rw [levels_fold, closedLevel, List.filter_eq_nil_iff.2 fun x hx hit => written ⟨x, hx, by simpa using hit⟩]; rfl

/-- The device table of a state written. -/
def State.withDevices (s : State) (ds : Table Device) : State := { s with rc := { s.rc with devices := ds } }

/-- R58: a recomputation reads no device. -/
theorem Retraced.withDevices {u t : State} (h : Retraced u t) (ds : Table Device) (traced : Recomputed (t.withDevices ds)) :
    Retraced (u.withDevices ds) (t.withDevices ds) where
  lamps := ⟨h.lamps.bus, h.lamps.undeclared, h.lamps.declared⟩
  router := congrArg (fun r : RouteController => { r with devices := ds }) h.router
  tables := h.tables
  kept := h.kept
  traced := traced
  frame := ⟨h.frame.timing, h.frame.functions, h.frame.outputs, h.frame.talks⟩
  followed := h.followed
  unmoved := h.unmoved
  paths := h.paths
  mixed := h.mixed.congr rfl rfl rfl rfl
  flags := h.flags
  pending := h.pending

/-- R13: the devices after the exchanges that waited have begun. -/
def begunDevices (ds : Table Device) : Table Device := ds.mapValues fun _ v => { v with phase := begunPhase v.phase }

theorem beginExchanges_eq (s : State) : beginExchanges s = s.withDevices (begunDevices s.rc.devices) := by
  have same : (fun (_ : Nat) (v : Device) => match v.phase with
      | .readback kind _ => ({ v with phase := .readback kind true } : Device)
      | _ => v) = fun _ v => { v with phase := begunPhase v.phase } := by
    funext _ v
    cases phase : v.phase with
    | readback kind begun => rfl
    | _ => simp [begunPhase, ← phase]
  exact congrArg (fun f => s.withDevices (s.rc.devices.mapValues f)) same

theorem TallyFrame.refl (s : State) : TallyFrame s s := ⟨rfl, rfl, ⟨rfl, fun _ => ⟨rfl, rfl⟩⟩, rfl, rfl⟩

/-- R18, R39: the state whose drawn groups a close reports: the answers are applied, FABRIC_FAULT is handed over and the window
is gone. -/
def answeredState (w : Window) (now : Bool) (s : State) : State := { s with
  hlc := s.hlc.handed .fabricFault s.rc.fabricFault now
  rc := { s.rc with
    dests := (w.writes.foldl applyWrite s).rc.dests, devices := (w.writes.foldl applyWrite s).rc.devices
    window := none, fabricFault := now } }

/-- R41: the state that the report of the drawn groups leaves. -/
def reportedState (w : Window) (now : Bool) (s : State) : State :=
  w.groups.foldl (reportGroup w.writes) (answeredState w now s)

theorem reportedState_reported (w : Window) (now : Bool) (s : State) :
    GroupsReported w.writes w.groups (answeredState w now s) (reportedState w now s) := reportGroups_reported _ _

theorem reportedState_rc (w : Window) (now : Bool) (s : State) : (reportedState w now s).rc = (answeredState w now s).rc := by
  rw [(reportedState_reported w now s).rest]

/-- R39, R58, R176: the close of a window, step by step. -/
theorem closeWindow_steps (w : Window) (s : State) : ∃ (now : Bool) (y : State),
    (now = true ↔ (w.writes.foldl applyWrite s).fabricFaulted) ∧
    ((∃ d l, (w.writes.foldl applyWrite s).levelAt d l ≠ s.levelAt d l) → y = recomputeTally (reportedState w now s)) ∧
    ((∀ d l, (w.writes.foldl applyWrite s).levelAt d l = s.levelAt d l) → y = reportedState w now s) ∧
    TallyFrame (reportedState w now s) y ∧
    closeWindow w s = (relamp y).withDevices (begunDevices (w.writes.foldl applyWrite s).rc.devices) := by
  obtain ⟨now, evaluated, faulted⟩ := evaluateFabric_cases (w.writes.foldl applyWrite s)
  have answered : { evaluateFabric (w.writes.foldl applyWrite s) with
      rc := { (evaluateFabric (w.writes.foldl applyWrite s)).rc with window := none } } = answeredState w now s := by
    rw [evaluated]
    exact congrArg (fun x : State => { x with
      hlc := x.hlc.handed .fabricFault x.rc.fabricFault now
      rc := { x.rc with window := none, fabricFault := now } }) (applyWrites_eq w.writes s)
  have devices : ∀ x : State, x.rc = (reportedState w now s).rc → x.rc.devices = (w.writes.foldl applyWrite s).rc.devices :=
    fun x h => by rw [h, reportedState_rc]; rfl
  have close : closeWindow w s = beginExchanges
      (if (w.writes.any fun x => s.levelAt x.dest x.level != (w.writes.foldl applyWrite s).levelAt x.dest x.level) then
        routeChange (reportedState w now s) else relamp (reportedState w now s)) := by
    unfold reportedState
    rw [← answered]; rfl
  rw [close, beginExchanges_eq]
  by_cases changed : ∃ d l, (w.writes.foldl applyWrite s).levelAt d l ≠ s.levelAt d l
  · refine ⟨now, recomputeTally (reportedState w now s), faulted, fun _ => rfl, fun same => ?_, recomputeTally_frame _, ?_⟩
    · obtain ⟨d, l, h⟩ := changed; exact absurd (same d l) h
    · rw [if_pos ((levels_changed_iff w.writes s).2 changed), devices _ (routeChange_rc _)]; rfl
  · refine ⟨now, reportedState w now s, faulted, fun h => absurd h changed, fun _ => rfl, .refl _, ?_⟩
    rw [if_neg (mt (levels_changed_iff w.writes s).1 changed), devices _ (relamp_rc _)]

/-- R13, R17, R18, R28, R39, R41, R58, R176: the close of a window does what ClosedBy says. -/
theorem closeWindow_closed (w : Window) (s : State) : ClosedBy w s (closeWindow w s) := by
  obtain ⟨now, y, faulted, retraced, still, frame, steps⟩ := closeWindow_steps w s
  let s1 := w.writes.foldl applyWrite s
  let base := answeredState w now s
  let s3 := reportedState w now s
  let ds := begunDevices s1.rc.devices
  have reported : GroupsReported w.writes w.groups base s3 := reportedState_reported w now s
  have rc3 : s3.rc = base.rc := reportedState_rc w now s
  have either : y = recomputeTally s3 ∨ y = s3 := by
    by_cases changed : ∃ d l, s1.levelAt d l ≠ s.levelAt d l
    · exact .inl (retraced changed)
    · exact .inr (still fun d l => by by_contra h; exact changed ⟨d, l, h⟩)
  have rc : y.rc = base.rc := by rcases either with e | e <;> rw [e]; exacts [(recomputeTally_rc _).trans rc3, rc3]
  have router : ((relamp y).withDevices ds).rc = { base.rc with devices := ds } := by
    show { y.rc with devices := ds } = _
    rw [rc]
  have pbc : y.pbc = s3.pbc := by rcases either with e | e <;> rw [e]; exact recomputeTally_pbc _
  have pending : y.pending = s3.pending := by rcases either with e | e <;> rw [e]; exact recomputeTally_pending _
  have hlc : Announced s3.hlc y.hlc := by
    rcases either with e | e <;> rw [e]
    exacts [announced_recomputeTally _, .refl _]
  have tables : y.tt = { s3.tt with roots := y.tt.roots, coloursA := y.tt.coloursA, coloursB := y.tt.coloursB } := by
    rcases either with e | e <;> rw [e]
    exact recomputeTally_tables _
  have levels : ∀ d l, ((relamp y).withDevices ds).levelAt d l = s1.levelAt d l := fun d l => by
    show (y.dest d).levels.get l = _
    rw [State.dest, rc]; rfl
  have fault : ((relamp y).withDevices ds).rc.fabricFault = now := congrArg RouteController.fabricFault router
  have tt3 : s3.tt = s.tt := by rw [reported.rest]; rfl
  have fd3 : s3.fd = { s.fd with firings := s3.fd.firings } := by rw [reported.rest]; rfl
  have pbc3 : s3.pbc = { s.pbc with panels := s3.pbc.panels } := by rw [reported.rest]; rfl
  have traces : (∃ d l, ((relamp y).withDevices ds).levelAt d l ≠ s.levelAt d l) →
      y = recomputeTally s3 ∧ Recomputed ((relamp y).withDevices ds) := fun changed => by
    simp only [levels] at changed
    have e := retraced changed
    refine ⟨e, recomputed_of (s := s3) ?_ ?_⟩
    · rw [rc3]; exact (congrArg RouteController.dests router :)
    · show y.tt = _
      rw [e]; exact (recomputeTally_cases s3).1
  rw [steps]
  refine ⟨?_, ?_, fun d l => ?_, fun d => ?_, fun n => ?_, ?_, ?_, ?_, fun p v declared => ?_, fun p n => ?_,
    fun changed => (traces changed).2, ⟨s3.withDevices ds, ?_, fun changed listed => ?_, fun same => ?_⟩, ?_, ?_⟩
  · exact (congrArg RouteController.window router :)
  · exact ⟨(congrArg RouteController.queue router :), (congrArg RouteController.salvos router :),
      (congrArg RouteController.windows router :)⟩
  · rw [levels]; exact levels_fold w.writes s d l
  · have dest : ((relamp y).withDevices ds).dest d = s1.dest d := State.dest_congr (congrArg RouteController.dests router :) d
    rw [dest]
    exact applyWrites_dest_kept w.writes s d
  · have begun : ((relamp y).withDevices ds).device? n = (s1.device? n).map fun v => { v with phase := begunPhase v.phase } :=
      Table.find?_mapValues ..
    rw [begun, foldl_applyWrite_device?, Option.map_map]
    congr 1
    funext v
    simp only [Function.comp, closedPhase_eq]
  · rw [fault, faulted]
    unfold State.fabricFaulted
    refine or_congr ?_ ?_
    · show _ ↔ ∃ e ∈ s1.rc.devices.entries.map _, _
      simp only [List.mem_map, exists_exists_and_eq_and]
      refine exists_congr fun e => and_congr_right fun _ => ?_
      cases phase : e.2.phase <;> simp [begunPhase]
    · rw [show ((relamp y).withDevices ds).rc.dests = s1.rc.dests from (congrArg RouteController.dests router :)]
  · show y.hlc.deferred = _
    have link : s3.hlc = w.groups.foldl (reportedLink base w.writes) base.hlc := congrArg State.hlc reported.rest
    rw [hlc.deferred_eq, link, deferred_reportedLinks]
    exact congrArg (· ++ _) (announced_handed ..).deferred_eq
  · show ({ y.pbc with panels := (relamp y).pbc.panels } : PanelBus) = { s.pbc with panels := (relamp y).pbc.panels }
    rw [pbc, pbc3]
  · have known := reported.panels p
    rw [show base.panel? p = some v from declared, Option.map_some] at known
    obtain ⟨lamps, shown, -⟩ := (relamp_relamped y).declared p _ (show y.panel? p = some _ by rw [State.panel?, pbc]; exact known)
    exact ⟨lamps, shown⟩
  · show y.pendingFirings p n = _
    rw [State.pendingFirings, frame.functions]
    exact reported.firings p n
  · refine ⟨reported.panels, reported.firings, ?_⟩
    have rest := congrArg (fun x : State => x.withDevices ds) reported.rest
    refine rest.trans ?_
    rw [fault, show ((relamp y).withDevices ds).rc = { base.rc with devices := ds } from router]
    rfl
  · obtain ⟨e, recomputed⟩ := traces changed
    subst e
    exact (relamp_recomputeTally s3 (by rw [tt3]; exact listed)).withDevices ds recomputed
  · have e : y = s3 := still fun d l => by rw [← levels]; exact same d l
    subst e
    exact relamp_follows (s3.withDevices ds)
  · show y.tt = _
    rw [tables, tt3]; rfl
  · have tc3 : s3.tc = s.tc := by rw [reported.rest]; rfl
    have tou3 : s3.tou = s.tou := by rw [reported.rest]; rfl
    have stu3 : s3.stu = s.stu := by rw [reported.rest]; rfl
    have pending3 : s3.pending = s.pending := by rw [reported.rest]; rfl
    refine ⟨frame.timing.trans stu3, ?_, ?_, ?_, ?_, fun n => ?_, pending.trans pending3⟩
    · show y.fd = { s.fd with firings := y.fd.firings }
      rw [frame.functions]; exact fd3
    · rw [← tc3]; exact frame.talks.1
    · rw [← tc3]; exact frame.talks.2
    · rw [← tou3]; exact frame.outputs.1
    · rw [show s.output n = s3.output n by rw [State.output, State.output, tou3]]
      exact frame.outputs.2 n

end Sys2Proof.Machine

/-! Switch points, the frame reference and the answers of a window (R29 to R42). -/

namespace Sys2Proof.Machine

/-- R34, R36: the head groups that are drawn, and the group at which the drawing stops. -/
theorem drain_spec (s : State) (used : Nat) (gs : List TakeGroup) (h : used ≤ 128) :
    ∃ k, k ≤ gs.length ∧ drain s used gs = ((gs.take k).map s.draw, gs.drop k) ∧
      used + (((gs.take k).map s.draw).flatMap s.writesOf).length ≤ 128 ∧
      ∀ g rest, gs.drop k = g :: rest →
        128 < used + (((gs.take k).map s.draw).flatMap s.writesOf).length + (s.writesOf (s.draw g)).length := by
  induction gs generalizing used with
  | nil => exact ⟨0, le_rfl, rfl, h, fun g rest stays => absurd stays (by simp)⟩
  | cons g gs ih =>
    by_cases fits : used + (s.writesOf (s.draw g)).length ≤ 128
    · obtain ⟨k, le, eq, bound, stops⟩ := ih _ fits
      have drawn : drain s used (g :: gs) = (s.draw g :: (drain s (used + (s.writesOf (s.draw g)).length) gs).1,
          (drain s (used + (s.writesOf (s.draw g)).length) gs).2) := if_pos fits
      refine ⟨k + 1, Nat.succ_le_succ le, by rw [drawn, eq]; rfl, ?_, fun g' rest stays => ?_⟩
      · simp only [List.take_succ_cons, List.map_cons, List.flatMap_cons, List.length_append]; omega
      · have := stops g' rest stays
        simp only [List.take_succ_cons, List.map_cons, List.flatMap_cons, List.length_append]; omega
    · refine ⟨0, Nat.zero_le _, if_neg fits, h, fun g' rest stays => ?_⟩
      obtain ⟨rfl, -⟩ := List.cons.inj stays
      simpa using fits

/-- R37: every write is sent. -/
theorem writesOf_sent (s : State) (g : DrawnGroup) : ∀ x ∈ s.writesOf g, x.state = .sent := by
  intro x hx
  obtain ⟨d, -, hd⟩ := List.mem_flatMap.1 hx
  obtain ⟨l, -, rfl⟩ := List.mem_map.1 hd
  rfl

/-- R35: the re-check of an entry that nothing refuses. -/
theorem recheck_passes {s : State} {e : Entry} (passes : s.domainPasses e.origin e.dest = true)
    (permitted : permission (s.dest e.dest).protect e.origin e.force = none) :
    s.recheck e = ⟨e, none, e.mask.keep (s.onlineAt e.dest)⟩ := by
  unfold State.recheck; rw [if_pos passes, permitted]

/-- Settles O25: the drawing of the head groups by `drain_spec`, the window without writes by the close of a window. -/
theorem switchPointDrains : Obligations.SwitchPointDrains := by
  refine ⟨fun s => ⟨fun opened => ?_, fun empty => ?_, fun closed waiting => ?_⟩,
    fun s e => ⟨fun denied => ?_, fun why passes refused => ?_, recheck_passes, fun passes permitted l => ?_,
      fun l n v covered => (deviceRule s e.dest l).number n v covered, fun g => ⟨rfl, rfl⟩, fun g => rfl⟩⟩
  · unfold switchPoint
    split
    · rfl
    · next closed => exact absurd closed opened
  · unfold switchPoint
    rw [empty]
    split <;> rfl
  · obtain ⟨k, le, eq, bound, stops⟩ := drain_spec s 0 s.rc.queue (Nat.zero_le _)
    have opens : switchPoint s = openWindow s := by
      unfold switchPoint; rw [closed]; exact if_neg (by simpa using waiting)
    rw [Nat.zero_add] at bound
    simp only [Nat.zero_add] at stops
    refine ⟨k, le, ?_⟩
    intro groups w opened
    have opening : openWindow s = if w.writes.isEmpty then closeWindow w opened else opened := by
      unfold openWindow; rw [eq]
    refine ⟨bound, fun x hx => ?_, stops, fun some => ?_, fun none => ?_⟩
    · obtain ⟨g, -, hg⟩ := List.mem_flatMap.1 hx
      exact writesOf_sent s g x hg
    · rw [opens, opening, if_neg (by simpa using some)]
    · rw [opens, opening, if_pos (by rw [none]; rfl)]
      exact closeWindow_closed w opened
  · unfold State.recheck; rw [if_neg (by simp [denied])]; rfl
  · unfold State.recheck; rw [if_pos passes, refused]; rfl
  · rw [recheck_passes passes permitted, LevelMask.has_keep, Bool.and_eq_true, (deviceRule s e.dest l).online]

theorem handed_same (f : Flag) (x : Bool) (h : HostLink) : h.handed f x x = h := by
  unfold HostLink.handed; rw [if_pos rfl]

/-- R33: the timing written, with REF_LOST as it was and as it is. -/
theorem setTiming_handed (v : SwitchTiming) (s : State) : setTiming v s =
    { s with hlc := s.hlc.handed .refLost (s.stu.reference == .lost) (v.reference == .lost), stu := v } := by
  unfold setTiming; rw [handOver_eq]; rfl

/-- R32: when a pulse relocks. -/
theorem relocks_iff (period spacing : Nat) :
    relocks period spacing = true ↔ 99 * period ≤ 100 * spacing ∧ 100 * spacing ≤ 101 * period := by
  unfold relocks; simp

/-- Settles O26, by the states of the reference and of the candidate. -/
theorem frameReferenceMoves : Obligations.FrameReferenceMoves := by
  intro time s period locked held
  have pulses : exec (.referencePulse time) s = .next (transmit (pulse time s)) := rfl
  have expires : exec .lossTimerExpiry s = .next (transmit (loseReference s)) := rfl
  have turns : exec .flywheelPoint s = .next (transmit (flywheel s)) := rfl
  have becomes : { s with stu := { s.stu.at time with candidate := some time } } = pulse time s →
      exec (.referencePulse time) s = .next held := fun h => by rw [pulses, ← h, transmit_eq]; rfl
  rw [expires, turns]
  refine ⟨fun lock => ⟨?_, fun last known => ?_, ?_⟩, fun lost => ⟨fun none => ?_, fun c known => ⟨?_, ?_⟩, ?_, ?_⟩⟩
  · rw [pulses]
    unfold pulse acceptPulse
    rw [lock]
    dsimp only
    rw [setTiming_handed, lock]
    exact congrArg (fun h => Host.Outcome.next (transmit (switchPoint (locked h)))) (handed_same ..)
  · unfold loseReference
    rw [lock]
    dsimp only
    rw [setTiming_handed, lock]
    simp only [SwitchTiming.at, known]
    rfl
  · unfold flywheel; rw [lock]
  · refine becomes ?_
    unfold pulse; rw [lost, none]
  · intro spacing
    rw [pulses]
    unfold pulse acceptPulse
    rw [lost, known]
    dsimp only
    rw [if_pos (show relocks s.stu.family.period (time - c) = true from (relocks_iff ..).2 spacing), setTiming_handed, lost]
    rfl
  · intro spacing
    refine becomes ?_
    unfold pulse; rw [lost, known]
    dsimp only
    exact (if_neg (mt (relocks_iff ..).1 spacing)).symm
  · unfold loseReference; rw [lost]
  · unfold flywheel; rw [lost]; rfl

theorem familyOf_byte (b : Byte) : (3 < b.toNat → familyOf b = none) ∧ ∀ fam, b = familyByte fam → familyOf b = some fam := by
  refine ⟨fun large => ?_, fun fam named => by rw [named]; cases fam <;> rfl⟩
  unfold familyOf
  split
  · omega
  · omega
  · omega
  · omega
  · rfl

/-- Settles O27: the family read from its byte; the change of REF_LOST behind the reply. -/
theorem setFrameFamilyRestarts : Obligations.SetFrameFamilyRestarts := by
  intro tag b s s1 r hr settled turn
  subst hr
  have executes : exec (.setFrameFamily tag [b]) s =
    .next (requestOf 0x23 tag [b] familyArgs (fun r f x => changeFamily f (answer r .ok x)) s) := rfl
  refine ⟨fun large => unread_inTurn executes settled turn ((familyOf_byte b).1 large), fun fam named => ?_⟩
  let r : Request := ⟨0x23, tag, [b]⟩
  rw [executes, requestOf_inTurn turn ((familyOf_byte b).2 fam named)]
  have family : (answer r .ok s1).stu.family = s.stu.family := congrArg SwitchTiming.family turn.stu_eq
  unfold changeFamily
  refine ⟨fun same => ?_, fun other => ?_⟩
  · rw [if_pos (same.trans family.symm), transmit_answer _ _ (turn.settled settled)]
  · have leads := replied_leads r .ok [] (turn.settled settled)
    rw [if_neg (by rw [family]; exact other), setTiming_handed, transmit_eq]
    have link := (begun_handed leads .refLost (s1.stu.reference == .lost) true).1
    rw [begun_replied r .ok [] (turn.settled settled), turn.stu_eq] at link
    have timing : (answer r .ok s1).stu = s.stu := turn.stu_eq
    rw [timing]
    exact congrArg (fun h => Host.Outcome.next { s1 with hlc := h, stu := { s.stu with
      family := fam, reference := .lost, candidate := none, flywheelBase := s.stu.now, flywheelCount := 0 } }) link

/-- R28, R40: the outcome of a drawn entry. -/
theorem outcomeRule (writes : List Write) (x : Drawn) : OutcomeRule writes x where
  refused _ refused := outcomeOf_refused refused
  done passed acknowledged := by
    have all : doneMask writes x = x.entry.mask := LevelMask.ext_has fun l => by rw [doneMask_iff, acknowledged]
    exact ⟨by unfold outcomeOf; rw [passed]; exact if_pos all, all⟩
  fault passed missing := by
    obtain ⟨l, asked, missing⟩ := missing
    have differs : doneMask writes x ≠ x.entry.mask := fun all => missing ((doneMask_iff ..).1 (by rw [all]; exact asked))
    exact ⟨by unfold outcomeOf; rw [passed]; exact if_neg differs, doneMask_iff writes x⟩
  counts _ := ⟨fun _ => rfl, rfl, rfl⟩

theorem awaits_iff (d : Nat) (l : Level) (x : Write) : x.awaits d l = true ↔ x.dest = d ∧ x.level = l ∧ x.state = .sent := by
  unfold Write.awaits; simp [and_assoc]

/-- R38: a window with the answer to one of its writes. -/
def Window.answered (w : Window) (d : Nat) (l : Level) (ack : Bool) : Window := { w with
  writes := w.writes.map fun x =>
    if x.dest = d ∧ x.level = l ∧ x.state = .sent then { x with state := if ack then .acknowledged else .refused } else x }

/-- R38: which writes still await an answer. -/
theorem answered_sent (w : Window) (d : Nat) (l : Level) (ack : Bool) :
    ((w.answered d l ack).writes.any fun x => x.state == .sent) = true ↔
      ∃ x ∈ w.writes, x.state = .sent ∧ ¬(x.dest = d ∧ x.level = l) := by
  simp only [Window.answered, List.any_map, List.any_eq_true, Function.comp]
  refine exists_congr fun x => and_congr_right fun _ => ?_
  by_cases named : x.dest = d ∧ x.level = l ∧ x.state = .sent
  · obtain ⟨dest, level, sent⟩ := named
    cases ack <;> simp [dest, level, sent]
  · rw [if_neg named]
    constructor
    · intro sent
      have sent : x.state = .sent := by simpa using sent
      exact ⟨sent, fun h => named ⟨h.1, h.2, sent⟩⟩
    · rintro ⟨sent, -⟩; simp [sent]

/-- R38: an answer to an outstanding write. -/
theorem takeAnswer_answered {w : Window} {s : State} {d : Nat} {l : Level} (ack : Bool) (opened : s.rc.window = some w)
    (outstanding : ∃ x ∈ w.writes, x.dest = d ∧ x.level = l ∧ x.state = .sent) :
    takeAnswer w.number d l ack s = if (w.answered d l ack).writes.any fun x => x.state == .sent then
        { s with rc := { s.rc with window := some (w.answered d l ack) } }
      else closeWindow (w.answered d l ack) s := by
  have awaited : w.number = w.number ∧ w.writes.any (Write.awaits d l) = true := by
    obtain ⟨x, hx, named⟩ := outstanding
    exact ⟨rfl, List.any_eq_true.2 ⟨x, hx, (awaits_iff ..).2 named⟩⟩
  have same : (fun x : Write => if x.awaits d l then { x with state := if ack then .acknowledged else .refused } else x) =
      fun x => if x.dest = d ∧ x.level = l ∧ x.state = .sent then
        { x with state := if ack then .acknowledged else .refused } else x := by
    funext x
    simp only [awaits_iff]
  unfold takeAnswer
  rw [opened]
  dsimp only
  rw [if_pos awaited, same]
  rfl

/-- R38, R42: an answer to nothing that is outstanding. -/
theorem takeAnswer_discarded {s : State} {number d : Nat} {l : Level} (ack : Bool)
    (missed : ∀ w, s.rc.window = some w → w.number ≠ number ∨ ∀ x ∈ w.writes, ¬(x.dest = d ∧ x.level = l ∧ x.state = .sent)) :
    takeAnswer number d l ack s = s := by
  unfold takeAnswer
  split
  · rfl
  · next w opened =>
    rw [if_neg]
    rintro ⟨same, awaited⟩
    obtain ⟨x, hx, named⟩ := List.any_eq_true.1 awaited
    rcases missed w opened with other | none
    · exact other same
    · exact none x hx ((awaits_iff ..).1 named)

/-- Settles O28, by `closeWindow_closed`. -/
theorem windowCloses : Obligations.WindowCloses := by
  refine ⟨outcomeRule, fun w s opened => ⟨?_, fun d l ack outstanding last => ?_⟩⟩
  · have expires : expireWindow s = closeWindow w s := by unfold expireWindow; rw [opened]
    exact ⟨closeWindow w s, congrArg Host.Outcome.next ((transmit_eq _).trans (by rw [expires])), closeWindow_closed w s⟩
  · refine ⟨closeWindow (w.answered d l ack) s, congrArg Host.Outcome.next ((transmit_eq _).trans ?_), closeWindow_closed _ s⟩
    rw [takeAnswer_answered ack opened outstanding, if_neg]
    rw [answered_sent]
    rintro ⟨x, hx, sent, other⟩
    exact other (last x hx sent)

/-- Settles O29. -/
theorem answersKeepOrMissTheWindow : Obligations.AnswersKeepOrMissTheWindow := by
  refine ⟨fun w d l ack s opened settled outstanding others => ?_, fun number d l ack s settled missed => ?_,
    fun s settled closed => ?_⟩
  · have kept := takeAnswer_answered ack opened outstanding
    rw [if_pos ((answered_sent ..).2 others)] at kept
    exact congrArg Host.Outcome.next ((congrArg transmit kept).trans (transmit_settled settled))
  · exact congrArg Host.Outcome.next ((congrArg transmit (takeAnswer_discarded ack missed)).trans (transmit_settled settled))
  · have none : expireWindow s = s := by unfold expireWindow; rw [closed]
    exact congrArg Host.Outcome.next ((congrArg transmit none).trans (transmit_settled settled))

end Sys2Proof.Machine

/-! Roots, maps and ties: the triggers of a recomputation (R44, R50, R51, R58). -/

namespace Sys2Proof.Machine

/-! ### Operands read back, and the bytes that name no value (R194) -/

theorem boolOf_yesNo (b : Bool) : boolOf (yesNo b) = some b := by cases b <;> rfl

theorem domainOf_byte (dom : Domain) : domainOf (domainByte dom) = some dom := by cases dom <;> rfl

theorem colourOf_byte (c : Colour) : colourOf (colourByte c) = some c := by cases c <;> rfl

theorem boolOf_large {b : Byte} (h : 1 < b.toNat) : boolOf b = none := by
  unfold boolOf; rw [if_neg, if_neg] <;> rintro rfl <;> simp at h

theorem domainOf_large {b : Byte} (h : 1 < b.toNat) : domainOf b = none := by
  unfold domainOf; rw [if_neg, if_neg] <;> rintro rfl <;> simp at h

theorem colourOf_large {b : Byte} (h : 2 < b.toNat) : colourOf b = none := by
  unfold colourOf; rw [if_neg, if_neg, if_neg] <;> rintro rfl <;> simp at h

theorem levelOf_large {b : Byte} (h : 3 < b.toNat) : levelOf b = none := List.getElem?_eq_none h

theorem bytePairs_pairs {pairs : List (Nat × Nat)} (bytes : ∀ e ∈ pairs, e.1 < 256 ∧ e.2 < 256) :
    bytePairs (pairs.map fun e => [byte e.1, byte e.2]).flatten = pairs := by
  induction pairs with
  | nil => rfl
  | cons e es ih =>
    obtain ⟨first, second⟩ := bytes e (List.mem_cons_self ..)
    simp [bytePairs, byte_toNat first, byte_toNat second, ih fun x hx => bytes x (List.mem_cons_of_mem _ hx)]

/-- Log entry 9: a destination or NONE as a word, read back. -/
theorem optWord_read (y : Option Nat) (h : ∀ z, y = some z → z < 0xFFFF) :
    (y.getD 0xFFFF) < 65536 ∧ (if y.getD 0xFFFF = 0xFFFF then none else some (y.getD 0xFFFF)) = y := by
  cases y with
  | none => exact ⟨by decide, rfl⟩
  | some z =>
    have small := h z rfl
    exact ⟨Nat.lt_succ_of_lt small, if_neg (Nat.ne_of_lt small)⟩

theorem byteWordPairs_pairs {pairs : List (Nat × Option Nat)} (words : ∀ e ∈ pairs, e.1 < 256 ∧ ∀ y, e.2 = some y → y < 0xFFFF) :
    (byteWordPairs (pairs.map fun e => byte e.1 :: be16 (e.2.getD 0xFFFF)).flatten).map
      (fun x => (x.1, if x.2 = 0xFFFF then none else some x.2)) = pairs := by
  induction pairs with
  | nil => rfl
  | cons e es ih =>
    obtain ⟨input, dest⟩ := words e (List.mem_cons_self ..)
    obtain ⟨word, back⟩ := optWord_read e.2 dest
    obtain ⟨a, b, bytes, value⟩ := be16_bytes word
    have ih := ih fun x hx => words x (List.mem_cons_of_mem _ hx)
    simp only [List.map_cons, List.flatten_cons, bytes, List.cons_append, List.nil_append, byteWordPairs, ih, value,
      byte_toNat input, back]

theorem noRepeats_iff {α : Type} [DecidableEq α] (as : List α) : noRepeats as = true ↔ as.Nodup := by
  induction as with
  | nil => simp [noRepeats]
  | cons a as ih => simp [noRepeats, ih]

/-! ### Recomputations behind a reply -/

/-- R56, R61, R112: the flags of a recomputation behind a queued reply go out behind it. -/
theorem Tallied.begun {s t : State} {r : Request} {m : Message} {h h2 : HostLink} (leads : h.leads r m) (flags : Tallied s t h h2) :
    Tallied s t h.begun h2.begun := by
  obtain ⟨a, b, fault, change, starved⟩ := flags
  obtain ⟨fault, leadsA⟩ := RaisedIf.begun leads fault
  obtain ⟨change, leadsB⟩ := RaisedIf.begun leadsA change
  exact ⟨a.begun, b.begun, fault, change, by rw [starved]; exact (begun_handed leadsB ..).1⟩

/-- R58, R186: a recomputation behind a queued reply, whose transmission begins. -/
theorem Retraced.begun {u t : State} {r : Request} {m : Message} (h : Retraced u t) (leads : u.hlc.leads r m)
    (traced : Recomputed { t with hlc := t.hlc.begun }) :
    Retraced { u with hlc := u.hlc.begun } { t with hlc := t.hlc.begun } where
  lamps := ⟨h.lamps.bus, h.lamps.undeclared, h.lamps.declared⟩
  router := h.router
  tables := h.tables
  kept := h.kept
  traced := traced
  frame := ⟨h.frame.timing, h.frame.functions, h.frame.outputs, h.frame.talks⟩
  followed := h.followed
  unmoved := h.unmoved
  paths := h.paths
  mixed := h.mixed.congr rfl rfl rfl rfl
  flags := h.flags.begun leads
  pending := h.pending

/-- R58: a request in its turn that writes the tables of the Tally Tracer and triggers a recomputation. -/
theorem triggered_inTurn {α : Type} {c : Instr} {kind tag : Byte} {payload : List Byte} {decode : List Byte → Option α}
    {body : Request → α → State → State} {a : α} {write : TallyTracer → TallyTracer} {s s1 : State}
    (executes : exec c s = .next (requestOf kind tag payload decode body s)) (settled : Settled s)
    (turn : InTurn ⟨kind, tag, payload⟩ s s1) (read : decode payload = some a)
    (triggers : body ⟨kind, tag, payload⟩ a s1 = triggered ⟨kind, tag, payload⟩ write s1)
    (listed : ascending (write s1.tt).roots.entries = true) :
    ∃ t, exec c s = .next t ∧ Retraced { s1 with
      hlc := s1.hlc.answered ⟨kind, tag, payload⟩ .ok [], tt := write s1.tt } t := by
  let r : Request := ⟨kind, tag, payload⟩
  let u : State := { answer r .ok s1 with tt := write s1.tt }
  have traced : Retraced u (relamp (recomputeTally u)) := relamp_recomputeTally u listed
  have begun := traced.begun (replied_leads r .ok [] (turn.settled settled)) (recomputed_of (s := u)
    (congrArg RouteController.dests (recomputeTally_rc u)) (recomputeTally_cases u).1)
  refine ⟨transmit (triggered r write s1), by rw [executes, requestOf_inTurn turn read, triggers], ?_⟩
  rw [transmit_eq, ← begun_replied r .ok [] (turn.settled settled)]
  exact begun

theorem get_put_self {α : Type} (t : Table α) (a : α) (k : Nat) (v : α) : (t.put k v).get a k = v := by
  rw [Table.get, Table.find?_put_self]; rfl

theorem get_put_ne {α : Type} (t : Table α) (a : α) {j k : Nat} (h : j ≠ k) (v : α) : (t.put k v).get a j = t.get a j := by
  rw [Table.get, Table.find?_put_ne t h]; rfl

/-! ### SET_ROOT (R44) -/

theorem rootKindOf_bytes {kind : RootKind} {tail : List Byte}
    (written : (∃ d l, d < 65536 ∧ kind = .dest d l ∧ (tail = [0] ++ be16 d ++ [levelByte l] ∨ l = .vid ∧ tail = [0] ++ be16 d)) ∨
      ∃ m k : Byte, kind = .mixerBus m.toNat k.toNat ∧ tail = [1, m, k]) : rootKindOf tail = some kind := by
  rcases written with ⟨d, l, word, rfl, rfl | ⟨rfl, rfl⟩⟩ | ⟨m, k, rfl, rfl⟩
  · obtain ⟨a, b, bytes, value⟩ := be16_bytes word
    rw [bytes, ← value]
    exact congrArg (Option.map _) (levelOf_byte l)
  · obtain ⟨a, b, bytes, value⟩ := be16_bytes word
    rw [bytes, ← value]
    rfl
  · rfl

theorem rootKindOf_unread {kind : Byte} {tail : List Byte}
    (bad : 1 < kind.toNat ∨ (kind = 0 ∧ ∃ h l v : Byte, tail = [h, l, v] ∧ 3 < v.toNat)) : rootKindOf (kind :: tail) = none := by
  rcases bad with large | ⟨rfl, h, l, v, rfl, large⟩
  · have not0 : kind ≠ 0 := by rintro rfl; simp at large
    have not1 : kind ≠ 1 := by rintro rfl; simp at large
    unfold rootKindOf
    split
    · next named => obtain ⟨rfl, -⟩ := List.cons.inj named; rw [if_neg not0, if_neg not1]
    · next named => obtain ⟨rfl, -⟩ := List.cons.inj named; rw [if_neg not0]
    · rfl
  · exact congrArg (Option.map _) (levelOf_large large)

theorem rootArgs_eq (b e dom c : Byte) (rest : List Byte) : rootArgs (b :: e :: dom :: c :: rest) =
    (boolOf e).bind fun e => (domainOf dom).bind fun dom => (colourOf c).bind fun c => (rootKindOf rest).map fun k =>
      ⟨b.toNat, e, ⟨dom, c, k⟩⟩ := by
  simp only [rootArgs]
  cases boolOf e <;> cases domainOf dom <;> cases colourOf c <;> cases rootKindOf rest <;> rfl

theorem dest_inRange_iff (d : Nat) (l : Level) : (RootKind.dest d l).inRange = true ↔ 1 ≤ d ∧ d ≤ 256 := within_iff

theorem mixerBus_inRange_iff (m k : Nat) : (RootKind.mixerBus m k).inRange = true ↔ 1 ≤ m ∧ m ≤ 2 ∧ 1 ≤ k ∧ k ≤ 8 := by
  simp only [RootKind.inRange, Bool.and_eq_true, within_iff, and_assoc]

/-- Settles O30. -/
theorem setRootRetraces : Obligations.SetRootRetraces := by
  have executes : ∀ tag p s, exec (.setRoot tag p) s = .next (requestOf 0x30 tag p rootArgs setRoot s) := fun _ _ _ => rfl
  refine ⟨?_, fun tag b e dom c kind tail s s1 r hr settled turn bad => ?_⟩
  · intro tag b enabled dom c kind tail s s1 r written hr settled turn listed fits
    subst hr
    have read : rootArgs ([b, yesNo enabled, domainByte dom, colourByte c] ++ tail) = some ⟨b.toNat, enabled, ⟨dom, c, kind⟩⟩ := by
      rw [show [b, yesNo enabled, domainByte dom, colourByte c] ++ tail = b :: yesNo enabled :: domainByte dom :: colourByte c :: tail
        from rfl, rootArgs_eq, boolOf_yesNo, domainOf_byte, colourOf_byte, rootKindOf_bytes written]
      rfl
    have inRange : (within 1 16 b.toNat && kind.inRange) = true ↔ fits := by
      rw [Bool.and_eq_true, within_iff, and_assoc]
      refine and_congr_right fun _ => and_congr_right fun _ => ?_
      cases kind
      exacts [dest_inRange_iff .., mixerBus_inRange_iff ..]
    refine ⟨fun good => ?_, fun outside => refused_inTurn (executes ..) settled turn read (if_neg (mt inRange.1 outside))⟩
    have roots : s1.tt.roots = s.tt.roots := by rw [turn.tt_eq]
    have same : ∀ k, s1.root k = s.root k := fun k => congrArg (Table.get · Root.start k) roots
    obtain ⟨t, ends, traced⟩ := triggered_inTurn (executes ..) settled turn read (if_pos (inRange.2 good))
      (Table.ascending_put _ _ _ (by rw [roots]; exact listed))
    refine ⟨_, t, ends, ?_, fun k hk => ?_, rfl, traced⟩
    · rw [← same]; exact get_put_self ..
    · rw [← same]; exact get_put_ne _ _ hk _
  · subst hr
    refine unread_inTurn (executes ..) settled turn ?_
    rw [show [b, e, dom, c, kind] ++ tail = b :: e :: dom :: c :: kind :: tail from rfl, rootArgs_eq]
    rcases bad with bad | bad | bad | bad | bad
    · rw [rootKindOf_unread (.inl bad)]
      cases boolOf e <;> cases domainOf dom <;> cases colourOf c <;> rfl
    · rw [boolOf_large bad]; rfl
    · rw [domainOf_large bad]
      cases boolOf e <;> rfl
    · rw [colourOf_large bad]
      cases boolOf e <;> cases domainOf dom <;> rfl
    · rw [rootKindOf_unread (.inr bad)]
      cases boolOf e <;> cases domainOf dom <;> cases colourOf c <;> rfl

/-! ### Maps and ties (R50, R51) -/

/-- R50: an input map reads back what was written, the inputs being distinct. -/
theorem writeMap_find? (pairs : List (Nat × Option Nat)) (t : Table Nat) (distinct : (pairs.map Prod.fst).Nodup) :
    (∀ e ∈ pairs, (writeMap pairs t).find? e.1 = e.2) ∧
    ∀ i, i ∉ pairs.map Prod.fst → (writeMap pairs t).find? i = t.find? i := by
  induction pairs generalizing t with
  | nil => exact ⟨fun e he => absurd he (by simp), fun i _ => rfl⟩
  | cons e es ih =>
    obtain ⟨fresh, distinct⟩ := List.nodup_cons.1 distinct
    let t1 : Table Nat := match e.2 with | some d => t.put e.1 d | none => t.erase e.1
    have first : t1.find? e.1 = e.2 := by
      show (match e.2 with | some d => t.put e.1 d | none => t.erase e.1).find? e.1 = e.2
      cases e.2 <;> simp
    have rest : ∀ i, i ≠ e.1 → t1.find? i = t.find? i := fun i hi => by
      show (match e.2 with | some d => t.put e.1 d | none => t.erase e.1).find? i = _
      cases e.2
      exacts [Table.find?_erase_ne _ hi, Table.find?_put_ne _ hi _]
    obtain ⟨written, kept⟩ := ih t1 distinct
    refine ⟨fun x hx => ?_, fun i hi => ?_⟩
    · rcases List.mem_cons.1 hx with rfl | hx
      · exact (kept x.1 fresh).trans first
      · exact written x hx
    · simp only [List.map_cons, List.mem_cons, not_or] at hi
      exact (kept i hi.2).trans (rest i hi.1)

theorem mapInRange_iff (pairs : List (Nat × Option Nat)) : mapInRange pairs = true ↔
    1 ≤ pairs.length ∧ pairs.length ≤ 48 ∧ (pairs.map Prod.fst).Nodup ∧
      ∀ e ∈ pairs, 1 ≤ e.1 ∧ e.1 ≤ 48 ∧ ∀ y, e.2 = some y → 1 ≤ y ∧ y ≤ 256 := by
  have each : ∀ e : Nat × Option Nat,
      (within 1 48 e.1 && match e.2 with | some d => within 1 256 d | none => true) = true ↔
        1 ≤ e.1 ∧ e.1 ≤ 48 ∧ ∀ y, e.2 = some y → 1 ≤ y ∧ y ≤ 256 := by
    rintro ⟨i, y⟩
    cases y <;> simp [within_iff, and_assoc]
  unfold mapInRange
  simp only [Bool.and_eq_true, within_iff, List.all_eq_true, noRepeats_iff, and_assoc] at each ⊢
  constructor
  · rintro ⟨lo, hi, all, distinct⟩
    exact ⟨lo, hi, distinct, fun e he => (each e).1 (all e he)⟩
  · rintro ⟨lo, hi, distinct, all⟩
    exact ⟨lo, hi, fun e he => (each e).2 (all e he), distinct⟩

theorem mixerMapArgs_pairs {m : Byte} {pairs : List (Nat × Option Nat)} (short : pairs.length < 256)
    (words : ∀ e ∈ pairs, e.1 < 256 ∧ ∀ y, e.2 = some y → y < 0xFFFF) :
    mixerMapArgs (m :: counted (pairs.map fun e => byte e.1 :: be16 (e.2.getD 0xFFFF))) = some (m.toNat, pairs) := by
  have read := countedBytes_counted (width := 3) (xs := pairs.map fun e => byte e.1 :: be16 (e.2.getD 0xFFFF))
    (by rw [List.length_map]; exact short) (by
      intro x hx
      obtain ⟨e, -, rfl⟩ := List.mem_map.1 hx
      rfl)
  show Option.map (fun items => (m.toNat, (byteWordPairs items).map _)) (countedBytes 3 (counted _)) = _
  rw [read, Option.map_some, byteWordPairs_pairs words]

theorem tieArgs_be16 {x d : Nat} (hx : x < 65536) (hd : d < 65536) : tieArgs (be16 x ++ be16 d) = some (x, d) := by
  obtain ⟨a, b, bytes, value⟩ := be16_bytes hx
  obtain ⟨a', b', bytes', value'⟩ := be16_bytes hd
  rw [bytes, bytes', ← value, ← value']
  rfl

/-- Settles O31. -/
theorem mapsAndTiesRetrace : Obligations.MapsAndTiesRetrace := by
  intro tag m pairs x d s s1 r settled turn listed short words hx hd changed refused
  have listed1 : ascending s1.tt.roots.entries = true := by rw [turn.tt_eq]; exact listed
  have tie : ∀ y, s1.tie? y = s.tie? y := fun y => by rw [State.tie?, turn.tt_eq]; rfl
  refine ⟨?_, ?_, fun hr => ?_⟩
  · intro hr fits
    subst hr
    have executes : ∀ p, exec (.setMixerMap tag p) s = .next (requestOf 0x33 tag p mixerMapArgs setMixerMap s) := fun _ => rfl
    have read := mixerMapArgs_pairs (m := m) short words
    have inRange : (within 1 2 m.toNat && mapInRange pairs) = true ↔ fits := by
      rw [Bool.and_eq_true, within_iff, mapInRange_iff, and_assoc]
    refine ⟨fun good => ?_, fun outside => refused_inTurn (executes _) settled turn read (if_neg (mt inRange.1 outside))⟩
    obtain ⟨lo, hi, -, -, distinct, -⟩ := id good
    have maps : s1.tt.inputMap1 = s.tt.inputMap1 ∧ s1.tt.inputMap2 = s.tt.inputMap2 := by rw [turn.tt_eq]; exact ⟨rfl, rfl⟩
    obtain ⟨t, ends, traced⟩ := triggered_inTurn (executes _) settled turn read (if_pos (inRange.2 good))
      (by dsimp only; split <;> exact listed1)
    refine ⟨_, t, ⟨ends, rfl, traced⟩, ?_⟩
    have two : m.toNat = 1 ∨ m.toNat = 2 := by omega
    have written := fun map : Table Nat => (writeMap_find? pairs map distinct).1
    have kept := fun map : Table Nat => (writeMap_find? pairs map distinct).2
    have entries : ∀ k i, s1.mapEntry k i = s.mapEntry k i := fun k i => by
      rw [State.mapEntry, State.mapEntry, maps.1, maps.2]
    rcases two with one | two
    · rw [if_pos one, one]
      refine ⟨fun e he => (if_pos rfl).trans (written _ e he), fun k i hk hi => ?_, rfl⟩
      rw [← entries]
      by_cases first : k = 1
      · subst first
        exact (if_pos rfl).trans ((kept _ i fun h => hi ⟨rfl, h⟩).trans (if_pos rfl).symm)
      · exact (if_neg first).trans (if_neg first).symm
    · have not1 : ¬m.toNat = 1 := by omega
      rw [if_neg not1, two]
      refine ⟨fun e he => (if_neg (by decide)).trans (written _ e he), fun k i hk hi => ?_, rfl⟩
      rw [← entries]
      by_cases first : k = 1
      · exact (if_pos first).trans (if_pos first).symm
      · have second : k = 2 := by omega
        exact (if_neg first).trans ((kept _ i fun h => hi ⟨second, h⟩).trans (if_neg first).symm)
  · intro hr fits
    subst hr
    have executes : ∀ p, exec (.setTie tag p) s = .next (requestOf 0x34 tag p tieArgs setTie s) := fun _ => rfl
    have read := tieArgs_be16 hx hd
    have inRange : (within 1 256 x && within 1 256 d) = true ↔ fits := by
      rw [Bool.and_eq_true, within_iff, within_iff, and_assoc]
    have full : ((s1.tie? x).isNone && decide (Config.tiePlaces ≤ s1.tt.ties.entries.length)) = true ↔
        s.tie? x = none ∧ 32 ≤ s.tt.ties.entries.length := by
      rw [tie, turn.tt_eq, Bool.and_eq_true, Option.isNone_iff_eq_none, decide_eq_true_eq]; rfl
    refine ⟨fun good room => ?_, fun good unset places => ?_,
      fun outside => refused_inTurn (executes _) settled turn read (if_neg (mt inRange.1 outside))⟩
    · obtain ⟨t, ends, traced⟩ := triggered_inTurn (executes _) settled turn read
        ((if_pos (inRange.2 good)).trans (if_neg (mt full.1 room))) listed1
      exact ⟨_, t, ⟨ends, rfl, traced⟩, Table.find?_put_self .., fun y hy => (Table.find?_put_ne _ hy _).trans (tie y), rfl⟩
    · exact refused_inTurn (executes _) settled turn read ((if_pos (inRange.2 good)).trans (if_pos (full.2 ⟨unset, places⟩)))
  · subst hr
    have executes : ∀ p, exec (.clearTie tag p) s = .next (requestOf 0x35 tag p wordArg clearTie s) := fun _ => rfl
    have read := wordArg_be16 hx
    refine ⟨fun good => ?_, fun outside => refused_inTurn (executes _) settled turn read (if_neg (mt within_iff.1 outside))⟩
    obtain ⟨t, ends, traced⟩ := triggered_inTurn (executes _) settled turn read (if_pos (within_iff.2 good)) listed1
    exact ⟨_, t, ⟨ends, rfl, traced⟩, Table.find?_erase_self .., fun y hy => (Table.find?_erase_ne _ hy).trans (tie y), rfl⟩

end Sys2Proof.Machine

/-! Mixers, bus selections and the ends of traces (R46 to R54). -/

namespace Sys2Proof.Machine

/-- R183, R185: a request in its turn that is answered and changes other blocks than the link. -/
theorem written_inTurn {α : Type} {c : Instr} {kind tag : Byte} {payload : List Byte} {decode : List Byte → Option α}
    {body : Request → α → State → State} {a : α} {code : ReplyCode} {s s1 y : State}
    (executes : exec c s = .next (requestOf kind tag payload decode body s)) (settled : Settled s)
    (turn : InTurn ⟨kind, tag, payload⟩ s s1) (read : decode payload = some a)
    (writes : body ⟨kind, tag, payload⟩ a s1 = y) (link : y.hlc = s1.hlc.replied ⟨kind, tag, payload⟩ code []) :
    exec c s = .next { y with hlc := s1.hlc.answered ⟨kind, tag, payload⟩ code [] } := by
  rw [executes, requestOf_inTurn turn read, writes, transmit_eq, link, begun_replied _ _ _ (turn.settled settled)]

/-! ### Mixers (R46) -/

theorem bus_setBus_self (v : Mixer) (k : Nat) (b : Bus) : (v.setBus k b).bus k = b := Table.get_set_self ..

theorem bus_setBus_ne (v : Mixer) {j k : Nat} (h : j ≠ k) (b : Bus) : (v.setBus k b).bus j = v.bus j := Table.get_set_ne _ _ h _

theorem bus_source (v : Mixer) (x : MixerSource) (k : Nat) : ({ v with source := x } : Mixer).bus k = v.bus k := rfl

/-- R46, R49: the buses of a list marked stale, one after another. -/
theorem staleBuses (bs : List Nat) (v : Mixer) :
    (bs.foldl (fun x b => x.setBus b { x.bus b with stale := true }) v).source = v.source ∧
    ∀ k, (bs.foldl (fun x b => x.setBus b { x.bus b with stale := true }) v).bus k =
      if k ∈ bs then ⟨(v.bus k).selection, true⟩ else v.bus k := by
  induction bs generalizing v with
  | nil => exact ⟨rfl, fun k => rfl⟩
  | cons b bs ih =>
    obtain ⟨source, buses⟩ := ih (v.setBus b { v.bus b with stale := true })
    refine ⟨source, fun k => (buses k).trans ?_⟩
    by_cases first : k = b
    · subst first
      rw [bus_setBus_self, if_pos (List.mem_cons_self ..)]
      split <;> rfl
    · rw [bus_setBus_ne _ first]
      simp only [List.mem_cons, first, false_or]

theorem mixerSource_inRange_iff (b : Byte) : (mixerSourceOf b).inRange = true ↔ b.toNat ≤ 32 := by
  unfold mixerSourceOf
  split
  · next zero => subst zero; simp [MixerSource.inRange]
  · next some =>
    have positive : b.toNat ≠ 0 := fun h => some (BitVec.eq_of_toNat_eq h)
    simp only [MixerSource.inRange, within_iff]
    omega

theorem mixerSource_system_iff (b : Byte) : mixerSourceOf b ≠ .system ↔ b ≠ 0 := by
  unfold mixerSourceOf
  split
  · next zero => exact ⟨fun h => absurd rfl h, fun h => absurd zero h⟩
  · next some => exact ⟨fun _ => some, fun _ => nofun⟩

/-- Settles O32. -/
theorem setMixerMarksStale : Obligations.SetMixerMarksStale := by
  have stale : ∀ v : Mixer, v.allStale.source = v.source ∧
      ∀ k, v.allStale.bus k = if 1 ≤ k ∧ k ≤ 8 then ⟨(v.bus k).selection, true⟩ else v.bus k := fun v => by
    obtain ⟨source, buses⟩ := staleBuses (numbers 1 8) v
    simp only [mem_numbers, within_iff] at buses
    exact ⟨source, buses⟩
  refine ⟨stale, ?_⟩
  intro tag m b s s1 r hr settled turn fits source clash
  subst hr
  have executes : exec (.setMixer tag [m, b]) s = .next (requestOf 0x31 tag [m, b] mixerArgs setMixerSource s) := rfl
  have read : mixerArgs [m, b] = some (m.toNat, mixerSourceOf b) := rfl
  have mixer : ∀ k, s1.mixer k = s.mixer k := fun k => by rw [State.mixer, turn.tt_eq]; rfl
  have inRange : (within 1 2 m.toNat && (mixerSourceOf b).inRange) = true ↔ fits := by
    rw [Bool.and_eq_true, within_iff, mixerSource_inRange_iff, and_assoc]
  have clashes : (mixerSourceOf b ≠ .system ∧ (s1.mixer (3 - m.toNat)).source = mixerSourceOf b) ↔ clash := by
    rw [mixerSource_system_iff, mixer]; exact Iff.rfl
  refine ⟨fun good free new => ?_, fun good free same => ?_, fun good taken => ?_, fun outside => ?_⟩
  · let r : Request := ⟨0x31, tag, [m, b]⟩
    let v : Mixer := { (s.mixer m.toNat).allStale with source := source }
    have written : setMixerSource r (m.toNat, mixerSourceOf b) s1 = (answer r .ok s1).setMixer m.toNat v := by
      refine (if_pos (inRange.2 good)).trans ((if_neg (mt clashes.1 free)).trans ((if_neg ?_).trans ?_))
      · rw [mixer]; exact new
      · rw [mixer]; rfl
    have same : ∀ k, ((s1.setMixer m.toNat v).mixer k) = if k = m.toNat then v else s.mixer k := fun k => by
      by_cases named : k = m.toNat
      · rw [if_pos named, named]; exact State.mixer_setMixer_self ..
      · rw [if_neg named, ← mixer]; exact State.mixer_setMixer_ne _ named _
    have buses : ∀ k, v.bus k = if 1 ≤ k ∧ k ≤ 8 then ⟨((s.mixer m.toNat).bus k).selection, true⟩ else (s.mixer m.toNat).bus k :=
      fun k => (bus_source _ source k).trans ((stale (s.mixer m.toNat)).2 k)
    refine ⟨{ s1.setMixer m.toNat v with hlc := s1.hlc.answered r .ok [] }, ?_, ?_, fun k => ?_, fun k hk => ?_, rfl⟩
    · exact (written_inTurn executes settled turn read written rfl).trans rfl
    · exact congrArg Mixer.source ((same _).trans (if_pos rfl))
    · rw [show ({ s1.setMixer m.toNat v with hlc := s1.hlc.answered r .ok [] } : State).mixer m.toNat = v
        from (same _).trans (if_pos rfl), buses]
      refine ⟨by split <;> rfl, fun range => by rw [if_pos range]⟩
    · exact (same k).trans (if_neg hk)
  · refine refused_inTurn executes settled turn read
      ((if_pos (inRange.2 good)).trans ((if_neg (mt clashes.1 free)).trans (if_pos ?_)))
    rw [mixer]; exact same
  · exact refused_inTurn executes settled turn read ((if_pos (inRange.2 good)).trans (if_pos (clashes.2 taken)))
  · exact refused_inTurn executes settled turn read (if_neg (mt inRange.1 outside))

/-! ### Bus selections (R47, R48) -/

/-- R47: the buses of a mixer after a list of selections of distinct buses. -/
theorem select_bus (pairs : List (Nat × Nat)) (v : Mixer) (distinct : (pairs.map Prod.fst).Nodup) :
    (v.select pairs).source = v.source ∧ (∀ e ∈ pairs, (v.select pairs).bus e.1 = ⟨e.2, false⟩) ∧
    ∀ k, k ∉ pairs.map Prod.fst → (v.select pairs).bus k = v.bus k := by
  induction pairs generalizing v with
  | nil => exact ⟨rfl, fun e he => absurd he (by simp), fun k _ => rfl⟩
  | cons e es ih =>
    obtain ⟨fresh, distinct⟩ := List.nodup_cons.1 distinct
    obtain ⟨source, written, kept⟩ := ih (v.setBus e.1 ⟨e.2, false⟩) distinct
    refine ⟨source, fun x hx => ?_, fun k hk => ?_⟩
    · rcases List.mem_cons.1 hx with rfl | hx
      · exact (kept x.1 fresh).trans (bus_setBus_self ..)
      · exact written x hx
    · simp only [List.map_cons, List.mem_cons, not_or] at hk
      exact (kept k hk.2).trans (bus_setBus_ne _ hk.1 _)

theorem selectionsInRange_iff (pairs : List (Nat × Nat)) : selectionsInRange pairs = true ↔
    1 ≤ pairs.length ∧ pairs.length ≤ 8 ∧ (pairs.map Prod.fst).Nodup ∧ ∀ e ∈ pairs, 1 ≤ e.1 ∧ e.1 ≤ 8 ∧ e.2 ≤ 48 := by
  unfold selectionsInRange
  simp only [Bool.and_eq_true, within_iff, List.all_eq_true, noRepeats_iff, Nat.zero_le, true_and, and_assoc]
  exact ⟨fun ⟨lo, hi, all, distinct⟩ => ⟨lo, hi, distinct, all⟩, fun ⟨lo, hi, distinct, all⟩ => ⟨lo, hi, all, distinct⟩⟩

theorem mixerStateArgs_pairs {m : Byte} {pairs : List (Nat × Nat)} (short : pairs.length < 256)
    (bytes : ∀ e ∈ pairs, e.1 < 256 ∧ e.2 < 256) :
    mixerStateArgs (m :: counted (pairs.map fun e => [byte e.1, byte e.2])) = some (m.toNat, pairs) := by
  have read := countedBytes_counted (width := 2) (xs := pairs.map fun e => [byte e.1, byte e.2])
    (by rw [List.length_map]; exact short) (by
      intro x hx
      obtain ⟨e, -, rfl⟩ := List.mem_map.1 hx
      rfl)
  show Option.map (fun items => (m.toNat, bytePairs items)) (countedBytes 2 (counted _)) = _
  rw [read, Option.map_some, bytePairs_pairs bytes]

/-- R48: the mixer that a bus-state event is for. -/
theorem applyBusState_eq {s : State} {p m : Nat} (b i : Nat) (two : 1 ≤ m ∧ m ≤ 2) (source : (s.mixer m).source = .bridge p)
    (first : ∀ k, 1 ≤ k ∧ k < m → (s.mixer k).source ≠ .bridge p) :
    applyBusState p b i s = if s.inService p && within 1 8 b && within 0 48 i then
      recomputeTally (s.setMixer m ((s.mixer m).setBus b ⟨i, false⟩)) else s := by
  have found : (numbers 1 2).find? (fun m => (s.mixer m).source == .bridge p) = some m := by
    show [1, 2].find? _ = _
    have either : m = 1 ∨ m = 2 := by omega
    rcases either with rfl | rfl
    · exact List.find?_cons_of_pos (by simpa using source)
    · rw [List.find?_cons_of_neg (by simpa using first 1 (by decide)), List.find?_cons_of_pos (by simpa using source)]
  unfold applyBusState
  rw [found]

/-- R48: a bus-state event that is for no mixer. -/
theorem applyBusState_none {s : State} {p : Nat} (b i : Nat) (none : ∀ k, 1 ≤ k ∧ k ≤ 2 → (s.mixer k).source ≠ .bridge p) :
    applyBusState p b i s = s := by
  have missed : (numbers 1 2).find? (fun m => (s.mixer m).source == .bridge p) = .none := by
    rw [List.find?_eq_none]
    intro k hk
    simpa using none k (within_iff.1 (mem_numbers.1 hk))
  unfold applyBusState
  rw [missed]

/-- R48, R164: a bus-state event that is taken. -/
theorem busState_taken {p b i : Nat} {s s1 : State} (taken : Taken ⟨p, .busState b i⟩ s s1) :
    exec (.busState p b i) s = .next { relamp (applyBusState p b i s1) with hlc := (relamp (applyBusState p b i s1)).hlc.begun } := by
  show Host.Outcome.next (transmit (takeEvent _ _ s)) = _
  rw [takeEvent_taken taken, transmit_eq]

/-- R164, R176: an event that is taken and does nothing. -/
theorem idle_follows (u : State) : LampsFollow { u with hlc := u.hlc.begun } { relamp u with hlc := (relamp u).hlc.begun } :=
  relamp_follows { u with hlc := u.hlc.begun }

/-- Settles O33. -/
theorem busesAreSelected : Obligations.BusesAreSelected := by
  refine ⟨?_, fun p b i s s1 taken none => ?_, fun p b i m s s1 taken listed two source first => ?_⟩
  · intro tag m pairs s s1 r settled turn listed short bytes hr fits
    subst hr
    have executes : ∀ p, exec (.mixerState tag p) s = .next (requestOf 0x32 tag p mixerStateArgs mixerState s) := fun _ => rfl
    have read := mixerStateArgs_pairs (m := m) short bytes
    have mixer : ∀ k, s1.mixer k = s.mixer k := fun k => by rw [State.mixer, turn.tt_eq]; rfl
    have inRange : (within 1 2 m.toNat && selectionsInRange pairs) = true ↔ fits := by
      rw [Bool.and_eq_true, within_iff, selectionsInRange_iff, and_assoc]
    refine ⟨fun good system => ?_, fun good bridge => ?_,
      fun outside => refused_inTurn (executes _) settled turn read (if_neg (mt inRange.1 outside))⟩
    · obtain ⟨-, -, -, -, distinct, -⟩ := id good
      obtain ⟨source, written, kept⟩ := select_bus pairs (s1.mixer m.toNat) distinct
      obtain ⟨t, ends, traced⟩ := triggered_inTurn (executes _) settled turn read
        ((if_pos (inRange.2 good)).trans (if_pos (by rw [mixer]; exact system))) (by rw [turn.tt_eq]; exact listed)
      let x : State := s1.setMixer m.toNat ((s1.mixer m.toNat).select pairs)
      have self : x.mixer m.toNat = (s1.mixer m.toNat).select pairs := State.mixer_setMixer_self ..
      refine ⟨{ x with hlc := s1.hlc.answered ⟨0x32, tag, m :: counted (pairs.map fun e => [byte e.1, byte e.2])⟩ .ok [] }, t, ends,
        fun e he => ?_, fun k hk => ?_, ?_, fun k hk => ?_, rfl, traced⟩
      · exact (congrArg (Mixer.bus · e.1) self).trans (written e he)
      · exact (congrArg (Mixer.bus · k) self).trans ((kept k hk).trans (by rw [mixer]))
      · exact (congrArg Mixer.source self).trans (source.trans (by rw [mixer]; exact system))
      · exact (State.mixer_setMixer_ne _ hk _).trans (mixer k)
    · exact refused_inTurn (executes _) settled turn read
        ((if_pos (inRange.2 good)).trans (if_neg (by rw [mixer]; exact bridge)))
  · have same : ∀ k, s1.mixer k = s.mixer k := fun k => by rw [taken_eq taken]; rfl
    rw [busState_taken taken, applyBusState_none b i fun k hk => by rw [same]; exact none k hk]
    exact ⟨_, rfl, idle_follows s1⟩
  · have same : ∀ k, s1.mixer k = s.mixer k := fun k => by rw [taken_eq taken]; rfl
    have service : s1.inService p = s.inService p := by rw [taken_eq taken]; rfl
    have applied := applyBusState_eq (s := s1) b i two (by rw [same]; exact source) fun k hk => by rw [same]; exact first k hk
    rw [busState_taken taken]
    refine ⟨fun serving bus input => ?_, fun discarded => ?_⟩
    · rw [if_pos (by rw [service, serving, within_iff.2 bus, within_iff.2 ⟨Nat.zero_le _, input⟩]; rfl)] at applied
      rw [applied]
      let u : State := s1.setMixer m ((s1.mixer m).setBus b ⟨i, false⟩)
      have self : u.mixer m = (s1.mixer m).setBus b ⟨i, false⟩ := State.mixer_setMixer_self ..
      have roots : u.tt.roots = s.tt.roots := by show s1.tt.roots = _; rw [taken_eq taken]
      refine ⟨u, _, rfl, ?_, fun k hk => ?_, ?_, fun k hk => ?_, rfl, relamp_recomputeTally u (by rw [roots]; exact listed)⟩
      · rw [self]; exact bus_setBus_self ..
      · rw [self, ← same]; exact bus_setBus_ne _ hk _
      · rw [self, ← source, ← same]; rfl
      · rw [← same]; exact State.mixer_setMixer_ne _ hk _
    · rw [if_neg] at applied
      · rw [applied]
        exact ⟨_, rfl, idle_follows s1⟩
      · simp only [Bool.and_eq_true, within_iff, Nat.zero_le, true_and, service, and_assoc]
        simpa only [and_assoc] using discarded

/-! ### Traces (R52 to R54) -/

/-- R53: the terminal of a trace is a source that no tie feeds. -/
theorem traceFrom_terminal {s : State} {l : Level} {x : Nat} (hops : Nat) (visited : List Nat) (d : Nat)
    (ends : s.traceFrom l hops visited d = .terminal x) : x ≠ 0 ∧ s.tie? x = none := by
  induction hops generalizing visited d with
  | zero =>
    rw [State.traceFrom] at ends
    split at ends
    · exact absurd ends (by simp)
    · split at ends
      · exact absurd ends (by simp)
      · next some =>
        split at ends
        · next untied => obtain rfl := TraceEnd.terminal.inj ends; exact ⟨some, untied⟩
        · split at ends <;> exact absurd ends (by simp)
  | succ n ih =>
    rw [State.traceFrom] at ends
    split at ends
    · exact absurd ends (by simp)
    · split at ends
      · exact absurd ends (by simp)
      · next some =>
        split at ends
        · next untied => obtain rfl := TraceEnd.terminal.inj ends; exact ⟨some, untied⟩
        · split at ends
          · exact absurd ends (by simp)
          · exact ih _ _ ends

/-- Settles O34, by the branches of a trace. -/
theorem tracesEnd : Obligations.TracesEnd := by
  refine ⟨fun s r => ⟨?_, ?_⟩, fun s d l => rfl, fun s m b => ⟨fun ends => ?_, fun d selected mapped => ?_⟩,
    fun s l hops visited d => ⟨fun unfitted => ?_, fun x f fitted => ?_⟩, fun s k x ends => ?_⟩
  · exact (recomputed_of (s := s) (congrArg RouteController.dests (recomputeTally_cases s).2) (recomputeTally_cases s).1).roots r
  · have same : (recomputeTally s).root r = (s.root r).after (s.traceRoot (s.root r)) := by
      rw [← root_retrace, State.root, (recomputeTally_cases s).1]; rfl
    rw [same]
    exact after_kept ..
  · show (if _ then _ else _) = _
    rcases ends with unselected | unmapped
    · exact if_pos unselected
    · split
      · rfl
      · rw [unmapped]
  · show (if _ then _ else _) = _
    rw [if_neg selected, mapped]
    rfl
  · rw [State.traceFrom.eq_def]
    dsimp only
    rw [unfitted]
  · rw [State.traceFrom.eq_def s l hops visited d]
    dsimp only
    rw [fitted]
    dsimp only
    refine ⟨fun park => if_pos park, fun some untied => ?_, fun d2 some tied => ?_⟩
    · rw [if_neg some, untied]
    · rw [if_neg some, tied]
      dsimp only
      have visits : (d :: visited).contains d2 = true ↔ d2 = d ∨ d2 ∈ visited := by simp
      refine ⟨fun back => if_pos (visits.2 back), fun on last => ?_, fun n on more => ?_⟩
      · rw [if_neg (mt visits.1 on), last]
      · rw [if_neg (mt visits.1 on), more]
  · cases k with
    | dest d l => exact traceFrom_terminal _ _ _ ends
    | mixerBus m b =>
      unfold State.trace at ends
      dsimp only at ends
      split at ends
      · exact absurd ends (by simp)
      · split at ends
        · exact absurd ends (by simp)
        · exact traceFrom_terminal _ _ _ ends

end Sys2Proof.Machine

/-! The lamp fault monitor, the coefficients, the ports, the timers and the knobs (R66 to R81, R91, R120 to R129). -/

namespace Sys2Proof.Machine

/-! ### The lamp fault monitor (R73 to R77) -/

/-- R77: whether some output is at fault. -/
def State.lampFaulted (s : State) : Bool := s.tou.outputs.values.any fun v => v.fault != .ok

theorem lampFaulted_iff (s : State) : s.lampFaulted = true ↔ ∃ e ∈ s.tou.outputs.entries, e.2.fault ≠ .ok := by
  unfold State.lampFaulted Table.values
  simp

theorem evaluateLampFault_eq (s : State) : evaluateLampFault s = { s with
    hlc := s.hlc.handed .lampFault s.tou.lampFault s.lampFaulted, tou := { s.tou with lampFault := s.lampFaulted } } :=
  handOver_eq .lampFault s.tou.lampFault s.lampFaulted { s with tou := { s.tou with lampFault := s.lampFaulted } }

/-- R69, R77: what re-evaluating every drive and LAMP_FAULT leaves. -/
structure OutputsJudged (s t : State) : Prop where
  outputs : SameOutputs s t
  drives : ∀ n, (t.output n).drive = t.driveOf n
  fault : t.tou.lampFault = true ↔ ∃ e ∈ t.tou.outputs.entries, e.2.fault ≠ .ok
  rest : t = { s with
    hlc := s.hlc.handed .lampFault s.tou.lampFault t.tou.lampFault
    tou := { s.tou with outputs := t.tou.outputs, lampFault := t.tou.lampFault } }

theorem driveOf_driveAll (s : State) (n : Nat) : (driveAll s).driveOf n = s.driveOf n :=
  driveOf_congr (sameOutputs_driveAll s) rfl rfl rfl n

theorem outputsJudged (s : State) : OutputsJudged s (evaluateLampFault (driveAll s)) := by
  rw [evaluateLampFault_eq]
  refine ⟨sameOutputs_driveAll s, fun n => ?_, lampFaulted_iff (driveAll s), rfl⟩
  show ((driveAll s).output n).drive = (driveAll s).driveOf n
  rw [driveOf_driveAll, output_driveAll]

/-- R73 to R75: a fault state written. -/
theorem setFault_judged (n : Nat) (f : LampFaultState) (s : State) :
    OutputsJudged (s.setOutput n { s.output n with fault := f }) (setFault n f s) := outputsJudged _

theorem faultWritten_output (n : Nat) (f : LampFaultState) (s : State) :
    (((s.setOutput n { s.output n with fault := f }).output n).config = (s.output n).config ∧
      ((s.setOutput n { s.output n with fault := f }).output n).fault = f) ∧
    ∀ k, k ≠ n → (s.setOutput n { s.output n with fault := f }).output k = s.output k :=
  ⟨by rw [State.output_setOutput_self]; exact ⟨rfl, rfl⟩, fun k hk => State.output_setOutput_ne _ hk _⟩

/-- R66, R73: whether the sense of an output is in use. -/
theorem sensed_iff (s : State) (n : Nat) : s.sensed n = true ↔
    ∃ v, (s.output n).config = some v ∧ v.monitor = true ∧
      ((s.output n).drive = .on ∨ (s.output n).drive = .flash ∧ s.tou.flashLit = true) := by
  unfold State.sensed State.isLit
  cases config : (s.output n).config with
  | none => simp
  | some v => cases drive : (s.output n).drive <;> simp

/-- Settles O36. -/
theorem lampFaultsAreMonitored : Obligations.LampFaultsAreMonitored := by
  unfold Obligations.LampFaultsAreMonitored
  intro fault handed
  have written : ∀ (n : Nat) (f : LampFaultState) (s s1 x : State) (link : Bool → HostLink) (c : Instr),
      s1.tou = s.tou → x = { s1 with hlc := x.hlc } →
      (∀ now, (x.hlc.handed .lampFault s.tou.lampFault now).begun = link now) →
      exec c s = .next (transmit (setFault n f x)) → fault c s s1 link n f := by
    intro n f s s1 x link c tables base links ends
    have judged := setFault_judged n f x
    obtain ⟨⟨config, faulted⟩, others⟩ := faultWritten_output n f x
    have tou : x.tou = s.tou := by rw [base]; exact tables
    have output : ∀ k, x.output k = s.output k := fun k => by rw [State.output, tou]; rfl
    refine ⟨transmit (setFault n f x), ends, ?_⟩
    rw [transmit_eq]
    refine ⟨?_, ?_, fun k hk => ?_, judged.drives, judged.fault, ?_⟩
    · exact ((judged.outputs n).1.trans config).trans (by rw [output])
    · exact (judged.outputs n).2.trans faulted
    · obtain ⟨same, kept⟩ := judged.outputs k
      rw [others k hk, output] at same kept
      exact ⟨same, kept⟩
    · have rest := judged.rest
      have link : (setFault n f x).hlc.begun = link (setFault n f x).tou.lampFault := by
        rw [← links, ← tou]
        exact congrArg (fun y : State => y.hlc.begun) rest
      rw [show ({ setFault n f x with hlc := (setFault n f x).hlc.begun } : State).tou.lampFault = (setFault n f x).tou.lampFault
        from rfl, ← link]
      refine (congrArg (fun y : State => { y with hlc := (setFault n f x).hlc.begun }) rest).trans ?_
      exact congrArg (fun y : State => { y with
        hlc := (setFault n f x).hlc.begun
        tou := { y.tou with outputs := (setFault n f x).tou.outputs, lampFault := (setFault n f x).tou.lampFault } }) base
  refine ⟨fun tag b s s1 r hr settled turn => ?_, fun n s settled => ⟨fun v config monitor lit => ?_, fun unsensed => ?_⟩,
    fun s => rfl, driveRule⟩
  · subst hr
    have executes : exec (.lampClear tag [b]) s = .next (requestOf 0x42 tag [b] byteArg lampClear s) := rfl
    have read : byteArg [b] = some b.toNat := rfl
    refine ⟨fun range => ?_, fun outside => refused_inTurn executes settled turn read (if_neg (mt within_iff.1 outside))⟩
    refine written b.toNat .ok s s1 (answer ⟨0x42, tag, [b]⟩ .ok s1) (fun now => (s1.hlc.answered ⟨0x42, tag, [b]⟩ .ok []).handed
      .lampFault s.tou.lampFault now) _ turn.tou_eq rfl (fun now => ?_) ?_
    · rw [← begun_replied _ .ok [] (turn.settled settled)]
      exact (begun_handed (replied_leads _ .ok [] (turn.settled settled)) ..).1
    · rw [executes, requestOf_inTurn turn read]
      exact congrArg (fun x => Host.Outcome.next (transmit x)) (if_pos (within_iff.2 range))
  · have sensed : s.sensed n = true := (sensed_iff s n).2 ⟨v, config, monitor, lit⟩
    have acts : ∀ (c : Instr) (f : LampFaultState), exec c s = .next (transmit (setFault n f s)) → fault c s s (handed s) n f :=
      fun c f ends => written n f s s s _ c rfl rfl (fun _ => rfl) ends
    have sample : ∀ current, exec (.loadSample n current) s = .next (transmit (takeSample n current s)) := fun _ => rfl
    have takes : ∀ current, takeSample n current s = match (s.output n).fault, current with
        | .ok, false => setFault n .openLoad s
        | .openLoad, true => setFault n .ok s
        | _, _ => s := fun current => (if_pos sensed).trans rfl
    have still : ∀ current, takeSample n current s = s → exec (.loadSample n current) s = .next s := fun current h => by
      rw [sample, h, transmit_settled settled]
    refine ⟨fun ok => ⟨acts _ _ ?_, still _ ?_⟩, fun isOpen => ⟨acts _ _ ?_, still _ ?_⟩, acts _ _ ?_⟩
    · rw [sample, takes, ok]
    · rw [takes, ok]
    · rw [sample, takes, isOpen]
    · rw [takes, isOpen]
    · exact congrArg (fun x => Host.Outcome.next (transmit x)) (if_pos sensed)
  · have off : ¬s.sensed n = true := by
      rw [sensed_iff]
      rintro ⟨v, config, monitor, lit⟩
      rcases unsensed with unset | ⟨w, set, unmonitored⟩ | dark | ⟨flashing, unlit⟩
      · simp [config] at unset
      · obtain rfl := Option.some.inj (config.symm.trans set)
        simp [monitor] at unmonitored
      · simp [dark] at lit
      · simp [flashing, unlit] at lit
    have still : ∀ x, x = s → (Host.Outcome.next (transmit x) : Result) = .next s := fun x h => by
      rw [h, transmit_settled settled]
    exact ⟨fun current => still _ (if_neg off), still _ (if_neg off)⟩

/-! ### Coefficients (R120 to R127) -/

theorem limited_bounds {k n : Int} (h : limited k = .steps n) : -144 ≤ n ∧ n ≤ 24 := by
  unfold limited at h
  split at h
  · obtain rfl := Coefficient.steps.inj h; omega
  · split at h
    · exact absurd h (by simp)
    · obtain rfl := Coefficient.steps.inj h; omega

theorem programCoefficient_bounds {s : State} {i : Ifb} {n : Int} (h : programCoefficient s i = .steps n) : -144 ≤ n ∧ n ≤ 24 := by
  unfold programCoefficient at h
  dsimp only at h
  split at h
  · exact limited_bounds h
  · exact limited_bounds h
  · exact absurd h (by simp)

/-- Settles O39, stage by stage. -/
theorem coefficientArithmetic : Obligations.CoefficientArithmetic := by
  refine ⟨fun s paths p => ⟨fun starved => ?_, fun number c admitted => ⟨fun talk => ?_, fun n i program configured => ?_⟩⟩, ?_, ?_, ?_⟩
  · unfold State.withCoefficient; rw [starved]
  · unfold State.withCoefficient; rw [admitted]; dsimp only; rw [talk]
  · unfold State.withCoefficient; rw [admitted]; dsimp only; rw [program]; dsimp only; rw [configured]
  · intro s n t l x dim pre held shared sum
    have dims : s.dimTerm l = dim := by
      have dimmed : s.dimmed l = true ↔ ∃ k ∈ s.tc.talks, k.talker = l := by simp [State.dimmed]
      exact if_congr dimmed rfl rfl
    have caps : heldTo (capOf (s.port l).ceiling (s.port t).talkerCeiling) pre = held := by
      show _ = (match (s.port l).ceiling, (s.port t).talkerCeiling with
        | none, _ => pre
        | some c, none => min pre c
        | some c, some k => min pre (min c k))
      cases (s.port l).ceiling <;> cases (s.port t).talkerCeiling <;> rfl
    have pregain : (s.port t).trim + x + s.dimTerm l = pre := by rw [dims]
    show limited (heldTo _ ((s.port t).trim + x + s.dimTerm l) + autoLevel n + (s.port l).volume) = _
    rw [pregain, caps]
    rfl
  · intro s i sum limit
    refine ⟨fun idle => ?_, fun c duck interrupted ducked => ?_, fun c interrupted cut => ?_⟩ <;> unfold programCoefficient
    · rw [idle]; rfl
    · rw [interrupted, ducked]; rfl
    · rw [interrupted, cut]
  · intro s paths p q number k hq admitted
    subst hq
    unfold State.withCoefficient at admitted
    split at admitted
    · next starved => rw [starved] at admitted; exact absurd admitted (by simp)
    · dsimp only at admitted
      have value := (Admission.admitted.inj admitted).2
      split at value
      · exact limited_bounds value
      · split at value
        · exact programCoefficient_bounds value
        · exact absurd value (by simp)

/-- R120: a coefficient reads the ports, the talks and the IFBs. -/
theorem withCoefficient_of_tc {s t : State} (h : t.tc = s.tc) : t.withCoefficient = s.withCoefficient := by
  funext paths p
  unfold State.withCoefficient talkCoefficient programCoefficient State.dimTerm State.dimmed State.port State.ifb?
  rw [h]

/-! ### Ports and groups (R79 to R82) -/

theorem mem_asPortSet (ports : List Nat) (q : Nat) : q ∈ asPortSet ports ↔ q ∈ ports := by
  unfold asPortSet; rw [(inOrder_spec ..).1, (withoutRepeats_spec ports).1]

/-- R82: a port set is ascending. -/
theorem asPortSet_pairwise (ports : List Nat) : (asPortSet ports).Pairwise (· < ·) := by
  have ordered : (asPortSet ports).Pairwise fun a b => ¬b < a :=
    pairwise_inOrder_of (R := fun a b => a < b) (fun a b => by simp) (fun a b h => Nat.not_lt.2 (Nat.le_of_lt h))
      (fun a b c h1 h2 => by omega) _
  have distinct : (asPortSet ports).Pairwise (· ≠ ·) := (inOrder_spec ..).2 (withoutRepeats_spec ports).2
  exact ordered.imp₂ (fun a b h1 h2 => by omega) distinct

theorem steps_stepsByte {x : Int} (h : -128 ≤ x ∧ x ≤ 127) : steps (stepsByte x) = x := by
  unfold steps stepsByte
  rw [BitVec.toInt_ofInt, Int.bmod_eq_of_le] <;> norm_num <;> omega

theorem ceilingOf_byte {c : Option Int} (h : ∀ x ∈ c.toList, -127 ≤ x ∧ x ≤ 127) : ceilingOf (ceilingByte c) = c := by
  cases c with
  | none => rfl
  | some x =>
    have range := h x (by simp)
    have back : steps (stepsByte x) = x := steps_stepsByte ⟨by omega, range.2⟩
    have present : stepsByte x ≠ 0x80 := fun h => by
      rw [h] at back
      have : steps 0x80 = -128 := by decide
      omega
    show (if stepsByte x = 0x80 then none else some (steps (stepsByte x))) = _
    rw [if_neg present, back]

theorem portArgs_bytes {b : Byte} {v : Port}
    (h : ∀ x ∈ [v.trim, v.volume, v.dim] ++ v.ceiling.toList ++ v.talkerCeiling.toList, -127 ≤ x ∧ x ≤ 127) :
    portArgs [b, roleByte v.role, stepsByte v.trim, stepsByte v.volume, stepsByte v.dim, ceilingByte v.ceiling,
      ceilingByte v.talkerCeiling] = some (b.toNat, v) := by
  have role : roleOf (roleByte v.role) = some v.role := by cases v.role <;> rfl
  have back : ∀ x ∈ [v.trim, v.volume, v.dim], steps (stepsByte x) = x := fun x hx =>
    steps_stepsByte (by have := h x (by simp only [List.mem_append]; exact .inl (.inl hx)); omega)
  simp only [portArgs, role, Option.map_some, back v.trim (by simp), back v.volume (by simp), back v.dim (by simp),
    ceilingOf_byte fun x hx => h x (by simp only [List.mem_append]; exact .inl (.inr hx)),
    ceilingOf_byte fun x hx => h x (by simp only [List.mem_append]; exact .inr hx)]

theorem withinInt_iff {lo hi n : Int} : withinInt lo hi n = true ↔ lo ≤ n ∧ n ≤ hi := by simp [withinInt]

theorem port_inRange_iff (v : Port) : v.inRange = true ↔ (-24 ≤ v.trim ∧ v.trim ≤ 24) ∧ (-120 ≤ v.volume ∧ v.volume ≤ 0) ∧
    (-60 ≤ v.dim ∧ v.dim ≤ 0) ∧ ∀ c ∈ v.ceiling.toList ++ v.talkerCeiling.toList, -40 ≤ c ∧ c ≤ 24 := by
  have ceiling : ∀ c : Option Int, ceilingInRange c = true ↔ ∀ x ∈ c.toList, -40 ≤ x ∧ x ≤ 24 := fun c => by
    cases c <;> simp [ceilingInRange, withinInt_iff]
  unfold Port.inRange
  simp only [Bool.and_eq_true, withinInt_iff, ceiling, List.mem_append, and_assoc]
  refine and_congr_right fun _ => and_congr_right fun _ => and_congr_right fun _ => and_congr_right fun _ =>
    and_congr_right fun _ => and_congr_right fun _ => ?_
  exact ⟨fun h c hc => hc.elim (h.1 c) (h.2 c), fun h => ⟨fun c hc => h c (.inl hc), fun c hc => h c (.inr hc)⟩⟩

/-- Settles O37. -/
theorem portsAndGroupsAreSet : Obligations.PortsAndGroupsAreSet := by
  refine ⟨?_, ?_⟩
  · intro tag b v s s1 r bytes hr settled turn fits used
    subst hr
    have executes : ∀ p, exec (.setPort tag p) s = .next (requestOf 0x50 tag p portArgs setPortRecord s) := fun _ => rfl
    have read := portArgs_bytes (b := b) bytes
    have inRange : (within 1 64 b.toNat && v.inRange) = true ↔ fits := by
      rw [Bool.and_eq_true, within_iff, port_inRange_iff, and_assoc]
    have port : ∀ q, s1.port q = s.port q := fun q => by rw [State.port, turn.tc_eq]; rfl
    have inUse : s1.portInUse b.toNat = true ↔ used := by
      unfold State.portInUse Table.values
      rw [turn.tc_eq]
      simp [used, or_assoc]
    refine ⟨fun good other taken => ?_, fun good free => ?_,
      fun outside => refused_inTurn (executes _) settled turn read (if_neg (mt inRange.1 outside))⟩
    · exact refused_inTurn (executes _) settled turn read
        ((if_pos (inRange.2 good)).trans (if_pos ⟨by rw [port]; exact other, inUse.2 taken⟩))
    · let r : Request := ⟨0x50, tag, [b, roleByte v.role, stepsByte v.trim, stepsByte v.volume, stepsByte v.dim,
        ceilingByte v.ceiling, ceilingByte v.talkerCeiling]⟩
      let y : State := recompute ((answer r .ok s1).setPort b.toNat v)
      have writes : setPortRecord r (b.toNat, v) s1 = y :=
        (if_pos (inRange.2 good)).trans (if_neg fun h => free ⟨by rw [← port]; exact h.1, inUse.1 h.2⟩)
      refine ⟨_, written_inTurn (executes _) settled turn read writes rfl, State.port_setPort_self .., fun q hq => ?_, ?_, rfl⟩
      · rw [← port]; exact State.port_setPort_ne _ hq _
      · rw [← show s1.tme = s.tme from turn.tme_eq]
        exact congrArg (fun f => s1.tme.paths.map (f s1.tme.paths)) (withCoefficient_of_tc rfl)
  · intro tag b ports s s1 r short hr settled turn fits normal addressed
    subst hr
    have executes : ∀ p, exec (.setGroup tag p) s = .next (requestOf 0x51 tag p groupArgs setGroup s) := fun _ => rfl
    have read : groupArgs (b :: byte ports.length :: ports) = some (b.toNat, ports.map (·.toNat)) := by
      show Option.map _ (if ports.length = 1 * (byte ports.length).toNat then some ports else none) = _
      rw [byte_toNat short, if_pos (Nat.one_mul _).symm]
      rfl
    have port : ∀ q, s1.port q = s.port q := fun q => by rw [State.port, turn.tc_eq]; rfl
    have distinct : (ports.map (·.toNat)).Nodup ↔ ports.Nodup :=
      List.nodup_map_iff fun x y h => BitVec.eq_of_toNat_eq h
    have inRange : (within 1 16 b.toNat && decide ((ports.map (·.toNat)).length ≤ 16) && (ports.map (·.toNat)).all (within 1 64) &&
        noRepeats (ports.map (·.toNat))) = true ↔ fits := by
      simp only [Bool.and_eq_true, within_iff, decide_eq_true_eq, List.length_map, List.all_map, List.all_eq_true, Function.comp,
        noRepeats_iff, distinct, and_assoc]
      exact ⟨fun ⟨lo, hi, len, all, nodup⟩ => ⟨lo, hi, len, nodup, all⟩, fun ⟨lo, hi, len, nodup, all⟩ => ⟨lo, hi, len, all, nodup⟩⟩
    have abnormal : ((ports.map (·.toNat)).any fun q => (s1.port q).role != .normal) = true ↔ ¬normal := by
      simp [normal, port]
    have addresses : (s1.tc.talks.any fun t => t.target == .group b.toNat) = true ↔ addressed := by
      rw [turn.tc_eq]; simp [addressed]
    refine ⟨fun good nml free => ?_, fun good bad => ?_, fun good nml taken => ?_,
      fun outside => refused_inTurn (executes _) settled turn read (if_neg (mt inRange.1 outside))⟩
    · refine ⟨_, written_inTurn (executes _) settled turn read ((if_pos (inRange.2 good)).trans
        ((if_neg (fun h => abnormal.1 h nml)).trans (if_neg (mt addresses.1 free)))) rfl, fun q => ?_, ?_, fun g hg => ?_, rfl⟩
      · have group : (s1.tc.groups.set [] b.toNat (asPortSet (ports.map (·.toNat)))).get [] b.toNat =
          asPortSet (ports.map (·.toNat)) := Table.get_set_self ..
        show q ∈ (s1.tc.groups.set [] b.toNat (asPortSet (ports.map (·.toNat)))).get [] b.toNat ↔ _
        rw [group, mem_asPortSet, List.mem_map]
      · show ((s1.tc.groups.set [] b.toNat (asPortSet (ports.map (·.toNat)))).get [] b.toNat).Pairwise _
        rw [Table.get_set_self]
        exact asPortSet_pairwise _
      · refine (Table.get_set_ne _ _ hg _).trans ?_
        show s1.group g = s.group g
        rw [State.group, turn.tc_eq]; rfl
    · exact refused_inTurn (executes _) settled turn read ((if_pos (inRange.2 good)).trans (if_pos (abnormal.2 bad)))
    · exact refused_inTurn (executes _) settled turn read ((if_pos (inRange.2 good)).trans
        ((if_neg (fun h => abnormal.1 h nml)).trans (if_pos (addresses.2 taken))))

/-! ### Timers and knobs (R81, R91) -/

/-- Settles O42. -/
theorem timersAndKnobsMove : Obligations.TimersAndKnobsMove := by
  refine ⟨fun s p => ?_, fun p k s => ?_, fun p delta s s1 taken => ?_⟩
  · cases declared : s.panel? p with
    | none => simp [State.inService, State.panelState?, declared]
    | some v => rw [inService_iff declared]; simp
  · have ends : exec (.autoTimerExpiry p k) s = .next { relamp (expireTimer p k s) with hlc := (relamp (expireTimer p k s)).hlc.begun } :=
      congrArg Host.Outcome.next (transmit_eq _)
    rw [ends]
    refine ⟨fun held running => ?_, fun idle => ?_⟩
    · have moves : expireTimer p k s = s.setKey p k { s.key p k with state := .heldLong, timer := false } :=
        if_pos ⟨held, running⟩
      rw [moves]
      refine ⟨_, rfl, State.key_setKey_self .., fun q j h => State.key_setKey_ne _ h _, ?_⟩
      exact relamp_follows { s with
        hlc := s.hlc.begun, tc := { s.tc with keys := (s.setKey p k { s.key p k with state := .heldLong, timer := false }).tc.keys } }
    · rw [show expireTimer p k s = s from if_neg idle]
      exact ⟨_, rfl, idle_follows s⟩
  · have ends : exec (.knob p delta) s = .next { handleKnob p delta s1 with hlc := (handleKnob p delta s1).hlc.begun } := by
      show Host.Outcome.next (transmit (takeEvent _ _ s)) = _
      rw [takeEvent_taken taken, transmit_eq]
    have panel : s1.panel? p = s.panel? p := by rw [taken_eq taken]; rfl
    have service : s1.inService p = s.inService p := by rw [taken_eq taken]; rfl
    have port : ∀ q, s1.port q = s.port q := fun q => by rw [taken_eq taken]; rfl
    have tme : s1.tme = s.tme := by rw [taken_eq taken]
    rw [ends]
    refine ⟨fun v q declared own serving normal => ?_, fun idle => ?_⟩
    · let vol := max (-120) (min 0 ((s.port q).volume + delta))
      have handles : handleKnob p delta s1 = if vol = (s.port q).volume then s1 else
          recompute (s1.setPort q { s.port q with volume := vol }) := by
        unfold handleKnob
        rw [panel, declared, Option.bind_some, own]
        dsimp only
        rw [if_pos (by rw [service, serving, port, normal]; rfl), port]
        rfl
      rw [handles]
      by_cases same : vol = (s.port q).volume
      · rw [if_pos same]
        have unmoved : s1.port q = { s.port q with volume := vol } := by rw [port, same]
        exact ⟨_, rfl, unmoved, fun k _ => port k, fun moved => absurd (congrArg Port.volume (port q)) moved, fun _ => tme, rfl⟩
      · rw [if_neg same]
        have moved : (s1.setPort q { s.port q with volume := vol }).port q = { s.port q with volume := vol } :=
          State.port_setPort_self ..
        refine ⟨_, rfl, moved, fun k hk => ?_, fun _ => ?_, fun h => absurd ((congrArg Port.volume moved).symm.trans h) same, rfl⟩
        · exact (State.port_setPort_ne s1 hk _).trans (port k)
        · rw [← tme]
          exact congrArg (fun f => s1.tme.paths.map (f s1.tme.paths)) (withCoefficient_of_tc rfl)
    · have still : handleKnob p delta s1 = s1 := by
        unfold handleKnob
        rw [panel]
        split
        · rfl
        · next q own =>
          obtain ⟨v, declared, own⟩ := Option.bind_eq_some_iff.1 own
          refine if_neg ?_
          rw [service, port]
          rcases idle with off | abnormal
          · simp [off]
          · have := abnormal v q declared own
            simp [this]
      rw [still]

end Sys2Proof.Machine

/-! SET_CAMERA and SET_OUTPUT (R65 to R69, R85, R92, R98, R99). -/

namespace Sys2Proof.Machine

/-! ### Forced endings (R92, R99) -/

theorem raised_raised (f : Flag) (h : HostLink) : (h.raised f).raised f = h.raised f := by
  have set : (h.enabled.getLsbD f.number && !h.set.getLsbD f.number) = true →
      (h.set ||| (1#16 <<< f.number)).getLsbD f.number = true := fun _ => by
    cases f <;> simp [Flag.number]
  by_cases raises : (h.enabled.getLsbD f.number && !h.set.getLsbD f.number) = true
  · have once : h.raised f = { h with
        set := h.set ||| (1#16 <<< f.number)
        outbound := if h.outbound.any fun m => m.cls == .eventFlags then h.outbound else h.outbound ++ [flagsMessage] } := if_pos raises
    rw [once]
    exact if_neg (by simp [set raises])
  · have never : h.raised f = h := if_neg raises
    rw [never, never]

/-- R187: a flag raised when either of two events asks for it. -/
theorem RaisedIf.or {f : Flag} {P Q : Prop} {h h1 h2 : HostLink} (first : RaisedIf f P h h1) (second : RaisedIf f Q h1 h2) :
    RaisedIf f (P ∨ Q) h h2 := by
  refine ⟨fun either => ?_, fun neither => ?_⟩
  · by_cases p : P
    · by_cases q : Q
      · rw [second.1 q, first.1 p, raised_raised]
      · rw [second.2 q, first.1 p]
    · rw [second.1 (either.resolve_left p), first.2 p]
  · rw [second.2 fun q => neither (.inr q), first.2 fun p => neither (.inl p)]

theorem RaisedIf.congr {f : Flag} {P Q : Prop} {h h1 : HostLink} (raised : RaisedIf f P h h1) (same : P ↔ Q) : RaisedIf f Q h h1 :=
  ⟨fun q => raised.1 (same.2 q), fun q => raised.2 fun p => q (same.1 p)⟩

theorem KeyTalk.lost_lost (y : KeyTalk) : y.lost.lost = y.lost := by
  obtain ⟨state, mode, talk, timer⟩ := y
  cases state <;> rfl

theorem loseTalk_key (p k q j : Nat) (s : State) : (loseTalk p k s).key q j = if q = p ∧ j = k then (s.key p k).lost else s.key q j := by
  have written : ∀ v, (s.setKey p k v).key q j = if q = p ∧ j = k then v else s.key q j := fun v => by
    by_cases named : q = p ∧ j = k
    · rw [if_pos named, named.1, named.2, State.key_setKey_self]
    · rw [if_neg named, State.key_setKey_ne _ named]
  have still : (s.key p k).lost = s.key p k → s.key q j = if q = p ∧ j = k then (s.key p k).lost else s.key q j := fun same => by
    split
    · next named => rw [same, named.1, named.2]
    · rfl
  unfold loseTalk
  dsimp only
  cases state : (s.key p k).state with
  | held => exact (written _).trans (by simp only [KeyTalk.lost, state])
  | heldLong => exact (written _).trans (by simp only [KeyTalk.lost, state])
  | latched => exact (written _).trans (by simp only [KeyTalk.lost, state]; rfl)
  | idle => exact still (by simp only [KeyTalk.lost, state])
  | heldCancel => exact still (by simp only [KeyTalk.lost, state])

/-- R99: what the forced endings of some talks do: their keys move, and their panels record the refusal. -/
structure ForcedEndings (ended : List Talk) (s t : State) : Prop where
  rest : t = { s with
    hlc := t.hlc, tc := { s.tc with keys := t.tc.keys }, pbc := { s.pbc with panels := t.pbc.panels } }
  keys : ∀ p k, ((∃ x ∈ ended, x.origin = .panel p k) → t.key p k = (s.key p k).lost) ∧
    ((∀ x ∈ ended, x.origin ≠ .panel p k) → t.key p k = s.key p k)
  panels : ∀ p, t.panel? p = (s.panel? p).map fun w =>
    { w with lastRefusal := (ended.filterMap fun x => match x.origin with
        | .panel q k => if q = p then some (k, Reason.noSpace) else none
        | .system _ => none).getLast?.or w.lastRefusal }
  flags : RaisedIf .keyRefused (∃ x ∈ ended, ∃ p k, x.origin = .panel p k ∧ s.panel? p ≠ none) s.hlc t.hlc

theorem ForcedEndings.nil (s : State) : ForcedEndings [] s s where
  rest := rfl
  keys p k := ⟨fun ⟨x, hx, _⟩ => absurd hx (by simp), fun _ => rfl⟩
  panels p := by cases h : s.panel? p <;> rfl
  flags := ⟨fun ⟨x, hx, _⟩ => absurd hx (by simp), fun _ => rfl⟩

theorem keyRefusal_eq (p k : Nat) (why : Reason) (s : State) : keyRefusal p k why s = { s with
    hlc := (keyRefusal p k why s).hlc, pbc := { s.pbc with panels := (keyRefusal p k why s).pbc.panels } } := by
  unfold keyRefusal
  split
  · rw [raise_eq]; rfl
  · rfl

/-- R92, R171: one forced ending of a talk of a panel key. -/
theorem forcedEnding_panel {t : Talk} {p k : Nat} (origin : t.origin = .panel p k) (s : State) :
    ForcedEndings [t] s (forcedEnding t s) := by
  have ends : forcedEnding t s = keyRefusal p k .noSpace (loseTalk p k s) := by unfold forcedEnding; rw [origin]
  have lost : loseTalk p k s = { s with tc := { s.tc with keys := (loseTalk p k s).tc.keys } } := by
    rcases loseTalk_writes p k s with h | ⟨v, h⟩ <;> rw [h]; rfl
  have panel : (loseTalk p k s).panel? = s.panel? := by rw [lost]; rfl
  have hlc : (loseTalk p k s).hlc = s.hlc := by rw [lost]
  have pbc : (loseTalk p k s).pbc = s.pbc := by rw [lost]
  have key : (forcedEnding t s).tc = (loseTalk p k s).tc := by rw [ends, keyRefusal_tc]
  constructor
  · rw [ends, keyRefusal_tc]
    refine (keyRefusal_eq ..).trans ?_
    exact congrArg (fun x : State => { x with
      hlc := (keyRefusal p k .noSpace (loseTalk p k s)).hlc
      pbc := { x.pbc with panels := (keyRefusal p k .noSpace (loseTalk p k s)).pbc.panels } }) lost
  · intro q j
    have moved : (forcedEnding t s).key q j = if q = p ∧ j = k then (s.key p k).lost else s.key q j := by
      rw [← loseTalk_key, State.key, key]; rfl
    refine ⟨fun ⟨x, hx, named⟩ => ?_, fun others => ?_⟩
    · obtain rfl := List.mem_singleton.1 hx
      obtain ⟨rfl, rfl⟩ := TalkOrigin.panel.inj (origin.symm.trans named)
      rw [moved, if_pos ⟨rfl, rfl⟩]
    · rw [moved, if_neg]
      rintro ⟨rfl, rfl⟩
      exact others t (List.mem_singleton_self t) origin
  · intro q
    rw [ends]
    unfold keyRefusal
    rw [panel]
    by_cases named : p = q
    · subst named
      cases declared : s.panel? p with
      | none => dsimp only; rw [panel, declared]; rfl
      | some v =>
        dsimp only
        rw [raise_eq]
        refine (State.panel?_setPanel_self ..).trans ?_
        simp [origin]
    · have other : s.panel? q = (s.panel? q).map fun w =>
          { w with lastRefusal := ([t].filterMap fun x => match x.origin with
            | .panel q' k => if q' = q then some (k, Reason.noSpace) else none
            | .system _ => none).getLast?.or w.lastRefusal } := by
        simp only [List.filterMap_cons, origin, if_neg named, List.filterMap_nil, List.getLast?_nil, Option.none_or]
        cases s.panel? q <;> rfl
      rw [← other]
      split
      · rw [raise_eq]
        exact (State.panel?_setPanel_ne _ (Ne.symm named) _).trans (congrFun panel q)
      · exact congrFun panel q
  · have asks : (∃ x ∈ [t], ∃ q j, x.origin = .panel q j ∧ s.panel? q ≠ none) ↔ s.panel? p ≠ none := by
      simp [origin]
    refine RaisedIf.congr ?_ asks.symm
    rw [ends]
    unfold keyRefusal
    rw [panel]
    cases declared : s.panel? p with
    | none => exact ⟨fun h => absurd rfl h, fun _ => hlc⟩
    | some v =>
      refine ⟨fun _ => ?_, fun h => absurd (by simp) h⟩
      dsimp only
      rw [raise_eq]
      exact congrArg (HostLink.raised .keyRefused) hlc

theorem forcedEnding_one (t : Talk) (s : State) : ForcedEndings [t] s (forcedEnding t s) := by
  cases origin : t.origin with
  | panel p k => exact forcedEnding_panel origin s
  | system n =>
    have still : forcedEnding t s = s := by unfold forcedEnding; rw [origin]
    rw [still]
    refine ⟨rfl, fun p k => ⟨fun ⟨x, hx, named⟩ => ?_, fun _ => rfl⟩, fun p => ?_, fun ⟨x, hx, p, k, named, _⟩ => ?_, fun _ => rfl⟩
    · obtain rfl := List.mem_singleton.1 hx
      exact absurd (origin.symm.trans named) (by simp)
    · simp only [List.filterMap_cons, origin, List.filterMap_nil, List.getLast?_nil, Option.none_or]
      cases s.panel? p <;> rfl
    · obtain rfl := List.mem_singleton.1 hx
      exact absurd (origin.symm.trans named) (by simp)

theorem ForcedEndings.append {ts us : List Talk} {s x t : State} (first : ForcedEndings ts s x) (second : ForcedEndings us x t) :
    ForcedEndings (ts ++ us) s t := by
  have declared : ∀ p, x.panel? p ≠ none ↔ s.panel? p ≠ none := fun p => by
    rw [first.panels p]; cases s.panel? p <;> simp
  constructor
  · refine second.rest.trans ?_
    exact congrArg (fun y : State => { y with
      hlc := t.hlc, tc := { y.tc with keys := t.tc.keys }, pbc := { y.pbc with panels := t.pbc.panels } }) first.rest
  · intro p k
    obtain ⟨lost1, kept1⟩ := first.keys p k
    obtain ⟨lost2, kept2⟩ := second.keys p k
    refine ⟨fun ⟨y, hy, named⟩ => ?_, fun others => ?_⟩
    · by_cases before : ∃ z ∈ ts, z.origin = .panel p k
      · by_cases after : ∃ z ∈ us, z.origin = .panel p k
        · rw [lost2 after, lost1 before, KeyTalk.lost_lost]
        · rw [kept2 fun z hz h => after ⟨z, hz, h⟩, lost1 before]
      · have hy : y ∈ us := (List.mem_append.1 hy).resolve_left fun h => before ⟨y, h, named⟩
        rw [lost2 ⟨y, hy, named⟩, kept1 fun z hz h => before ⟨z, hz, h⟩]
    · rw [kept2 fun z hz => others z (List.mem_append_right _ hz), kept1 fun z hz => others z (List.mem_append_left _ hz)]
  · intro p
    rw [second.panels, first.panels, Option.map_map]
    congr 1
    funext w
    simp only [Function.comp, List.filterMap_append, List.getLast?_append, Option.or_assoc]
  · refine (first.flags.or second.flags).congr ?_
    simp only [declared, List.mem_append, or_and_right, exists_or]

/-- R99: the forced endings, newest first. -/
theorem forcedEndings_spec (ended : List Talk) (s : State) :
    ForcedEndings ended s (ended.foldl (fun x t => forcedEnding t x) s) := by
  induction ended generalizing s with
  | nil => exact .nil s
  | cons t ts ih => exact (forcedEnding_one t s).append (ih _)

end Sys2Proof.Machine

/-! A camera change, whole (R65, R85, R92, R98, R99). -/

namespace Sys2Proof.Machine

/-! ### SET_CAMERA (R65, R98, R99) -/

/-- R98: the talk set resolved again after a camera change, before the forced endings reach the keys. -/
def State.resettled (s : State) (c : Nat) (doms : List Domain) : State :=
  let t := resolveAgain (fun t => t.target == .camera c || t.onairOf doms) (s.relieved doms)
  announceInterrupters s (if t.tc.talks = (recount doms s).tc.talks then t else handling s t)

theorem cameraChange_eq (c : Nat) (doms : List Domain) (s : State) :
    cameraChange c doms s = (s.givenUp doms).foldl (fun x t => forcedEnding t x) (s.resettled c doms) := rfl

theorem relieved_rest (s : State) (doms : List Domain) : s.relieved doms = { s with tc := (s.relieved doms).tc } := by
  unfold State.relieved; split <;> rfl

theorem resettled_rest (s : State) (c : Nat) (doms : List Domain) : s.resettled c doms = { s with
    hlc := (s.resettled c doms).hlc, tc := (s.resettled c doms).tc, tme := (s.resettled c doms).tme } := by
  unfold State.resettled
  dsimp only
  have rest := relieved_rest s doms
  generalize s.relieved doms = x at rest ⊢
  have announced : ∀ y : State, announceInterrupters s y = { y with hlc := (announceInterrupters s y).hlc } := fun y => by
    unfold announceInterrupters; split
    · rw [raise_eq]
    · rfl
  rw [announced]
  split
  · rw [rest]; rfl
  · rw [handling_eq, rest]; rfl

/-- R112, R117: the flags of a camera change before the forced endings. -/
theorem resettled_reported (s : State) (c : Nat) (doms : List Domain) :
    TalkReported s (s.resettled c doms) s.hlc (s.resettled c doms).hlc := by
  have hlc : (s.relieved doms).hlc = s.hlc := by rw [relieved_rest]
  have tme : (s.relieved doms).tme = s.tme := by rw [relieved_rest]
  unfold State.resettled
  dsimp only
  split
  · have raised := announceInterrupters_raised s (resolveAgain (fun t => t.target == .camera c || t.onairOf doms) (s.relieved doms))
    unfold TalkReported State.interrupter State.ifb? at *
    rw [announceInterrupters_tme, announceInterrupters_tc, show (resolveAgain _ (s.relieved doms)).tme = s.tme from tme, handed_same,
      ← hlc]
    exact raised
  · exact handled_reported hlc tme

theorem onairOf_iff (doms : List Domain) (x : Talk) : x.onairOf doms = true ↔ x.target = .onair ∧ ∃ d ∈ doms, x.domain = some d := by
  unfold Talk.onairOf
  cases x.domain <;> simp

/-- R97: the listeners of a talk read the groups, the IFBs, the cameras and the colours. -/
theorem listenersOf_of {s t : State} (groups : t.tc.groups = s.tc.groups) (ifbs : t.tc.ifbs = s.tc.ifbs)
    (cameras : t.tou.cameras = s.tou.cameras) (tables : t.tt = s.tt) (x : Talk) : t.listenersOf x = s.listenersOf x := by
  unfold State.listenersOf State.targetPorts State.group State.ifb? State.cameraPort State.camera? State.onairPorts State.colours
  rw [groups, ifbs, cameras, tables]

/-- R99: the talks left after the talks given up. -/
theorem mem_relieved {s : State} {doms : List Domain} {x : Talk} (hx : x ∈ (s.relieved doms).tc.talks) :
    x ∈ (recount doms s).tc.talks ∨
      (s.givenUp doms ≠ [] ∧ (∃ n, x.target = .ifb n) ∧ x.listeners = (s.relieved doms).listenersOf x) := by
  unfold State.relieved at hx ⊢
  split at hx
  · exact .inl hx
  · next ends =>
    rw [if_neg ends]
    obtain ⟨y, hy, rfl⟩ := List.mem_map.1 hx
    have kept : y ∈ (recount doms s).tc.talks := (List.mem_filter.1 hy).1
    by_cases ifb : y.toIfb = true
    · rw [if_pos ifb]
      refine .inr ⟨fun none => ends (List.isEmpty_iff.2 none), ?_, rfl⟩
      unfold Talk.toIfb at ifb
      split at ifb
      · next n target => exact ⟨n, target⟩
      · exact absurd ifb (by simp)
    · rw [if_neg ifb]; exact .inl kept

/-- R98, R99: the listeners after a camera change. -/
theorem cameraChange_listeners {c : Nat} {doms : List Domain} {s : State} {x : Talk}
    (hx : x ∈ (cameraChange c doms s).tc.talks) :
    (x.target = .camera c ∨ (x.target = .onair ∧ ∃ d ∈ doms, x.domain = some d) →
      x.listeners = (cameraChange c doms s).listenersOf x) ∧
    (¬(x.target = .camera c ∨ (x.target = .onair ∧ ∃ d ∈ doms, x.domain = some d)) →
      x ∈ s.tc.talks.map (s.recounted doms) ∨
        (s.givenUp doms ≠ [] ∧ (∃ n, x.target = .ifb n) ∧ x.listeners = (cameraChange c doms s).listenersOf x)) := by
  have resolves : ∀ x, (cameraChange c doms s).listenersOf x = (s.relieved doms).listenersOf x :=
    listenersOf_of (by rw [cameraChange_tc]; rfl) (by rw [cameraChange_tc]; rfl)
      (by rw [cameraChange_tou, relieved_rest]) (by rw [cameraChange_tt, relieved_rest])
  have named_iff : ∀ y : Talk, (y.target == .camera c || y.onairOf doms) = true ↔
      y.target = .camera c ∨ (y.target = .onair ∧ ∃ d ∈ doms, y.domain = some d) := fun y => by
    rw [Bool.or_eq_true, onairOf_iff, beq_iff_eq]
  simp only [resolves]
  rw [cameraChange_tc] at hx
  obtain ⟨y, hy, rfl⟩ := List.mem_map.1 hx
  by_cases named : (y.target == .camera c || y.onairOf doms) = true
  · rw [if_pos named]
    exact ⟨fun _ => rfl, fun other => absurd ((named_iff y).1 named) other⟩
  · rw [if_neg named]
    refine ⟨fun h => absurd ((named_iff y).2 h) named, fun _ => ?_⟩
    rw [← recount_talks]
    exact mem_relieved hy

theorem cameraChange_talks (c : Nat) (doms : List Domain) (s : State) : SameTalks (cameraChange c doms s).tc.talks
    ((s.tc.talks.map (s.recounted doms)).filter fun x => !((s.givenUp doms).map (·.id)).contains x.id) := by
  rw [← recount_talks, cameraChange_tc]
  exact (resolveAgain_same _ _).trans (relieved_talks s doms)

/-- R116: the IFBs after a camera change. -/
theorem cameraChange_ifbs (c : Nat) (doms : List Domain) (s : State) : (cameraChange c doms s).tc.ifbs =
    s.tc.ifbs.mapValues fun _ i => (cameraChange c doms s).withoutTalks ((s.givenUp doms).map (·.id)) i := by
  have relieved : (cameraChange c doms s).tc.ifbs = (s.relieved doms).tc.ifbs := by rw [cameraChange_tc]; rfl
  rw [relieved]
  unfold State.relieved
  split
  · next none_ended =>
    rw [List.isEmpty_iff.1 none_ended]
    have still : (fun (_ : Nat) i => (cameraChange c doms s).withoutTalks (([] : List Talk).map (·.id)) i) = fun _ i => i := by
      funext _ i; exact withoutTalks_nil _ i
    rw [still]
    show s.tc.ifbs = ⟨s.tc.ifbs.entries.map fun e => (e.1, e.2)⟩
    simp
  · have same := fun i => withoutTalks_same (s := { recount doms s with tc := { (recount doms s).tc with
        talks := (recount doms s).tc.talks.filter fun t => !((s.givenUp doms).map (·.id)).contains t.id } })
      (t := cameraChange c doms s) (by rw [recount_talks]; exact cameraChange_talks c doms s) ((s.givenUp doms).map (·.id)) i
    rw [funext same]
    rfl

theorem cameraArgs_bytes {b : Byte} {v : Option Camera}
    (fields : ∀ x, v = some x → x.source < 65536 ∧ (∀ q, x.port = some q → 1 ≤ q ∧ q < 256) ∧ ∀ n, x.output = some n → 1 ≤ n ∧ n < 256)
    {payload : List Byte} (written : (v = none → payload = [b]) ∧
      ∀ x, v = some x → payload = b :: ([domainByte x.domain] ++ be16 x.source ++ [optionalByte x.port, optionalByte x.output])) :
    cameraArgs payload = some (b.toNat, v) := by
  have optional : ∀ o : Option Nat, (∀ q, o = some q → 1 ≤ q ∧ q < 256) → optionalOf (optionalByte o) = o := fun o h => by
    cases o with
    | none => rfl
    | some q =>
      obtain ⟨positive, small⟩ := h q rfl
      have value : (byte q).toNat = q := byte_toNat small
      have some_byte : byte q ≠ 0 := fun zero => by rw [zero] at value; simp at value; omega
      show (if byte q = 0 then none else some (byte q).toNat) = _
      rw [if_neg some_byte, value]
  cases v with
  | none => rw [written.1 rfl]; rfl
  | some x =>
    obtain ⟨source, port, output⟩ := fields x rfl
    obtain ⟨h, l, bytes, value⟩ := be16_bytes source
    rw [written.2 x rfl, bytes]
    simp only [List.cons_append, List.nil_append, cameraArgs, domainOf_byte, Option.map_some, value, optional _ port, optional _ output]

end Sys2Proof.Machine

/-! SET_CAMERA and SET_OUTPUT in their turn (R65, R67). -/

namespace Sys2Proof.Machine

/-! ### SET_CAMERA in its turn -/

/-- R65, R69: the state in which a camera change is handled. -/
def cameraWritten (b : Nat) (v : Option Camera) (s : State) : State := driveAll (writeCamera b v s)

theorem cameraWritten_camera (b : Nat) (v : Option Camera) (s : State) :
    (cameraWritten b v s).camera? b = v ∧ ∀ k, k ≠ b → (cameraWritten b v s).camera? k = s.camera? k := by
  cases v with
  | none => exact ⟨Table.find?_erase_self .., fun k hk => Table.find?_erase_ne _ hk⟩
  | some x => exact ⟨Table.find?_put_self .., fun k hk => Table.find?_put_ne _ hk _⟩

theorem cameraWritten_outputs (b : Nat) (v : Option Camera) (s : State) :
    SameOutputs s (cameraWritten b v s) ∧ ∀ n, ((cameraWritten b v s).output n).drive = (cameraWritten b v s).driveOf n := by
  refine ⟨sameOutputs_driveAll (writeCamera b v s), fun n => ?_⟩
  unfold cameraWritten
  rw [driveOf_driveAll, output_driveAll]

theorem cameraChange_talkFrame (c : Nat) (doms : List Domain) (s : State) : (cameraChange c doms s).tc = { s.tc with
    talks := (cameraChange c doms s).tc.talks, keys := (cameraChange c doms s).tc.keys, ifbs := (cameraChange c doms s).tc.ifbs } := by
  have relieved : (s.relieved doms).tc = { s.tc with talks := (s.relieved doms).tc.talks, ifbs := (s.relieved doms).tc.ifbs } := by
    unfold State.relieved; split <;> rfl
  rw [cameraChange_tc]
  exact congrArg (fun x : TalkController => { x with
    talks := (resolveAgain (fun t : Talk => t.target == Target.camera c || t.onairOf doms) (s.relieved doms)).tc.talks
    keys := (cameraChange c doms s).tc.keys }) relieved

theorem resettled_keys (s : State) (c : Nat) (doms : List Domain) : (s.resettled c doms).tc.keys = s.tc.keys := by
  have relieved : (s.relieved doms).tc.keys = s.tc.keys := by unfold State.relieved; split <;> rfl
  unfold State.resettled
  dsimp only
  rw [announceInterrupters_tc]
  split
  · exact relieved
  · rw [handling_tc]; exact relieved

theorem cameraDomains_eq (old new : Option Camera) : cameraDomains old new = (old.toList ++ new.toList).map fun c => c.domain := by
  cases old <;> cases new <;> rfl

theorem camera_inRange_iff {x : Camera} (port : ∀ q, x.port = some q → 1 ≤ q) (output : ∀ n, x.output = some n → 1 ≤ n) :
    x.inRange = true ↔ 1 ≤ x.source ∧ x.source ≤ 256 ∧
      (∀ q, x.port = some q → q ≤ 64) ∧ ∀ n, x.output = some n → n ≤ 48 := by
  have optional : ∀ (hi : Nat) (o : Option Nat), (∀ q, o = some q → 1 ≤ q) →
      (optionalWithin hi o = true ↔ ∀ q, o = some q → q ≤ hi) := fun hi o positive => by
    cases o with
    | none => simp [optionalWithin]
    | some q => simp [optionalWithin, within_iff, positive q rfl]
  unfold Camera.inRange
  simp only [Bool.and_eq_true, within_iff, optional _ _ port, optional _ _ output, and_assoc]

theorem setCamera_accepted {b : Byte} {v : Option Camera} {r : Request} {s : State}
    (fits : 1 ≤ b.toNat ∧ b.toNat ≤ 24 ∧ ∀ x, v = some x → x.inRange = true) :
    setCamera r (b.toNat, v) s =
      relamp (cameraChange b.toNat (cameraDomains (s.camera? b.toNat) v) (cameraWritten b.toNat v (answer r .ok s))) := by
  refine if_pos ?_
  rw [Bool.and_eq_true, within_iff]
  refine ⟨⟨fits.1, fits.2.1⟩, ?_⟩
  cases v with
  | none => rfl
  | some x => exact fits.2.2 x rfl

theorem setCamera_refused {b : Byte} {v : Option Camera} {r : Request} {s : State}
    (outside : ¬(1 ≤ b.toNat ∧ b.toNat ≤ 24 ∧ ∀ x, v = some x → x.inRange = true)) :
    setCamera r (b.toNat, v) s = answer r .badArg s := by
  refine if_neg fun fits => outside ?_
  rw [Bool.and_eq_true, within_iff] at fits
  refine ⟨fits.1.1, fits.1.2, fun x hx => ?_⟩
  subst hx
  exact fits.2

/-! ### SET_OUTPUT in its turn -/

theorem outputArgs_eq (b mode h l dom mask monitor : Byte) : outputArgs [b, mode, h, l, dom, mask, monitor] =
    (outputModeOf mode).bind fun m => (domainOf dom).bind fun d => (colourSetOf mask).bind fun c => (boolOf monitor).map fun f =>
      (b.toNat, some ⟨m, nat16 h l, d, c, f⟩) := by
  simp only [outputArgs]
  cases outputModeOf mode <;> cases domainOf dom <;> cases colourSetOf mask <;> cases boolOf monitor <;> rfl

theorem outputModeOf_large {b : Byte} (h : 2 < b.toNat) : outputModeOf b = none := by
  unfold outputModeOf; rw [if_neg, if_neg, if_neg] <;> rintro rfl <;> simp at h

theorem outputArgs_unread {b mode h l dom mask monitor : Byte}
    (bad : 2 < mode.toNat ∨ 1 < dom.toNat ∨ 7 < mask.toNat ∨ 1 < monitor.toNat) :
    outputArgs [b, mode, h, l, dom, mask, monitor] = none := by
  rw [outputArgs_eq]
  rcases bad with bad | bad | bad | bad
  · rw [outputModeOf_large bad]; rfl
  · rw [domainOf_large bad]
    cases outputModeOf mode <;> rfl
  · rw [show colourSetOf mask = none from if_neg (by omega)]
    cases outputModeOf mode <;> cases domainOf dom <;> rfl
  · rw [boolOf_large bad]
    cases outputModeOf mode <;> cases domainOf dom <;> cases colourSetOf mask <;> rfl

theorem colourSet_isEmpty_iff {mask : Byte} (small : mask.toNat < 8) :
    (⟨mask.getLsbD 0, mask.getLsbD 1, mask.getLsbD 2⟩ : ColourSet).isEmpty = false ↔ mask ≠ 0 := by
  have empty : (⟨mask.getLsbD 0, mask.getLsbD 1, mask.getLsbD 2⟩ : ColourSet).isEmpty = true ↔ mask = 0 := by
    simp only [ColourSet.isEmpty, Bool.not_eq_true', Bool.or_eq_false_iff]
    refine ⟨fun ⟨⟨zero, one⟩, two⟩ => BitVec.eq_of_getLsbD_eq fun i hi => ?_, fun h => by rw [h]; decide⟩
    have cases : i = 0 ∨ i = 1 ∨ i = 2 ∨ 3 ≤ i := by omega
    rcases cases with rfl | rfl | rfl | high
    · exact zero
    · exact one
    · exact two
    · have above : mask.toNat < 2 ^ i := lt_of_lt_of_le small (Nat.pow_le_pow_right (show 2 > 0 by decide) high)
      rw [BitVec.getLsbD, Nat.testBit_lt_two_pow above]
      simp
  rw [← Bool.not_eq_true, empty]

theorem writeOutput_judged (n : Nat) (v : Option OutputConfig) (s : State) :
    OutputsJudged (s.setOutput n
      { config := v, drive := if v.isNone then .off else (s.output n).drive, fault := faultAfter (s.output n) v })
      (writeOutput n v s) := outputsJudged _

theorem setTallyOutput_accepted {b : Byte} {v : Option OutputConfig} {r : Request} {s : State}
    (fits : 1 ≤ b.toNat ∧ b.toNat ≤ 48 ∧ ∀ x, v = some x → x.inRange = true) :
    setTallyOutput r (b.toNat, v) s = writeOutput b.toNat v (answer r .ok s) := by
  refine if_pos ?_
  rw [Bool.and_eq_true, within_iff]
  refine ⟨⟨fits.1, fits.2.1⟩, ?_⟩
  cases v with
  | none => rfl
  | some x => exact fits.2.2 x rfl

theorem setTallyOutput_refused {b : Byte} {v : Option OutputConfig} {r : Request} {s : State}
    (outside : ¬(1 ≤ b.toNat ∧ b.toNat ≤ 48 ∧ ∀ x, v = some x → x.inRange = true)) :
    setTallyOutput r (b.toNat, v) s = answer r .badArg s := by
  refine if_neg fun fits => outside ?_
  rw [Bool.and_eq_true, within_iff] at fits
  refine ⟨fits.1.1, fits.1.2, fun x hx => ?_⟩
  subst hx
  exact fits.2

theorem faultAfter_spec (old : Output) (v : Option OutputConfig) :
    ((∃ x y, old.config = some x ∧ x.monitor = true ∧ v = some y ∧ y.monitor = true) → faultAfter old v = old.fault) ∧
    (¬(∃ x y, old.config = some x ∧ x.monitor = true ∧ v = some y ∧ y.monitor = true) → faultAfter old v = .ok) := by
  unfold faultAfter
  cases config : old.config with
  | none => simp
  | some x =>
    cases v with
    | none => simp
    | some y => cases xm : x.monitor <;> cases ym : y.monitor <;> simp [xm, ym]

theorem outputArgs_bytes {b mask mode : Byte} {x : OutputConfig} (source : x.source < 65536) (small : mask.toNat < 8)
    (colours : x.mask = ⟨mask.getLsbD 0, mask.getLsbD 1, mask.getLsbD 2⟩) (named : outputModeOf mode = some x.mode) :
    outputArgs (b :: ([mode] ++ be16 x.source ++ [domainByte x.domain, mask, yesNo x.monitor])) = some (b.toNat, some x) := by
  obtain ⟨h, l, bytes, value⟩ := be16_bytes source
  rw [bytes, show b :: ([mode] ++ [h, l] ++ [domainByte x.domain, mask, yesNo x.monitor]) =
    [b, mode, h, l, domainByte x.domain, mask, yesNo x.monitor] from rfl, outputArgs_eq, named, domainOf_byte, boolOf_yesNo,
    show colourSetOf mask = some x.mask from (if_pos small).trans (congrArg some colours.symm)]
  simp only [Option.bind_some, Option.map_some, value]

theorem output_of_tou {s t : State} (tou : t.tou = s.tou) (n : Nat) : t.output n = s.output n := by
  rw [State.output, State.output, tou]

theorem driveOf_of {s t : State} (tou : t.tou = s.tou) (tables : t.tt = s.tt) (n : Nat) : t.driveOf n = s.driveOf n :=
  driveOf_congr (fun k => by rw [output_of_tou tou]; exact ⟨rfl, rfl⟩) (by rw [tou]) (by rw [tou]) tables n

theorem recounted_of {s t : State} (tou : t.tou = s.tou) : t.recounted = s.recounted := by
  funext doms x
  unfold State.recounted
  rw [tou]

/-- Settles O35: a camera change by `cameraChange_talks`, `cameraChange_listeners` and `forcedEndings_spec`. -/
theorem camerasAndOutputsAreSet : Obligations.CamerasAndOutputsAreSet := by
  refine ⟨?_, fun tag b dom h l q n s s1 r hr settled turn large => ?_,
    fun tag b mode h l dom mask monitor s s1 r hr settled turn bad => ?_, ?_⟩
  · intro tag b v s s1 r fields hr settled turn fits
    have executes : exec (.setCamera tag r.payload) s = .next (requestOf 0x40 tag r.payload cameraArgs setCamera s) := rfl
    have request : r = ⟨0x40, tag, r.payload⟩ := by rw [hr]
    have read : cameraArgs r.payload = some (b.toNat, v) := by
      refine cameraArgs_bytes fields ⟨fun none => ?_, fun x some => ?_⟩ <;> rw [hr]
      · subst none; rfl
      · subst some; rfl
    have turn' : InTurn ⟨0x40, tag, r.payload⟩ s s1 := request ▸ turn
    have inRange : (1 ≤ b.toNat ∧ b.toNat ≤ 24 ∧ ∀ x, v = some x → x.inRange = true) ↔ fits :=
      and_congr_right fun _ => and_congr_right fun _ => forall₂_congr fun x hx =>
        camera_inRange_iff (fun q hq => ((fields x hx).2.1 q hq).1) fun n hn => ((fields x hx).2.2 n hn).1
    rw [request]
    refine ⟨fun good => ?_, fun outside =>
      refused_inTurn executes settled turn' read (setCamera_refused (mt inRange.1 outside))⟩
    let r' : Request := ⟨0x40, tag, r.payload⟩
    let x := answer r' .ok s1
    let y := cameraWritten b.toNat v x
    let doms := cameraDomains (s1.camera? b.toNat) v
    let z := cameraChange b.toNat doms y
    let ended := y.givenUp doms
    let t : State := { relamp z with hlc := z.hlc.begun }
    have camera : ∀ k, s1.camera? k = s.camera? k := fun k => by rw [State.camera?, turn.tou_eq]; rfl
    have domains : doms = ((s.camera? b.toNat).toList ++ v.toList).map fun c => c.domain := by
      rw [← camera]; exact cameraDomains_eq ..
    have ytc : y.tc = s.tc := turn.tc_eq
    have ypbc : y.pbc = s.pbc := turn.pbc_eq
    have ytme : y.tme = s.tme := turn.tme_eq
    have ztou : z.tou = y.tou := cameraChange_tou ..
    have forced : ForcedEndings ended (y.resettled b.toNat doms) z := forcedEndings_spec ended _
    have pbc : z.pbc = { s.pbc with panels := z.pbc.panels } := by
      rw [← ypbc, forced.rest, resettled_rest]
    refine ⟨t, ?_, ?_, fun k hk => ?_, fun k => ?_, fun n => ?_, fun n => ?_, ?_, ?_, ?_, ?_, ?_, ?_, ?_, ?_, ?_, ?_⟩
    · rw [executes, requestOf_inTurn turn' read, setCamera_accepted (inRange.2 good), transmit_eq]; rfl
    · show z.camera? b.toNat = v
      rw [State.camera?, ztou]; exact (cameraWritten_camera b.toNat v x).1
    · show z.camera? k = _
      rw [← camera, State.camera?, ztou]; exact (cameraWritten_camera b.toNat v x).2 k hk
    · show z.callCount k = _
      rw [State.callCount, ztou]
      exact congrArg (fun o => count (fun h : CallEntry => h.camera == k) o.holders) turn.tou_eq
    · obtain ⟨config, fault⟩ := (cameraWritten_outputs b.toNat v x).1 n
      rw [output_of_tou (show t.tou = y.tou from ztou), ← output_of_tou (show x.tou = s.tou from turn.tou_eq)]
      exact ⟨config, fault⟩
    · rw [output_of_tou (show t.tou = y.tou from ztou), driveOf_of (show t.tou = y.tou from ztou) (cameraChange_tt ..)]
      exact (cameraWritten_outputs b.toNat v x).2 n
    · have resettled := resettled_rest y b.toNat doms
      have panels : ∀ p, (y.resettled b.toNat doms).panel? p = s.panel? p := fun p => by
        rw [resettled, State.panel?, State.panel?, ← ypbc]
      have keys : ∀ p k, (y.resettled b.toNat doms).key p k = s.key p k := fun p k => by
        rw [State.key, State.key, resettled_keys, ytc]
      have recounts : s.tc.talks.map (y.recounted doms) = s.tc.talks.map (t.recounted doms) := by
        rw [recounted_of (show t.tou = y.tou from ztou)]
      have gives := givenUp_spec y doms
      rw [recount_talks, ytc, recounts] at gives
      have talks := cameraChange_talks b.toNat doms y
      rw [ytc, recounts] at talks
      have ifbs := cameraChange_ifbs b.toNat doms y
      rw [ytc] at ifbs
      rw [← domains]
      refine ⟨ended, gives, talks, fun k hk => ?_, ifbs, fun p k => ?_, ⟨{ z with hlc := z.hlc.begun }, ?_, ?_, fun p => ?_⟩, ?_⟩
      · have listeners := cameraChange_listeners (show k ∈ z.tc.talks from hk)
        rw [ytc, recounts] at listeners
        exact listeners
      · rw [← keys]; exact forced.keys p k
      · exact relamp_follows { z with hlc := z.hlc.begun }
      · exact congrArg (fun b => ({ relamp z with hlc := z.hlc.begun, pbc := b } : State)) pbc
      · rw [← panels]; exact forced.panels p
      · obtain ⟨reported, leads⟩ := (resettled_reported y b.toNat doms).begun (replied_leads r' .ok [] (turn.settled settled))
        obtain ⟨refused, -⟩ := RaisedIf.begun leads forced.flags
        rw [begun_replied r' .ok [] (turn.settled settled)] at reported
        have reported := reported.congr (s' := s) (t' := t) (by rw [ytc]) ytme.symm
          (show z.tc.ifbs = _ by rw [forced.rest]) (show z.tme = _ by rw [forced.rest])
        refine ⟨(y.resettled b.toNat doms).hlc.begun, RaisedIf.congr reported ?_, RaisedIf.congr refused ?_⟩
        · simp only [and_assoc]
        · simp only [panels]
    · exact (cameraChange_mixed b.toNat doms y).congr ytc.symm ytme.symm rfl rfl
    · exact (cameraChange_rc ..).trans turn.rc_eq
    · exact (cameraChange_stu ..).trans turn.stu_eq
    · exact (cameraChange_tt ..).trans turn.tt_eq
    · exact (cameraChange_fd ..).trans turn.fd_eq
    · exact (cameraChange_pending ..).trans turn.pending_eq
    · exact congrArg (fun b => ({ b with panels := t.pbc.panels } : PanelBus)) pbc
    · refine ztou.trans ?_
      rw [← show s1.tou = s.tou from turn.tou_eq]
      exact congrArg (fun o : TallyOutputs => { s1.tou with cameras := o.cameras, outputs := o.outputs }) ztou.symm
    · rw [← ytc]; exact cameraChange_talkFrame b.toNat doms y
  · subst hr
    exact unread_inTurn (decode := cameraArgs) (body := setCamera) rfl settled turn (congrArg (Option.map _) (domainOf_large large))
  · subst hr
    exact unread_inTurn (decode := outputArgs) (body := setTallyOutput) rfl settled turn (outputArgs_unread bad)
  · intro tag b mask v mode s s1 r fields hr settled turn fits
    have executes : exec (.setOutput tag r.payload) s = .next (requestOf 0x41 tag r.payload outputArgs setTallyOutput s) := rfl
    have request : r = ⟨0x41, tag, r.payload⟩ := by rw [hr]
    have read : outputArgs r.payload = some (b.toNat, v) := by
      cases v with
      | none => rw [hr]; rfl
      | some x =>
        obtain ⟨source, small, colours, named⟩ := fields x rfl
        rw [hr]
        exact outputArgs_bytes source small colours (by rw [named]; cases x.mode <;> rfl)
    have turn' : InTurn ⟨0x41, tag, r.payload⟩ s s1 := request ▸ turn
    have inRange : (1 ≤ b.toNat ∧ b.toNat ≤ 48 ∧ ∀ x, v = some x → x.inRange = true) ↔ fits := by
      refine and_congr_right fun _ => and_congr_right fun _ => forall₂_congr fun x hx => ?_
      obtain ⟨-, small, colours, -⟩ := fields x hx
      have empty := colourSet_isEmpty_iff small
      rw [← colours] at empty
      simp [OutputConfig.inRange, within_iff, empty]
    rw [request]
    refine ⟨fun good => ?_, fun outside => refused_inTurn executes settled turn' read (setTallyOutput_refused (mt inRange.1 outside))⟩
    let r' : Request := ⟨0x41, tag, r.payload⟩
    let x := answer r' .ok s1
    have output : ∀ k, x.output k = s.output k := output_of_tou turn.tou_eq
    let w : Output := { config := v, drive := if v.isNone then .off else (x.output b.toNat).drive, fault := faultAfter (x.output b.toNat) v }
    have judged : OutputsJudged (x.setOutput b.toNat w) (writeOutput b.toNat v x) := writeOutput_judged b.toNat v x
    have self : (x.setOutput b.toNat w).output b.toNat = w := State.output_setOutput_self ..
    obtain ⟨config, fault⟩ := judged.outputs b.toNat
    rw [self] at config fault
    obtain ⟨keeps, clears⟩ := faultAfter_spec (s.output b.toNat) v
    rw [← output] at keeps clears ⊢
    have writes : setTallyOutput r' (b.toNat, v) s1 = writeOutput b.toNat v x := setTallyOutput_accepted (inRange.2 good)
    have link : (writeOutput b.toNat v x).hlc.begun =
        (s1.hlc.answered r' .ok []).handed .lampFault s.tou.lampFault (writeOutput b.toNat v x).tou.lampFault := by
      have leads := replied_leads r' .ok [] (turn.settled settled)
      have handed := (begun_handed leads .lampFault s1.tou.lampFault (writeOutput b.toNat v x).tou.lampFault).1
      rw [begun_replied r' .ok [] (turn.settled settled)] at handed
      rw [← show s1.tou = s.tou from turn.tou_eq, ← handed]
      exact congrArg (fun y : State => y.hlc.begun) judged.rest
    refine ⟨{ writeOutput b.toNat v x with hlc := (writeOutput b.toNat v x).hlc.begun }, ?_, config, fun both => fault.trans (keeps both),
      fun h => fault.trans (clears h), fun k hk => ?_, judged.drives, judged.fault, ?_⟩
    · rw [executes, requestOf_inTurn turn' read, writes, transmit_eq]
    · have other : (x.setOutput b.toNat w).output k = x.output k := State.output_setOutput_ne _ hk _
      rw [← output, ← other]; exact judged.outputs k
    · rw [link]
      let h := (s1.hlc.answered r' .ok []).handed .lampFault s.tou.lampFault (writeOutput b.toNat v x).tou.lampFault
      exact congrArg (fun y : State => { y with hlc := h }) judged.rest

end Sys2Proof.Machine

/-! SET_IFB and the arbitration (R104, R113 to R117). -/

namespace Sys2Proof.Machine

/-- R186: a request in its turn whose block re-derives the lamps behind the reply, with the flags of a change of the talks. -/
theorem reported_inTurn {α : Type} {c : Instr} {kind tag : Byte} {payload : List Byte} {decode : List Byte → Option α}
    {body : Request → α → State → State} {a : α} {code : ReplyCode} {s s1 z : State}
    (executes : exec c s = .next (requestOf kind tag payload decode body s)) (settled : Settled s)
    (turn : InTurn ⟨kind, tag, payload⟩ s s1) (read : decode payload = some a)
    (writes : body ⟨kind, tag, payload⟩ a s1 = relamp z)
    (reported : TalkReported (answer ⟨kind, tag, payload⟩ code s1) z (answer ⟨kind, tag, payload⟩ code s1).hlc z.hlc) :
    exec c s = .next { relamp z with hlc := z.hlc.begun } ∧
      TalkReported s { relamp z with hlc := z.hlc.begun } (s1.hlc.answered ⟨kind, tag, payload⟩ code []) z.hlc.begun := by
  have leads := replied_leads ⟨kind, tag, payload⟩ code [] (turn.settled settled)
  have begun := (reported.begun leads).1
  rw [begun_replied _ _ _ (turn.settled settled)] at begun
  refine ⟨by rw [executes, requestOf_inTurn turn read, writes, transmit_eq]; rfl, begun.congr ?_ ?_ rfl rfl⟩
  · exact (congrArg TalkController.ifbs turn.tc_eq).symm
  · exact turn.tme_eq.symm

/-! ### SET_IFB (R104, R115) -/

theorem writeIfb_reported (n : Nat) (v : Option Ifb) (s : State) : TalkReported s (writeIfb n v s) s.hlc (writeIfb n v s).hlc :=
  handled_reported rfl rfl

theorem writeIfb_tc (n : Nat) (v : Option Ifb) (s : State) : (writeIfb n v s).tc = { s.tc with
    talks := (writeIfb n v s).tc.talks, ifbs := (writeIfb n v s).tc.ifbs } := by
  unfold writeIfb
  dsimp only
  rw [announceInterrupters_tc, handling_tc]
  rfl

theorem writeIfb_talks (n : Nat) (v : Option Ifb) (s : State) : SameTalks (writeIfb n v s).tc.talks s.tc.talks := by
  unfold writeIfb
  dsimp only
  rw [announceInterrupters_tc, handling_tc]
  exact resolveAgain_same _ _

theorem announceInterrupters_eq (b s : State) : announceInterrupters b s = { s with hlc := (announceInterrupters b s).hlc } := by
  unfold announceInterrupters
  split
  · rw [raise_eq]
  · rfl

/-- R104: what writing an IFB leaves, with the lamps re-derived and the link begun. -/
theorem writeIfb_frame {n : Nat} {v : Option Ifb} {r : Request} {s s1 : State} (turn : InTurn r s s1) (code : ReplyCode)
    {t : State} (ht : t = { relamp (writeIfb n v (answer r code s1)) with hlc := (writeIfb n v (answer r code s1)).hlc.begun }) :
    t.ifb? n = v ∧ (∀ m, m ≠ n → t.ifb? m = s.ifb? m) ∧ SameTalks t.tc.talks s.tc.talks ∧
      t.tc = { s.tc with talks := t.tc.talks, ifbs := t.tc.ifbs } ∧ MixHandled s t ∧
      Relamped { s1 with tc := t.tc, tme := t.tme } t ∧
      t = { s1 with hlc := t.hlc, tc := t.tc, tme := t.tme, pbc := { s1.pbc with panels := t.pbc.panels } } := by
  let x := answer r code s1
  have tc : x.tc = s.tc := turn.tc_eq
  have ifb : ∀ m, t.ifb? m = if m = n then v else s.ifb? m := fun m => by
    rw [ht]
    exact (writeIfb_ifbs n v x m).trans (by rw [State.ifb?, tc]; rfl)
  have talks := writeIfb_talks n v x
  have frame := writeIfb_tc n v x
  rw [tc] at talks frame
  have rest : writeIfb n v x = { x with hlc := (writeIfb n v x).hlc, tc := (writeIfb n v x).tc, tme := (writeIfb n v x).tme } := by
    unfold writeIfb
    dsimp only
    rw [announceInterrupters_eq, handling_eq]
    rfl
  subst ht
  refine ⟨(ifb n).trans (if_pos rfl), fun m hm => (ifb m).trans (if_neg hm), talks, frame, ?_, ?_, ?_⟩
  · exact (writeIfb_mixed n v x).congr tc.symm turn.tme_eq.symm rfl rfl
  · have lamps := relamped_tc { s1 with tc := (writeIfb n v x).tc, tme := (writeIfb n v x).tme } (writeIfb n v x) (writeIfb_pbc n v x)
    exact ⟨lamps.bus, lamps.undeclared, lamps.declared⟩
  · have panels : (relamp (writeIfb n v x)).pbc = { s1.pbc with panels := (relamp (writeIfb n v x)).pbc.panels } :=
      (relamped_tc s1 (writeIfb n v x) (writeIfb_pbc n v x)).bus
    refine (congrArg (fun y : State => { y with
      hlc := (writeIfb n v x).hlc.begun, pbc := (relamp (writeIfb n v x)).pbc }) rest).trans ?_
    exact congrArg (fun b : PanelBus => { s1 with
      hlc := (writeIfb n v x).hlc.begun, tc := (writeIfb n v x).tc, tme := (writeIfb n v x).tme, pbc := b }) panels

/-- R104, R115: the record that a configuration gives. -/
theorem configuredIfb_spec (s : State) (n : Nat) (a : IfbArgs) :
    ((s.configuredIfb n a).output = a.output ∧ (s.configuredIfb n a).program = a.program ∧
      (s.configuredIfb n a).duck = a.duck ∧ (s.configuredIfb n a).noPreempt = a.noPreempt) ∧
    (s.ifb? n = none →
      (s.configuredIfb n a).current = none ∧ (s.configuredIfb n a).level = 0 ∧ (s.configuredIfb n a).pending = []) ∧
    (∀ j, s.ifb? n = some j → ¬(j.noPreempt = true ∧ a.noPreempt = false ∧ j.pending ≠ [] ∧ j.current ≠ none) →
      (s.configuredIfb n a).current = j.current ∧ (s.configuredIfb n a).level = j.level ∧
        (s.configuredIfb n a).pending = j.pending) ∧
    ∀ j head rest c, s.ifb? n = some j → j.noPreempt = true → a.noPreempt = false → j.pending = head :: rest →
      j.current = some c →
      (j.level < s.priorityOf head → (s.configuredIfb n a).current = some head ∧
        (s.configuredIfb n a).level = s.priorityOf head ∧ (s.configuredIfb n a).pending = s.enterPending c rest) ∧
      (s.priorityOf head ≤ j.level → (s.configuredIfb n a).current = j.current ∧
        (s.configuredIfb n a).level = j.level ∧ (s.configuredIfb n a).pending = j.pending) := by
  have fields : ∀ i : Ifb, (s.rearbitrate i).output = i.output ∧ (s.rearbitrate i).program = i.program ∧
      (s.rearbitrate i).duck = i.duck ∧ (s.rearbitrate i).noPreempt = i.noPreempt := fun i => by
    unfold State.rearbitrate
    split
    · split <;> exact ⟨rfl, rfl, rfl, rfl⟩
    · exact ⟨rfl, rfl, rfl, rfl⟩
  have idle : ∀ i : Ifb, ¬(i.pending ≠ [] ∧ i.current ≠ none) → s.rearbitrate i = i := fun i h => by
    unfold State.rearbitrate
    split
    · next pending current => exact absurd ⟨by rw [pending]; simp, by rw [current]; simp⟩ h
    · rfl
  unfold State.configuredIfb
  cases record : s.ifb? n with
  | none =>
    refine ⟨⟨rfl, rfl, rfl, rfl⟩, fun _ => ⟨rfl, rfl, rfl⟩, fun j h => absurd h (by simp), fun j head rest c h => absurd h (by simp)⟩
  | some i =>
    dsimp only
    by_cases cleared : (i.noPreempt && !a.noPreempt) = true
    · rw [if_pos cleared]
      obtain ⟨was, now⟩ : i.noPreempt = true ∧ a.noPreempt = false := by simpa using cleared
      refine ⟨fields _, fun h => absurd h (by simp), fun j hj quiet => ?_, fun j head rest c hj _ _ pending current => ?_⟩
      · obtain rfl := Option.some.inj hj
        rw [idle]
        · exact ⟨rfl, rfl, rfl⟩
        · exact fun h => quiet ⟨was, now, h⟩
      · obtain rfl := Option.some.inj hj
        have settles : s.rearbitrate { i with output := a.output, program := a.program, duck := a.duck, noPreempt := a.noPreempt } =
            if i.level < s.priorityOf head then
              { i with
                output := a.output, program := a.program, duck := a.duck, noPreempt := a.noPreempt
                current := some head, level := s.priorityOf head, pending := s.enterPending c rest }
            else { i with output := a.output, program := a.program, duck := a.duck, noPreempt := a.noPreempt } := by
          unfold State.rearbitrate
          dsimp only
          rw [pending, current]
        rw [settles]
        refine ⟨fun lower => ?_, fun level => ?_⟩
        · rw [if_pos lower]; exact ⟨rfl, rfl, rfl⟩
        · rw [if_neg (Nat.not_lt.2 level)]; exact ⟨rfl, rfl, rfl⟩
    · rw [if_neg cleared]
      refine ⟨⟨rfl, rfl, rfl, rfl⟩, fun h => absurd h (by simp), fun j hj _ => ?_, fun j head rest c hj was now => ?_⟩
      · obtain rfl := Option.some.inj hj
        exact ⟨rfl, rfl, rfl⟩
      · obtain rfl := Option.some.inj hj
        exact absurd (by simp [was, now]) cleared

theorem ifbArgs_inRange_iff (a : IfbArgs) : a.inRange = true ↔ (1 ≤ a.output ∧ a.output ≤ 64) ∧ (1 ≤ a.program ∧ a.program ≤ 64) ∧
    ∀ d, a.duck = some d → -60 ≤ d ∧ d ≤ 0 := by
  unfold IfbArgs.inRange
  cases a.duck <;> simp [within_iff, withinInt_iff, and_assoc]

theorem ifbPortsFit_iff (s : State) (n : Nat) (a : IfbArgs) : s.ifbPortsFit n a = true ↔
    (s.port a.output).role = .ifbOutput ∧ (s.port a.program).role = .programInput ∧
      ∀ e ∈ s.tc.ifbs.entries, e.1 ≠ n → e.2.output ≠ a.output := by
  unfold State.ifbPortsFit
  simp [and_assoc]

theorem ifbPortsChange_iff (s : State) (n : Nat) (a : IfbArgs) : s.ifbPortsChange n a = true ↔
    ∃ i, s.ifb? n = some i ∧ (i.output ≠ a.output ∨ i.program ≠ a.program) := by
  unfold State.ifbPortsChange
  cases s.ifb? n <;> simp

theorem ifbAddressed_iff (s : State) (n : Nat) : s.ifbAddressed n = true ↔ ∃ t ∈ s.tc.talks, t.target = .ifb n := by
  unfold State.ifbAddressed
  simp

/-! ### Arbitration (R113 to R117) -/

/-- R113: a talk takes its place in a pending list. -/
theorem placedPending (s : State) (id : Nat) (pending : List Nat) : PlacedPending s id pending := by
  obtain ⟨before, after, split, entered, passed, stops⟩ := insertOrdered_split s.pendingBefore id pending
  refine ⟨before, after, split, entered, fun x hx => ?_, fun y hy => (pendingBefore_iff ..).1 (stops y hy)⟩
  rw [← pendingBefore_iff, passed x hx]
  simp

theorem arbitrate_cases (s : State) (i : Ifb) (id priority : Nat) :
    (priority = 0 → s.arbitrate i id priority = i) ∧
    (priority ≠ 0 → i.current = none → s.arbitrate i id priority = { i with current := some id, level := priority }) ∧
    ∀ c, priority ≠ 0 → i.current = some c →
      (i.noPreempt = false ∧ i.level < priority → s.arbitrate i id priority =
        { i with current := some id, level := priority, pending := s.enterPending c i.pending }) ∧
      (¬(i.noPreempt = false ∧ i.level < priority) → s.arbitrate i id priority =
        { i with pending := s.enterPending id i.pending }) := by
  unfold State.arbitrate
  refine ⟨fun zero => if_pos zero, fun some idle => ?_, fun c some busy => ?_⟩
  · rw [if_neg some, idle]
  · rw [if_neg some, busy]
    have preempts : (!i.noPreempt && decide (i.level < priority)) = true ↔ i.noPreempt = false ∧ i.level < priority := by simp
    exact ⟨fun h => if_pos (preempts.2 h), fun h => if_neg (mt preempts.1 h)⟩

theorem withoutTalks_idle {s : State} {i : Ifb} (ended : List Nat) (idle : i.current = none) :
    s.withoutTalks ended i = { i with pending := i.pending.filter fun id => !ended.contains id } := by
  unfold State.withoutTalks; dsimp only; rw [idle]

theorem withoutTalks_busy {s : State} {i : Ifb} (ended : List Nat) {c : Nat} (busy : i.current = some c) :
    (c ∉ ended → s.withoutTalks ended i = { i with pending := i.pending.filter fun id => !ended.contains id }) ∧
    (c ∈ ended → (i.pending.filter fun id => !ended.contains id) = [] →
      s.withoutTalks ended i = { i with current := none, level := 0, pending := [] }) ∧
    ∀ head rest, c ∈ ended → (i.pending.filter fun id => !ended.contains id) = head :: rest → s.withoutTalks ended i =
      { i with current := some head, level := s.priorityOf head, pending := rest } := by
  unfold State.withoutTalks
  dsimp only
  rw [busy]
  dsimp only
  refine ⟨fun stays => if_neg (by simpa using stays), fun ends none => ?_, fun head rest ends left => ?_⟩
  · rw [if_pos (by simpa using ends), none]
  · rw [if_pos (by simpa using ends), left]

theorem panelBus_free {s t : State}
    (rest : t = { s with hlc := t.hlc, tc := t.tc, tme := t.tme, pbc := { s.pbc with panels := t.pbc.panels } }) :
    t = { s with hlc := t.hlc, tc := t.tc, tme := t.tme, pbc := t.pbc } :=
  rest.trans (congrArg (fun b => ({ s with hlc := t.hlc, tc := t.tc, tme := t.tme, pbc := b } : State))
    (congrArg State.pbc rest).symm)

theorem InTurn.ifb?_eq {r : Request} {s s1 : State} (turn : InTurn r s s1) (n : Nat) : s1.ifb? n = s.ifb? n := by
  rw [State.ifb?, State.ifb?, turn.tc_eq]

/-- R104: an accepted configuration, the same as the record or a new one. -/
theorem ifbConfigured_inTurn {c : Instr} {tag : Byte} {payload : List Byte} {n : Nat} {a : IfbArgs} {i : Ifb} {s s1 : State}
    (executes : exec c s = .next (requestOf 0x60 tag payload ifbArgs setIfb s)) (settled : Settled s)
    (turn : InTurn ⟨0x60, tag, payload⟩ s s1) (read : ifbArgs payload = some (n, some a))
    (writes : setIfb ⟨0x60, tag, payload⟩ (n, some a) s1 = if s.ifb? n = some i then answer ⟨0x60, tag, payload⟩ .ok s1
      else relamp (writeIfb n (some i) (answer ⟨0x60, tag, payload⟩ .ok s1))) :
    ∃ t, exec c s = .next t ∧ t.ifb? n = some i ∧ (∀ m, m ≠ n → t.ifb? m = s.ifb? m) ∧ SameTalks t.tc.talks s.tc.talks ∧
      t.tc = { s.tc with talks := t.tc.talks, ifbs := t.tc.ifbs } ∧ MixHandled s t ∧
      (s.ifb? n ≠ some i → Relamped { s1 with tc := t.tc, tme := t.tme } t) ∧
      (s.ifb? n = some i → t = { s1 with hlc := s1.hlc.answered ⟨0x60, tag, payload⟩ .ok [] }) ∧
      t = { s1 with hlc := t.hlc, tc := t.tc, tme := t.tme, pbc := { s1.pbc with panels := t.pbc.panels } } ∧
      TalkReported s t (s1.hlc.answered ⟨0x60, tag, payload⟩ .ok []) t.hlc := by
  by_cases same : s.ifb? n = some i
  · refine ⟨_, refused_inTurn executes settled turn read (writes.trans (if_pos same)), (turn.ifb?_eq n).trans same,
      fun m _ => turn.ifb?_eq m, ?_, ?_, .refl turn.tc_eq turn.tme_eq, fun h => absurd same h, fun _ => rfl, rfl,
      .refl (congrArg TalkController.ifbs turn.tc_eq) turn.tme_eq _⟩
    · exact congrArg (fun c : TalkController => c.talks.map Talk.bare) turn.tc_eq
    · show s1.tc = { s.tc with talks := s1.tc.talks, ifbs := s1.tc.ifbs }
      rw [turn.tc_eq]
  · obtain ⟨ends, reported⟩ := reported_inTurn (code := .ok) executes settled turn read (writes.trans (if_neg same))
      (writeIfb_reported n (some i) _)
    obtain ⟨written, others, talks, frame, mixed, lamps, rest⟩ := writeIfb_frame (n := n) (v := some i) turn .ok rfl
    exact ⟨_, ends, written, others, talks, frame, mixed, fun _ => lamps, fun h => absurd h same, rest, reported⟩

/-- Settles O41. -/
theorem ifbsAreConfigured : Obligations.IfbsAreConfigured := by
  refine ⟨?_, ?_, arbitrate_cases, placedPending, fun s n id => ⟨rfl, fun t active => ?_⟩,
    fun s i ended idle => withoutTalks_idle ended idle, fun s i ended c busy => withoutTalks_busy ended busy⟩
  · intro tag b s s1 r hr settled turn addressed
    subst hr
    have executes : exec (.setIfb tag [b]) s = .next (requestOf 0x60 tag [b] ifbArgs setIfb s) := rfl
    have read : ifbArgs [b] = some (b.toNat, none) := rfl
    have named : s1.ifbAddressed b.toNat = true ↔ addressed := by rw [ifbAddressed_iff, turn.tc_eq]
    have inRange : (within 1 16 b.toNat && true) = true ↔ 1 ≤ b.toNat ∧ b.toNat ≤ 16 := by rw [Bool.and_true, within_iff]
    refine ⟨fun good free => ?_, fun good taken => ?_, fun outside => ?_⟩
    · obtain ⟨ends, reported⟩ := reported_inTurn (code := .ok) executes settled turn read
        ((if_pos (inRange.2 good)).trans (if_neg (mt named.1 free))) (writeIfb_reported ..)
      obtain ⟨written, others, talks, frame, mixed, lamps, rest⟩ := writeIfb_frame turn .ok rfl
      exact ⟨_, ends, written, others, talks, frame, mixed, lamps, panelBus_free rest, reported⟩
    · exact refused_inTurn executes settled turn read ((if_pos (inRange.2 good)).trans (if_pos (named.2 taken)))
    · exact refused_inTurn executes settled turn read (if_neg (mt inRange.1 outside))
  · intro tag b o p duck hold s s1 r range hr settled turn fits ports moved addressed
    subst hr
    let a : IfbArgs := ⟨o.toNat, p.toNat, duck, hold⟩
    have executes : ∀ x, exec (.setIfb tag x) s = .next (requestOf 0x60 tag x ifbArgs setIfb s) := fun _ => rfl
    have read : ifbArgs [b, o, p, ceilingByte duck, yesNo hold] = some (b.toNat, some a) := by
      simp only [ifbArgs, boolOf_yesNo, Option.map_some]
      rw [ceilingOf_byte fun x hx => range x (by simpa using hx)]
    have named : s1.ifbAddressed b.toNat = true ↔ addressed := by rw [ifbAddressed_iff, turn.tc_eq]
    have inRange : (within 1 16 b.toNat && a.inRange) = true ↔ fits := by
      rw [Bool.and_eq_true, within_iff, ifbArgs_inRange_iff]
    have fit : (!s1.ifbPortsFit b.toNat a) = true ↔ ¬ports := by
      rw [Bool.not_eq_true', ← Bool.not_eq_true, ifbPortsFit_iff]
      unfold State.port
      rw [turn.tc_eq]
      exact Iff.rfl
    have change : (s1.ifbPortsChange b.toNat a && s1.ifbAddressed b.toNat) = true ↔ moved ∧ addressed := by
      rw [Bool.and_eq_true, ifbPortsChange_iff, named, State.ifb?, turn.tc_eq]
      exact Iff.rfl
    have record : s1.configuredIfb b.toNat a = s.configuredIfb b.toNat a := by
      unfold State.configuredIfb State.rearbitrate State.priorityOf State.enterPending State.pendingBefore State.talk? State.ifb?
      rw [turn.tc_eq]
    obtain ⟨⟨output, program, ducked, held⟩, fresh, kept, cleared⟩ := configuredIfb_spec s b.toNat a
    refine ⟨fun good fitting free => ?_, fun good fitting move taken => ?_, fun good unfit => ?_, fun outside => ?_⟩
    · obtain ⟨t, ends, written, rest⟩ := ifbConfigured_inTurn (i := s.configuredIfb b.toNat a) (executes _) settled turn read
        ((if_pos (inRange.2 good)).trans
          ((if_neg (fun h => fit.1 h fitting)).trans ((if_neg (mt change.1 free)).trans (by rw [record, turn.ifb?_eq]))))
      exact ⟨t, s.configuredIfb b.toNat a, ends, written, output, program, ducked, held, fresh, kept, cleared, rest⟩
    · exact refused_inTurn (executes _) settled turn read ((if_pos (inRange.2 good)).trans
        ((if_neg (fun h => fit.1 h fitting)).trans (if_pos (change.2 ⟨move, taken⟩))))
    · exact refused_inTurn (executes _) settled turn read ((if_pos (inRange.2 good)).trans (if_pos (fit.2 unfit)))
    · exact refused_inTurn (executes _) settled turn read (if_neg (mt inRange.1 outside))
  · unfold State.priorityOf; rw [active]; rfl

end Sys2Proof.Machine

/-! TALK_ON and TALK_OFF (R83 to R87, R93, R94). -/

namespace Sys2Proof.Machine

/-! ### Offers of talks (R83 to R86) -/

theorem targetValid_iff (s : State) (target : Target) : s.targetValid target = true ↔ s.validTarget target := by
  cases target with
  | port q => simp [State.targetValid, State.validTarget, within_iff]
  | group g => simp [State.targetValid, State.validTarget, within_iff]
  | ifb n => simp [State.targetValid, State.validTarget, within_iff, Option.isSome_iff_ne_none]
  | camera c =>
    unfold State.targetValid State.validTarget State.cameraPort
    rw [Bool.and_eq_true, within_iff]
    refine and_congr_right fun _ => ?_
    cases s.camera? c <;> simp [Option.isSome_iff_ne_none]
  | onair => simp [State.targetValid, State.validTarget]

/-- R84 to R86, R114: an offer finds a talk place, its reservation and a place in the arbitration. -/
def State.hasRoom (s : State) (o : TalkOffer) (q : Nat) : Prop :=
  s.tc.talks.length < 96 ∧ totalReservations s.tc.talks + s.reservationOf o.target q o.domain ≤ 512 ∧
    ∀ n i, o.target = .ifb n → s.ifb? n = some i → o.priority = 0 ∨ i.current = none ∨ i.pending.length < 16

theorem accepts_iff (i : Ifb) (priority : Nat) : i.accepts priority = true ↔ priority = 0 ∨ i.current = none ∨ i.pending.length < 16 := by
  unfold Ifb.accepts
  rw [show Config.ifbPending = 16 from rfl]
  simp [or_assoc]

/-- R86: an offer of a port that is NORMAL to a valid target is refused for want of room alone. -/
theorem offerRefusal_hasRoom {s : State} {o : TalkOffer} {q : Nat} (talker : o.talker = some q) (normal : (s.port q).role = .normal)
    (valid : s.targetValid o.target = true) :
    (s.hasRoom o q → s.offerRefusal o = none) ∧ (¬s.hasRoom o q → s.offerRefusal o = some .noSpace) := by
  have refusal : s.offerRefusal o =
      if 96 ≤ s.tc.talks.length then some .noSpace
      else if 512 < totalReservations s.tc.talks + s.reservationOf o.target q o.domain then some .noSpace
      else match o.target with
        | .ifb n => match s.ifb? n with
          | some i => if i.accepts o.priority then none else some .noSpace
          | none => some .badTarget
        | _ => none := by
    unfold State.offerRefusal
    rw [talker]
    dsimp only
    rw [if_neg (by simp [normal]), if_neg (by simp [valid])]
    rfl
  rw [refusal]
  unfold State.hasRoom
  by_cases full : 96 ≤ s.tc.talks.length
  · rw [if_pos full]
    exact ⟨fun h => absurd full (Nat.not_le.2 h.1), fun _ => rfl⟩
  · rw [if_neg full]
    by_cases exceeds : 512 < totalReservations s.tc.talks + s.reservationOf o.target q o.domain
    · rw [if_pos exceeds]
      exact ⟨fun h => absurd exceeds (Nat.not_lt.2 h.2.1), fun _ => rfl⟩
    · rw [if_neg exceeds]
      have spaced : s.tc.talks.length < 96 ∧ totalReservations s.tc.talks + s.reservationOf o.target q o.domain ≤ 512 :=
        ⟨Nat.not_le.1 full, Nat.not_lt.1 exceeds⟩
      cases target : o.target with
      | ifb n =>
        rw [target] at valid spaced
        have known : (s.ifb? n).isSome = true := (Bool.and_eq_true_iff.1 valid).2
        obtain ⟨i, record⟩ := Option.isSome_iff_exists.1 known
        dsimp only
        rw [record]
        dsimp only
        by_cases accepts : i.accepts o.priority = true
        · rw [if_pos accepts]
          refine ⟨fun _ => rfl, fun h => absurd ⟨spaced.1, spaced.2, fun m j hm hj => ?_⟩ h⟩
          obtain rfl := Target.ifb.inj hm
          obtain rfl := Option.some.inj (record.symm.trans hj)
          exact (accepts_iff ..).1 accepts
        · rw [if_neg accepts]
          exact ⟨fun h => absurd ((accepts_iff ..).2 (h.2.2 n i rfl record)) accepts, fun _ => rfl⟩
      | _ =>
        rw [target] at spaced
        exact ⟨fun _ => rfl, fun h => absurd ⟨spaced.1, spaced.2, fun _ _ hm => absurd hm (by simp)⟩ h⟩

/-- R84: the new talk takes the lowest free id. -/
theorem freeTalkId_lowest {s : State} (room : s.tc.talks.length < 96) :
    1 ≤ s.freeTalkId ∧ s.freeTalkId ≤ 96 ∧ (∀ y ∈ s.tc.talks, y.id ≠ s.freeTalkId) ∧
      ∀ j, 1 ≤ j ∧ j < s.freeTalkId → ∃ y ∈ s.tc.talks, y.id = j := by
  obtain ⟨⟨lo, hi⟩, free⟩ := freeTalkId_free room
  refine ⟨lo, hi, fun y hy same => free (same ▸ List.mem_map_of_mem hy), fun j ⟨positive, below⟩ => ?_⟩
  by_contra unheld
  have isFree : (s.talk? j).isNone = true := talk?_isNone.2 fun h => by
    obtain ⟨y, hy, e⟩ := List.mem_map.1 h
    exact unheld ⟨y, hy, e⟩
  have found : (numbers 1 Config.talkPlaces).find? (fun id => (s.talk? id).isNone) = some s.freeTalkId := by
    unfold State.freeTalkId at free lo hi ⊢
    cases h : (numbers 1 Config.talkPlaces).find? fun id => (s.talk? id).isNone with
    | some id => rfl
    | none => rw [h] at lo; simp at lo
  obtain ⟨-, -, before⟩ := List.find?_range'_eq_some.1 found
  have taken := before j positive below
  simp [isFree] at taken

/-! ### TALK_ON and TALK_OFF (R93, R94) -/

/-- R93: what the ending of the talk of a slot does to the talk set, the IFBs and the path table. -/
structure SlotEnded (slot : Nat) (s m : State) : Prop where
  talks : SameTalks m.tc.talks (s.tc.talks.filter fun x => (s.slotTalk? slot).map (fun y => y.id) != some x.id)
  frame : m.tc = { s.tc with talks := m.tc.talks, ifbs := m.tc.ifbs }
  ifbs : IfbsLeft ((s.slotTalk? slot).map fun y => y.id).toList s m
  mixed : MixHandled s m

theorem endSlot_ended (slot : Nat) {s x : State} (tc : x.tc = s.tc) (tme : x.tme = s.tme) : SlotEnded slot s (endSlot slot x) := by
  let ids := ((s.slotTalk? slot).map fun y => y.id).toList
  have ends : endSlot slot x = endTalks ids x := by
    unfold endSlot State.slotTalk?
    rw [tc]; rfl
  rw [ends]
  have left : (s.tc.talks.filter fun t => !ids.contains t.id) =
      s.tc.talks.filter fun x => (s.slotTalk? slot).map (fun y => y.id) != some x.id := by
    refine List.filter_congr fun y _ => ?_
    unfold ids
    cases s.slotTalk? slot with
    | none => rfl
    | some z => by_cases same : z.id = y.id <;> simp [same, Ne.symm]
  refine ⟨?_, ?_, (ifbsLeft_endTalks ids x).congr (by rw [tc]) (by rw [tc]) rfl rfl, ?_⟩
  · have talks := endTalks_talks ids x
    rw [tc, left] at talks
    exact talks
  · rw [← tc]; exact endTalks_tc_eq ids x
  · exact (endTalks_mixed ids x).congr tc.symm tme.symm rfl rfl

/-- R87: the endings of talks do not depend on the link. -/
theorem endTalks_tc_link (ids : List Nat) (s : State) (h : HostLink) : (endTalks ids { s with hlc := h }).tc = (endTalks ids s).tc := by
  let x : State := { s with hlc := h }
  by_cases ends : (s.tc.talks.any fun t => ids.contains t.id) = true
  · have here : endTalks ids s = announceInterrupters s (handling s (removeTalks ids s)) := if_pos ends
    have there : endTalks ids x = announceInterrupters x (handling x (removeTalks ids x)) := if_pos ends
    rw [here, there, announceInterrupters_tc, announceInterrupters_tc, handling_tc, handling_tc]
    rfl
  · have here : endTalks ids s = s := if_neg ends
    have there : endTalks ids x = x := if_neg ends
    rw [here, there]

theorem endSlot_rest (slot : Nat) (s : State) : (endSlot slot s).rc = s.rc ∧ (endSlot slot s).stu = s.stu ∧
    (endSlot slot s).tt = s.tt ∧ (endSlot slot s).tou = s.tou ∧ (endSlot slot s).fd = s.fd ∧ (endSlot slot s).pending = s.pending ∧
    (endSlot slot s).pbc = s.pbc :=
  ⟨endTalks_rc .., endTalks_stu .., endTalks_tt .., endTalks_tou .., endTalks_fd .., endTalks_pending .., endTalks_pbc ..⟩

/-- R93, R94: a state of which the talk set and the path table alone were written, with its lamps re-derived. -/
theorem talkFrame {s1 z : State} (rc : z.rc = s1.rc) (stu : z.stu = s1.stu) (tt : z.tt = s1.tt) (tou : z.tou = s1.tou)
    (fd : z.fd = s1.fd) (pending : z.pending = s1.pending) (pbc : z.pbc = s1.pbc) (h : HostLink) {t : State}
    (ht : t = { relamp z with hlc := h }) :
    t.rc = s1.rc ∧ t.stu = s1.stu ∧ t.tt = s1.tt ∧ t.tou = s1.tou ∧ t.fd = s1.fd ∧ t.pending = s1.pending ∧
      Relamped { s1 with tc := t.tc, tme := t.tme } t := by
  subst ht
  have lamps := relamped_tc { s1 with tc := z.tc, tme := z.tme } z pbc
  exact ⟨rc, stu, tt, tou, fd, pending, lamps.bus, lamps.undeclared, lamps.declared⟩

theorem talkOn_inRange_iff (a : TalkOnArgs) : a.inRange = true ↔ (1 ≤ a.slot ∧ a.slot ≤ 8) ∧ (1 ≤ a.talker ∧ a.talker ≤ 64) ∧
    (-80 ≤ a.level ∧ a.level ≤ 12) ∧ a.priority ≤ 7 := by
  unfold TalkOnArgs.inRange
  simp [within_iff, withinInt_iff, and_assoc]

theorem targetOf_bytes {target : Target} {dom : Option Domain} (named : match target with
      | .port k => k < 256 ∧ dom = none
      | .group k => k < 256 ∧ dom = none
      | .ifb k => k < 256 ∧ dom = none
      | .camera k => k < 256 ∧ dom = none
      | .onair => dom ≠ none) : ∃ type arg : Byte, targetBytes target dom = [type, arg] ∧ targetOf type arg = some (target, dom) := by
  cases target with
  | port k => obtain ⟨small, rfl⟩ := named; exact ⟨1, byte k, rfl, by simp [targetOf, byte_toNat small]⟩
  | group k => obtain ⟨small, rfl⟩ := named; exact ⟨2, byte k, rfl, by simp [targetOf, byte_toNat small]⟩
  | ifb k => obtain ⟨small, rfl⟩ := named; exact ⟨3, byte k, rfl, by simp [targetOf, byte_toNat small]⟩
  | camera k => obtain ⟨small, rfl⟩ := named; exact ⟨4, byte k, rfl, by simp [targetOf, byte_toNat small]⟩
  | onair =>
    obtain ⟨d, rfl⟩ := Option.ne_none_iff_exists'.1 named
    cases d
    exacts [⟨5, 0, rfl, rfl⟩, ⟨6, 0, rfl, rfl⟩]

/-- R93: the state whose talk set a TALK_ON offers its talk to. -/
def slotFreed (r : Request) (code : ReplyCode) (slot : Nat) (s : State) : State := endSlot slot (answer r code s)

/-- R85, R114: whether there is room reads the talk set, the IFBs and the cameras. -/
theorem hasRoom_of {s t : State} (tc : t.tc = s.tc) (tou : t.tou = s.tou) (o : TalkOffer) (q : Nat) : t.hasRoom o q ↔ s.hasRoom o q := by
  unfold State.hasRoom State.reservationOf State.onairReservation State.group State.ifb?
  rw [tc, tou]

/-- R85: a reservation reads the groups and the cameras. -/
theorem reservationOf_of {s t : State} (groups : t.tc.groups = s.tc.groups) (tou : t.tou = s.tou) (target : Target) (q : Nat)
    (dom : Option Domain) : t.reservationOf target q dom = s.reservationOf target q dom := by
  unfold State.reservationOf State.onairReservation State.group
  rw [groups, tou]

/-- R94: the flags that the ending of the talk of a slot raises, behind the reply. -/
theorem slotFreed_reported {r : Request} {s s1 : State} (settled : Settled s) (turn : InTurn r s s1) (code : ReplyCode) (slot : Nat) :
    TalkReported s (slotFreed r code slot s1) (s1.hlc.answered r code []) (slotFreed r code slot s1).hlc.begun ∧
      HostLink.leads r (replyTo r code []) (slotFreed r code slot s1).hlc := by
  have begun := (endTalks_reported ((s1.slotTalk? slot).map fun y => y.id).toList (answer r code s1)).begun
    (replied_leads r code [] (turn.settled settled))
  obtain ⟨begun, leads⟩ := begun
  rw [begun_replied _ _ _ (turn.settled settled)] at begun
  exact ⟨begun.congr (congrArg TalkController.ifbs turn.tc_eq).symm turn.tme_eq.symm rfl rfl, leads⟩

/-- R83: which targets are valid reads the ports, the groups, the IFBs and the cameras. -/
theorem targetValid_of {s t : State} (ports : t.tc.ports = s.tc.ports) (groups : t.tc.groups = s.tc.groups)
    (ifbs : ∀ n, (t.ifb? n).isSome = (s.ifb? n).isSome) (tou : t.tou = s.tou) (target : Target) :
    t.targetValid target = s.targetValid target := by
  unfold State.targetValid State.port State.group State.cameraPort State.camera?
  rw [ports, groups, tou]
  cases target <;> simp only [ifbs]

/-- R87, R116: the endings of talks leave the IFBs configured. -/
theorem IfbsLeft.configured {ids : List Nat} {s t : State} (left : IfbsLeft ids s t) (n : Nat) :
    (t.ifb? n).isSome = (s.ifb? n).isSome := by
  by_cases ends : ∃ x ∈ s.tc.talks, x.id ∈ ids
  · rw [State.ifb?, left.1 ends, Table.find?_mapValues, Option.isSome_map]; rfl
  · rw [State.ifb?, left.2 fun x hx h => ends ⟨x, hx, h⟩]; rfl

/-- R93: an accepted TALK_ON, by the room that it finds after the talk of its slot has ended. -/
theorem talkOn_offers {r : Request} {a : TalkOnArgs} {s : State} (fits : a.inRange = true) (normal : (s.port a.talker).role = .normal)
    (valid : s.targetValid a.target = true) :
    ((slotFreed r .ok a.slot s).hasRoom a.offered a.talker → talkOn r a s =
      relamp (createTalk ((slotFreed r .ok a.slot s).newTalk a.offered a.talker) (slotFreed r .ok a.slot s))) ∧
    (¬(slotFreed r .noSpace a.slot s).hasRoom a.offered a.talker → talkOn r a s = relamp (slotFreed r .noSpace a.slot s)) := by
  let m := endSlot a.slot s
  have ended : SlotEnded a.slot s m := endSlot_ended a.slot rfl rfl
  have tou : m.tou = s.tou := (endSlot_rest a.slot s).2.2.2.1
  have ports : (m.port a.talker).role = .normal := by rw [State.port, ended.frame]; exact normal
  have targets : m.targetValid a.offered.target = true :=
    (targetValid_of (by rw [ended.frame]) (by rw [ended.frame]) ended.ifbs.configured tou a.target).trans valid
  have same : ∀ code, (slotFreed r code a.slot s).hasRoom a.offered a.talker ↔ m.hasRoom a.offered a.talker := fun code =>
    hasRoom_of (endTalks_tc_link _ s _) ((endSlot_rest a.slot (answer r code s)).2.2.2.1.trans tou.symm) _ _
  have offers : talkOn r a s = match m.offerRefusal a.offered with
      | some why => relamp (endSlot a.slot (answer r why.code s))
      | none => relamp (createTalk ((slotFreed r .ok a.slot s).newTalk a.offered a.talker) (slotFreed r .ok a.slot s)) :=
    (if_pos fits).trans ((if_neg (by simp [normal])).trans ((if_neg (by simp [valid])).trans rfl))
  obtain ⟨room, full⟩ := offerRefusal_hasRoom (o := a.offered) rfl ports targets
  rw [offers, same, same]
  refine ⟨fun h => by rw [room h], fun h => by rw [full h]; rfl⟩

theorem talkOnArgs_bytes {b q prio : Byte} {target : Target} {dom : Option Domain} {x : Int} (named : match target with
      | .port k => k < 256 ∧ dom = none
      | .group k => k < 256 ∧ dom = none
      | .ifb k => k < 256 ∧ dom = none
      | .camera k => k < 256 ∧ dom = none
      | .onair => dom ≠ none) (signed : -128 ≤ x ∧ x ≤ 127) :
    talkOnArgs ([b, q] ++ targetBytes target dom ++ [stepsByte x, prio]) = some ⟨b.toNat, q.toNat, target, dom, x, prio.toNat⟩ := by
  obtain ⟨type, arg, bytes, target⟩ := targetOf_bytes named
  rw [bytes]
  simp [talkOnArgs, target, steps_stepsByte signed]

/-- Settles O40: the slot's ending by `endSlot_ended`, the offer by `talkOn_offers`, the creation by `createTalk_joined`. -/
theorem systemTalksBeginAndEnd : Obligations.SystemTalksBeginAndEnd := by
  unfold Obligations.SystemTalksBeginAndEnd
  intro kept framed slotEnded
  have ends : ∀ (slot : Nat) (s m : State), SlotEnded slot s m → slotEnded slot s m := fun slot s m h =>
    ⟨h.talks, h.frame, h.ifbs, h.mixed⟩
  refine ⟨fun s slot => rfl, fun talks => rfl, fun tag b s s1 r hr settled turn => ?_, targetValid_iff, ?_⟩
  · subst hr
    have executes : exec (.talkOff tag [b]) s = .next (requestOf 0x53 tag [b] byteArg talkOff s) := rfl
    have read : byteArg [b] = some b.toNat := rfl
    refine ⟨fun range => ?_, fun outside => refused_inTurn executes settled turn read (if_neg (mt within_iff.1 outside))⟩
    let r : Request := ⟨0x53, tag, [b]⟩
    let z := slotFreed r .ok b.toNat s1
    have writes : talkOff r b.toNat s1 = relamp z := if_pos (within_iff.2 range)
    obtain ⟨done, reported⟩ := reported_inTurn (code := .ok) executes settled turn read writes (endTalks_reported ..)
    have ended : SlotEnded b.toNat s z := endSlot_ended b.toNat turn.tc_eq turn.tme_eq
    obtain ⟨rc, stu, tt, tou, fd, pending, pbc⟩ := endSlot_rest b.toNat (answer r .ok s1)
    exact ⟨_, done, ends _ _ _ ⟨ended.talks, ended.frame, ended.ifbs.congr rfl rfl rfl rfl, ended.mixed.congr rfl rfl rfl rfl⟩,
      talkFrame (s1 := s1) rc stu tt tou fd pending pbc z.hlc.begun rfl, reported⟩
  · intro tag b q prio target dom x s s1 r named signed hr settled turn fits places born room joined turnedAway
    subst hr
    let r : Request := ⟨0x52, tag, [b, q] ++ targetBytes target dom ++ [stepsByte x, prio]⟩
    let a : TalkOnArgs := ⟨b.toNat, q.toNat, target, dom, x, prio.toNat⟩
    have executes : exec (.talkOn tag r.payload) s = .next (requestOf 0x52 tag r.payload talkOnArgs talkOn s) := rfl
    have read : talkOnArgs r.payload = some a := talkOnArgs_bytes named signed
    have port : s1.port q.toNat = s.port q.toNat := congrArg (fun tc : TalkController => tc.ports.get Port.start q.toNat) turn.tc_eq
    have inRange : a.inRange = true ↔ fits := talkOn_inRange_iff a
    have target_valid : s1.targetValid target = s.targetValid target := targetValid_of (by rw [turn.tc_eq]) (by rw [turn.tc_eq])
      (fun n => by rw [State.ifb?, turn.tc_eq]; rfl) turn.tou_eq target
    have freed : ∀ code, SlotEnded b.toNat s (slotFreed r code b.toNat s1) := fun code =>
      endSlot_ended b.toNat turn.tc_eq turn.tme_eq
    have reserved : ∀ code, (slotFreed r code b.toNat s1).reservationOf target q.toNat dom = places q.toNat := fun code =>
      (reservationOf_of (congrArg TalkController.groups (freed code).frame :) ((endSlot_rest b.toNat (answer r code s1)).2.2.2.1.trans turn.tou_eq) ..).trans
        (by cases target <;> cases dom <;> rfl)
    have rooms : ∀ code, (slotFreed r code b.toNat s1).hasRoom a.offered q.toNat ↔ room (slotFreed r code b.toNat s1) := fun code => by
      have same : (slotFreed r code b.toNat s1).hasRoom a.offered q.toNat ↔ _ := Iff.rfl
      rw [same, State.hasRoom, show State.reservationOf _ a.offered.target q.toNat a.offered.domain = _ from reserved code]
      exact and_congr_right fun _ => and_congr_right fun _ => forall_congr' fun n => forall_congr' fun i =>
        forall_congr' fun _ => forall_congr' fun _ => or_congr_left ⟨fun h => BitVec.eq_of_toNat_eq h, fun h => congrArg BitVec.toNat h⟩
    refine ⟨fun unfit => refused_inTurn executes settled turn read (if_neg (mt inRange.1 unfit)),
      fun fit role => refused_inTurn executes settled turn read ((if_pos (inRange.2 fit)).trans (if_pos (port ▸ role))),
      fun fit role invalid => refused_inTurn executes settled turn read ((if_pos (inRange.2 fit)).trans
        ((if_neg (by simp [a, port, role])).trans (if_pos (by simp [a, target_valid, invalid])))), fun fit role valid => ?_⟩
    obtain ⟨accepts, refuses⟩ := talkOn_offers (r := r) (a := a) (inRange.2 fit) (port ▸ role) (target_valid.trans valid)
    by_cases spacious : room (slotFreed r .ok b.toNat s1)
    · let m := slotFreed r .ok b.toNat s1
      let new := m.newTalk a.offered q.toNat
      let z := createTalk new m
      obtain ⟨begun, leads⟩ := slotFreed_reported settled turn .ok b.toNat
      obtain ⟨reported, -⟩ := (createTalk_reported new m).begun leads
      obtain ⟨talks, ifbs, frame⟩ := createTalk_joined new m
      have counter : m.tc.counter = s.tc.counter := (congrArg TalkController.counter (freed .ok).frame :)
      have record : new.bare = ⟨new.id, q.toNat, target, x, prio.toNat, .system b.toNat, dom, s.tc.counter, places q.toNat, []⟩ := by
        rw [← counter, ← reserved .ok]; rfl
      rw [counter] at talks
      have done : exec (.talkOn tag r.payload) s = .next { relamp z with hlc := z.hlc.begun } := by
        rw [executes, requestOf_inTurn turn read, accepts ((rooms .ok).2 spacious), transmit_eq]; rfl
      obtain ⟨rc, stu, tt, tou, fd, pending, pbc⟩ := endSlot_rest b.toNat (answer r .ok s1)
      have framed : framed s1 { relamp z with hlc := z.hlc.begun } := talkFrame (s1 := s1) (z := z)
        ((createTalk_rc ..).trans rc) ((createTalk_stu ..).trans stu) ((createTalk_tt ..).trans tt) ((createTalk_tou ..).trans tou)
        ((createTalk_fd ..).trans fd) ((createTalk_pending ..).trans pending) ((createTalk_pbc ..).trans pbc) z.hlc.begun rfl
      exact ⟨m, _, done, ends _ _ _ (freed .ok), framed, fun _ => ⟨new, m.hlc.begun,
        ⟨freeTalkId_lowest spacious.1, record⟩, talks, ifbs, frame, (createTalk_mixed new m).congr rfl rfl rfl rfl, begun, reported⟩,
        fun full => absurd spacious full⟩
    · let m := slotFreed r .noSpace b.toNat s1
      have same : m.tc = (slotFreed r .ok b.toNat s1).tc :=
        (endTalks_tc_link _ s1 _).trans (endTalks_tc_link _ s1 _).symm
      have full : ¬room m := fun h => spacious ((rooms .ok).1 ((hasRoom_of same.symm (((endSlot_rest ..).2.2.2.1).trans
        (endSlot_rest b.toNat (answer r .noSpace s1)).2.2.2.1.symm) ..).2 ((rooms .noSpace).2 h)))
      have done : exec (.talkOn tag r.payload) s = .next { relamp m with hlc := m.hlc.begun } := by
        rw [executes, requestOf_inTurn turn read, refuses (mt (rooms .noSpace).1 full), transmit_eq]; rfl
      obtain ⟨rc, stu, tt, tou, fd, pending, pbc⟩ := endSlot_rest b.toNat (answer r .noSpace s1)
      exact ⟨m, _, done, ends _ _ _ (freed .noSpace), talkFrame (s1 := s1) (z := m) rc stu tt tou fd pending pbc m.hlc.begun rfl,
        fun spacious => absurd spacious full, fun _ => ⟨rfl, rfl, (slotFreed_reported settled turn .noSpace b.toNat).1⟩⟩

end Sys2Proof.Machine

/-! The path table of a handling (R102, R105, R110 steps 1 to 3, R120). -/

namespace Sys2Proof.Machine

/-! ### The paths of a handling -/

/-- R101: what tells a path from the others of the table. -/
def Path.key (p : Path) : PathKind × Nat × Nat := (p.kind, p.talker, p.listener)

theorem same_iff (p q : Path) : p.same q = true ↔ p.key = q.key := by
  unfold Path.same Path.key
  simp [and_assoc]

theorem inOrder_perm {α : Type} (before : α → α → Bool) (as : List α) : (inOrder before as).Perm as := by
  induction as with
  | nil => exact .nil
  | cons a as ih =>
    obtain ⟨xs, ys, split, entered, -⟩ := insertOrdered_split before a (inOrder before as)
    show (insertOrdered before a (inOrder before as)).Perm (a :: as)
    rw [entered]
    exact List.perm_middle.trans (.cons a (split ▸ ih))

theorem interrupts_iff (s : State) (t l n : Nat) : s.interrupts t l n = true ↔ s.interruptedBy n t l := by
  unfold State.interrupts State.interruptedBy
  cases h : s.ifb? n with
  | none => simp
  | some i =>
    cases current : i.current with
    | none => simp [current]
    | some c => cases talk : s.talk? c <;> simp [current, talk]

theorem succession_iff (before s : State) (t l : Nat) : before.succession s t l = true ↔
    ∃ n, (1 ≤ n ∧ n ≤ 16) ∧ before.interruptedBy n t l ∧ s.interruptedBy n t l := by
  unfold State.succession
  rw [List.any_eq_true]
  simp only [mem_numbers, within_iff, Bool.and_eq_true, interrupts_iff]

theorem pathStands_iff {before s : State} {old p : Path} (kind : p.kind = .talk) (key : old.key = p.key) :
    before.pathStands s old p.talks = true ↔ Continues before s old p := by
  have keys : old.kind = p.kind ∧ old.talker = p.talker ∧ old.listener = p.listener := by simpa [Path.key] using key
  obtain ⟨same, talker, listener⟩ := keys
  unfold State.pathStands Continues
  rw [Bool.or_eq_true, succession_iff, talker, listener]
  simp [same, kind]

theorem Continues.key {before s : State} {q p : Path} (h : Continues before s q p) : q.key = p.key := by
  obtain ⟨kind, talker, listener, -⟩ := h
  unfold Path.key
  rw [kind, talker, listener]

theorem key_unique {ps : List Path} (apart : ps.Pairwise fun p q => p.same q = false) {p q : Path} (hp : p ∈ ps) (hq : q ∈ ps)
    (key : p.key = q.key) : p = q := by
  have nodup : (ps.map Path.key).Nodup := List.pairwise_map.2 (apart.imp fun {p q} h same => by
    rw [(same_iff p q).2 same] at h; cases h)
  exact List.inj_on_of_nodup_map nodup hp hq key

/-- R110 steps 1 to 3: a path of a handling is new, or one path of the table before goes on in it. -/
inductive Stands (before s : State) (x : Path × Standing) : Prop
  | new (standing : x.2 = .new) (starved : x.1.admission = .starved) (fresh : ∀ q ∈ s.tme.paths, ¬Continues before s q x.1)
  | old (q : Path) (member : q ∈ s.tme.paths) (continues : Continues before s q x.1) (admission : x.1.admission = q.admission)
      (standing : x.2 = if q.isAdmitted = false ∧ q.priority < x.1.priority then .marked else .kept)

theorem find_same {ps : List Path} (p : Path) :
    (ps.find? (fun q => q.same p) = none ∧ ∀ q ∈ ps, q.key ≠ p.key) ∨ ∃ q ∈ ps, ps.find? (fun q => q.same p) = some q ∧ q.key = p.key := by
  cases found : ps.find? fun q => q.same p with
  | none => exact .inl ⟨rfl, fun q hq key => List.find?_eq_none.1 found q hq ((same_iff ..).2 key)⟩
  | some q => exact .inr ⟨q, List.mem_of_find?_eq_some found, rfl, (same_iff ..).1 (List.find?_some (p := fun q : Path => q.same p) found)⟩

/-- R110: the standing of a pair of ports. -/
theorem pairStanding_stands (before : State) {s : State} (apart : s.tme.paths.Pairwise fun p q => p.same q = false) (pair : Nat × Nat) :
    Stands before s (before.pairStanding s pair) := by
  let fresh := s.talkPath pair.1 pair.2 .starved
  have standing : before.pairStanding s pair = match s.tme.paths.find? fun p => p.same fresh with
    | none => (fresh, .new)
    | some old => if before.pathStands s old fresh.talks then ({ fresh with admission := old.admission },
        if !old.isAdmitted && decide (old.priority < fresh.priority) then .marked else .kept) else (fresh, .new) := rfl
  rcases find_same (ps := s.tme.paths) fresh with ⟨found, none⟩ | ⟨old, member, found, key⟩
  · rw [standing, found]
    exact .new rfl rfl fun q hq h => none q hq h.key
  · rw [standing, found]
    dsimp only
    by_cases goes : before.pathStands s old fresh.talks = true
    · rw [if_pos goes]
      refine .old old member ?_ rfl (by simp)
      exact (pathStands_iff rfl key).1 goes
    · rw [if_neg goes]
      refine .new rfl rfl fun q hq h => goes ?_
      obtain rfl := key_unique apart hq member (h.key.trans key.symm)
      exact (pathStands_iff rfl key).2 h

/-- R105: the standing of a PROGRAM path. -/
theorem programStanding_stands (before s : State) (e : Nat × Ifb) : Stands before s (s.programStanding e) := by
  let fresh := programPath e.1 e.2 .starved
  have standing : s.programStanding e = match s.tme.paths.find? fun p => p.same fresh with
    | none => (fresh, .new)
    | some old => (old, .kept) := rfl
  rcases find_same (ps := s.tme.paths) fresh with ⟨found, none⟩ | ⟨old, member, found, key⟩
  · rw [standing, found]
    exact .new rfl rfl fun q hq h => none q hq h.key
  · rw [standing, found]
    have kind : old.kind = .program e.1 := congrArg Prod.fst key
    exact .old old member ⟨rfl, rfl, rfl, fun talk => by rw [kind] at talk; cases talk⟩ rfl (by simp)

/-! ### Which paths a handling holds -/

theorem pairStanding_record (before s : State) (pair : Nat × Nat) :
    (before.pairStanding s pair).1.unplaced = s.talkPath pair.1 pair.2 .starved := by
  unfold State.pairStanding
  dsimp only
  split
  · rfl
  · split <;> rfl

theorem pairStanding_key (before s : State) (pair : Nat × Nat) : (before.pairStanding s pair).1.key = (.talk, pair.1, pair.2) :=
  congrArg Path.key (pairStanding_record before s pair)

theorem programStanding_key (s : State) (e : Nat × Ifb) : (s.programStanding e).1.key = (.program e.1, e.2.program, e.2.output) := by
  unfold State.programStanding
  dsimp only
  rcases find_same (ps := s.tme.paths) (programPath e.1 e.2 .starved) with ⟨found, -⟩ | ⟨old, -, found, key⟩
  · rw [found]; rfl
  · rw [found]; exact key

/-- R110: the paths of a handling, those of the pairs of ports and those of the IFBs. -/
theorem mem_standings_iff (before s : State) (x : Path × Standing) : x ∈ before.standings s ↔
    (∃ pair ∈ s.talkPairs, x = before.pairStanding s pair) ∨ ∃ e ∈ s.tc.ifbs.entries, x = s.programStanding e := by
  unfold State.standings
  rw [(inOrder_perm _ _).mem_iff, List.mem_append, List.mem_map, List.mem_map]
  simp only [eq_comm]

theorem talkPairs_nodup (s : State) : s.talkPairs.Nodup := (withoutRepeats_spec _).2

theorem mem_talkPairs {s : State} {a b : Nat} :
    (a, b) ∈ s.talkPairs ↔ (∃ t ∈ s.tc.talks, t.talker = a ∧ b ∈ t.listeners) ∧ a ≠ b := by
  unfold State.talkPairs
  rw [(withoutRepeats_spec _).1, List.mem_filter, List.mem_flatMap]
  simp only [List.mem_map, Prod.mk.injEq, bne_iff_ne, ne_eq]
  constructor
  · rintro ⟨⟨t, ht, l, hl, rfl, rfl⟩, ne⟩; exact ⟨⟨t, ht, rfl, hl⟩, ne⟩
  · rintro ⟨⟨t, ht, rfl, hl⟩, ne⟩; exact ⟨⟨t, ht, b, hl, rfl, rfl⟩, ne⟩

theorem ascending_nodup {α : Type} {es : List (Nat × α)} (h : ascending es = true) : (es.map Prod.fst).Nodup := by
  induction es with
  | nil => exact .nil
  | cons e es ih =>
    obtain ⟨first, rest⟩ := (ascending_cons e es).1 h
    refine List.nodup_cons.2 ⟨fun he => ?_, ih rest⟩
    obtain ⟨f, hf, same⟩ := List.mem_map.1 he
    have := first f hf
    omega

/-- R101: no two paths of a handling are of one key. -/
theorem standings_keyed (before : State) {s : State} (listed : ascending s.tc.ifbs.entries = true) :
    (((before.standings s).map Prod.fst).map Path.key).Nodup := by
  have perm := ((inOrder_perm (fun x y : Path × Standing => tableBefore x.1 y.1)
    (s.talkPairs.map (before.pairStanding s) ++ s.tc.ifbs.entries.map s.programStanding)).map Prod.fst).map Path.key
  unfold State.standings
  rw [perm.nodup_iff, List.map_append, List.map_append, List.nodup_append]
  simp only [List.map_map]
  refine ⟨?_, ?_, ?_⟩
  · refine (talkPairs_nodup s).map fun p q h => ?_
    have : (PathKind.talk, p.1, p.2) = (PathKind.talk, q.1, q.2) := by
      rw [← pairStanding_key before s p, ← pairStanding_key before s q]; exact h
    simp only [Prod.mk.injEq, true_and] at this
    exact Prod.ext this.1 this.2
  · have firsts := ascending_nodup listed
    refine List.Nodup.of_map (fun k : PathKind × Nat × Nat => match k.1 with | .program n => n | .talk => 0) ?_
    rw [List.map_map]
    refine (List.map_congr_left fun e _ => ?_) ▸ firsts
    simp only [Function.comp]
    rw [programStanding_key]
  · intro x hx y hy
    obtain ⟨p, -, rfl⟩ := List.mem_map.1 hx
    obtain ⟨e, -, rfl⟩ := List.mem_map.1 hy
    simp only [Function.comp]
    rw [pairStanding_key, programStanding_key]
    simp

theorem unplaced_of_handling (b s : State) {p : Path} (hp : p ∈ (handling b s).tme.paths) :
    ∃ x ∈ b.standings s, x.1.unplaced = p.unplaced := by
  have : p.unplaced ∈ (b.standings s).map fun x => x.1.unplaced := handling_unplaced b s ▸ List.mem_map_of_mem hp
  exact List.mem_map.1 this

theorem handling_of_unplaced (b s : State) {x : Path × Standing} (hx : x ∈ b.standings s) :
    ∃ p ∈ (handling b s).tme.paths, p.unplaced = x.1.unplaced := by
  have : x.1.unplaced ∈ (handling b s).tme.paths.map Path.unplaced := handling_unplaced b s ▸ List.mem_map_of_mem hx
  exact List.mem_map.1 this

end Sys2Proof.Machine

/-! One handling of the Talk Mix Engine (R102, R105 to R110, R112, R117, R120). -/

namespace Sys2Proof.Machine

/-! ### The passes of a handling -/

/-- R109: the candidates of the re-admission pass of a handling. -/
def State.waiting (s : State) (now : List (Path × Standing)) : List Path :=
  inOrder (candidateBefore s) ((now.filter fun x => x.2 == .kept && !x.1.isAdmitted).map Prod.fst)

/-- R107, R108: the paths that a handling offers. -/
def State.offered (s : State) (now : List (Path × Standing)) : List Path :=
  inOrder (candidateBefore s) ((now.filter fun x => x.2 != .kept).map Prod.fst)

theorem mem_waiting {s : State} {now : List (Path × Standing)} {p : Path} :
    p ∈ s.waiting now ↔ (p, .kept) ∈ now ∧ p.isAdmitted = false := by
  unfold State.waiting
  rw [(inOrder_perm _ _).mem_iff]
  simp only [List.mem_map, List.mem_filter, Bool.and_eq_true, beq_iff_eq, Bool.not_eq_true']
  constructor
  · rintro ⟨⟨q, st⟩, ⟨hx, rfl, starved⟩, rfl⟩; exact ⟨hx, starved⟩
  · rintro ⟨hx, starved⟩; exact ⟨_, ⟨hx, rfl, starved⟩, rfl⟩

theorem mem_offered {s : State} {now : List (Path × Standing)} {p : Path} :
    p ∈ s.offered now ↔ ∃ st, st ≠ .kept ∧ (p, st) ∈ now := by
  unfold State.offered
  rw [(inOrder_perm _ _).mem_iff]
  simp only [List.mem_map, List.mem_filter, bne_iff_ne]
  constructor
  · rintro ⟨⟨q, st⟩, ⟨hx, ne⟩, rfl⟩; exact ⟨st, ne, hx⟩
  · rintro ⟨st, ne, hx⟩; exact ⟨_, ⟨hx, ne⟩, rfl⟩

theorem Stands.kept_iff {before s : State} (apart : s.tme.paths.Pairwise fun p q => p.same q = false) {x : Path × Standing}
    (h : Stands before s x) (starved : x.1.admission = .starved) :
    x.2 = .kept ↔ ∃ q ∈ s.tme.paths, Continues before s q x.1 ∧ x.1.priority ≤ q.priority := by
  cases h with
  | new standing _ fresh =>
    rw [standing]
    exact ⟨nofun, fun ⟨q, hq, goes, _⟩ => absurd goes (fresh q hq)⟩
  | old q member continues admission standing =>
    have waits : q.isAdmitted = false := by rw [isAdmitted_iff, ← admission, starved]; rfl
    rw [standing]
    by_cases rose : q.priority < x.1.priority
    · rw [if_pos ⟨waits, rose⟩]
      refine ⟨nofun, fun ⟨r, hr, goes, le⟩ => ?_⟩
      obtain rfl := key_unique apart member hr (continues.key.trans goes.key.symm)
      omega
    · rw [if_neg fun h => rose h.2]
      exact ⟨fun _ => ⟨q, member, continues, Nat.not_lt.1 rose⟩, fun _ => rfl⟩

theorem Stands.offered_iff {before s : State} (apart : s.tme.paths.Pairwise fun p q => p.same q = false) {x : Path × Standing}
    (h : Stands before s x) : x.2 ≠ .kept ↔
      x.1.admission = .starved ∧ ∀ q ∈ s.tme.paths, Continues before s q x.1 → q.priority < x.1.priority := by
  by_cases starved : x.1.admission = .starved
  · rw [ne_eq, h.kept_iff apart starved]
    simp [starved]
  · cases h with
    | new _ waits => exact absurd waits starved
    | old q _ _ admission standing =>
      have stands : ¬q.isAdmitted = false := by rw [isAdmitted_iff, ← admission]; simpa using starved
      rw [standing, if_neg fun h => stands h.1]
      simp [starved]

/-- R110 step 1: a place was given back. -/
theorem placeFreed_iff {before s : State} (apart : s.tme.paths.Pairwise fun p q => p.same q = false) {now : List (Path × Standing)}
    (stands : ∀ x ∈ now, Stands before s x) :
    placeFreed s.tme.paths now = true ↔ GivesBack before s (now.map Prod.fst) := by
  have goesOn : ∀ q ∈ s.tme.paths, (∃ x ∈ now, x.2 ≠ .new ∧ x.1.same q = true) ↔ ∃ p ∈ now.map Prod.fst, Continues before s q p := by
    intro q hq
    constructor
    · rintro ⟨x, hx, standing, same⟩
      refine ⟨x.1, List.mem_map_of_mem hx, ?_⟩
      cases stands x hx with
      | new new => exact absurd new standing
      | old r member continues =>
        obtain rfl := key_unique apart member hq (continues.key.trans ((same_iff ..).1 same))
        exact continues
    · rintro ⟨p, hp, continues⟩
      obtain ⟨x, hx, rfl⟩ := List.mem_map.1 hp
      refine ⟨x, hx, ?_, (same_iff ..).2 continues.key.symm⟩
      cases stands x hx with
      | new _ _ fresh => exact absurd continues (fresh q hq)
      | old r _ _ _ standing => rw [standing]; split <;> exact nofun
  unfold placeFreed GivesBack
  rw [List.any_eq_true]
  refine exists_congr fun q => and_congr_right fun hq => ?_
  rw [Bool.and_eq_true, Bool.not_eq_true', ← Bool.not_eq_true, List.any_eq_true]
  refine and_congr_right fun _ => ?_
  have := not_congr (goesOn q hq)
  simpa using this

theorem standings_stand {before s : State} (apart : s.tme.paths.Pairwise fun p q => p.same q = false) :
    ∀ x ∈ before.standings s, Stands before s x := fun x hx => by
  rcases (mem_standings_iff before s x).1 hx with ⟨pair, -, rfl⟩ | ⟨e, -, rfl⟩
  · exact pairStanding_stands before apart pair
  · exact programStanding_stands before s e

theorem candidates_nodup {now : List (Path × Standing)} (keyed : ((now.map Prod.fst).map Path.key).Nodup) (f : Path × Standing → Bool)
    (s : State) : (inOrder (candidateBefore s) ((now.filter f).map Prod.fst)).Nodup :=
  (inOrder_spec _ _).2 ((List.Nodup.of_map _ keyed).sublist (List.filter_sublist.map _))

/-- R120: the coefficient of a path reads the talks, the ports and the IFBs. -/
theorem withCoefficient_congr {s t : State} (talks : t.tc.talks.map Talk.talker = s.tc.talks.map Talk.talker)
    (ports : t.tc.ports = s.tc.ports) (ifbs : t.tc.ifbs = s.tc.ifbs) : t.withCoefficient = s.withCoefficient := by
  have dimmed : t.dimmed = s.dimmed := by
    funext q
    have : ∀ u : State, u.dimmed q = (u.tc.talks.map Talk.talker).any fun a => a == q := fun u => by
      unfold State.dimmed; rw [List.any_map]; rfl
    rw [this, this, talks]
  funext ps p
  unfold State.withCoefficient talkCoefficient programCoefficient State.dimTerm State.port State.ifb?
  rw [dimmed, ports, ifbs]

theorem handling_paths (b s : State) :
    (handling b s).tme.paths = (admissions s (b.standings s)).paths.map (s.withCoefficient (admissions s (b.standings s)).paths) := by
  simp only [handling, evaluateStarved, recompute, handOver_tme]
  exact List.map_congr_left fun p _ => congrFun (congrFun (withCoefficient_congr (s := s) rfl rfl rfl) _) p

theorem handling_counter (b s : State) : (handling b s).tme.counter = (admissions s (b.standings s)).counter := by
  simp only [handling, evaluateStarved, recompute, handOver_tme]

theorem handling_starved (b s : State) :
    (handling b s).tme.pathStarved = (handling b s).tme.paths.any fun p => !p.isAdmitted := by
  simp only [handling, evaluateStarved, recompute, handOver_tme]

theorem withCoefficient_placed (s : State) (ps : List Path) (p : Path) : (s.withCoefficient ps p).placed = p.placed := by
  unfold State.withCoefficient
  split
  · rfl
  · next h => simp [Path.placed, h]

/-- R106 to R110, R117: the admissions of a handling. -/
theorem handling_admitted (before : State) {s : State} (apart : s.tme.paths.Pairwise fun p q => p.same q = false)
    (listed : ascending s.tc.ifbs.entries = true) : Admitted before s (handling before s).tme := by
  let now := before.standings s
  let start : Admissions := ⟨now.map Prod.fst, s.tme.counter⟩
  let passed := if placeFreed s.tme.paths now then (s.waiting now).foldl readmit start else start
  have stands : ∀ x ∈ now, Stands before s x := standings_stand apart
  have keyed := standings_keyed before listed
  refine ⟨now.map Prod.fst, s.waiting now, s.offered now, passed, (s.offered now).foldl offer passed, ?_, ?_, ?_, ?_, ?_, rfl, ?_,
    handling_counter ..⟩
  · intro p hp
    obtain ⟨x, hx, rfl⟩ := List.mem_map.1 hp
    cases stands x hx with
    | new _ starved fresh => exact .inr ⟨fresh, starved⟩
    | old q member continues admission => exact .inl ⟨q, member, continues, admission⟩
  · refine ⟨fun p => ?_, candidates_nodup keyed .., pairwise_inOrder ..⟩
    rw [mem_waiting]
    constructor
    · rintro ⟨member, waits⟩
      have starved : p.admission = .starved := by simpa [isAdmitted_iff] using waits
      exact ⟨List.mem_map_of_mem member, starved, ((stands _ member).kept_iff apart starved).1 rfl⟩
    · rintro ⟨member, starved, goes⟩
      obtain ⟨⟨q, standing⟩, hx, rfl⟩ := List.mem_map.1 member
      obtain rfl := ((stands _ hx).kept_iff apart starved).2 goes
      exact ⟨hx, by rw [isAdmitted_iff, starved]; rfl⟩
  · refine ⟨fun p => ?_, candidates_nodup keyed .., pairwise_inOrder ..⟩
    rw [mem_offered]
    constructor
    · rintro ⟨standing, ne, member⟩
      exact ⟨List.mem_map_of_mem member, ((stands _ member).offered_iff apart).1 ne⟩
    · rintro ⟨member, goes⟩
      obtain ⟨⟨q, standing⟩, hx, rfl⟩ := List.mem_map.1 member
      exact ⟨standing, ((stands _ hx).offered_iff apart).2 goes, hx⟩
  · exact fun frees => if_pos ((placeFreed_iff apart stands).2 frees)
  · exact fun frees => if_neg (mt (placeFreed_iff apart stands).1 frees)
  · rw [handling_paths, List.map_map]
    exact List.map_congr_left fun p _ => withCoefficient_placed ..

end Sys2Proof.Machine

/-! Admission (R106, R107), and how the path table follows the talks. -/

namespace Sys2Proof.Machine

/-! ### One candidate -/

theorem fits_iff (a : Admissions) (l : Nat) : fits a.paths l = true ↔ Fits a l := by
  unfold fits Fits
  rw [Bool.and_eq_true, decide_eq_true_eq, decide_eq_true_eq]
  rfl

theorem enterPath_entered (p : Path) (a : Admissions) : Entered p a (enterPath p a) := by
  refine ⟨fun below => ?_, fun last => ?_⟩
  · have enters : enterPath p a = ⟨changePath a.paths p (.admitted a.counter .off), a.counter + 1⟩ := if_pos below
    rw [enters]
    exact ⟨rfl, rfl⟩
  · intro entered talks
    have enters : enterPath p a = ⟨renumberPaths entered, count (fun q => q.isTalk && q.isAdmitted) entered + 1⟩ :=
      if_neg (Nat.not_lt.2 last)
    rw [enters]
    refine ⟨rfl, List.map_congr_left fun q _ => ?_⟩
    cases admission : q.admission with
    | starved => rfl
    | admitted n c => simp only [talks, count, List.filter_filter, Bool.and_comm, Bool.and_assoc]

theorem firstBy_isSome {α : Type} {before : α → α → Bool} {as : List α} {a : α} (h : a ∈ as) :
    ∃ b, firstBy before as = some b := by
  cases as with
  | nil => cases h
  | cons c as =>
    unfold firstBy
    split
    · exact ⟨_, rfl⟩
    · split <;> exact ⟨_, rfl⟩

/-- The first of a list by an order: it is of the list, and none of the list stands before it. -/
theorem firstBy_spec {α : Type} {before : α → α → Bool} (asymm : ∀ a b, before a b = true → before b a = false)
    (trans : ∀ a b c, before a b = false → before b c = false → before a c = false) {as : List α} {a : α}
    (h : firstBy before as = some a) : a ∈ as ∧ ∀ b ∈ as, before b a = false := by
  have irrefl : ∀ a, before a a = false := fun a => by
    by_contra h
    rw [Bool.not_eq_false] at h
    rw [asymm a a h] at h; cases h
  induction as generalizing a with
  | nil => cases h
  | cons c as ih =>
    unfold firstBy at h
    cases rest : firstBy before as with
    | none =>
      rw [rest] at h
      obtain rfl := Option.some.inj h
      refine ⟨.head _, fun b hb => (List.mem_cons.1 hb).elim (fun e => e ▸ irrefl _) fun hb => ?_⟩
      obtain ⟨d, found⟩ := firstBy_isSome (before := before) hb
      rw [rest] at found; cases found
    | some b =>
      rw [rest] at h
      obtain ⟨member, least⟩ := ih rest
      dsimp only at h
      split at h
      · next first =>
        obtain rfl := Option.some.inj h
        exact ⟨.tail _ member, fun d hd => (List.mem_cons.1 hd).elim (fun e => e ▸ asymm _ _ first) (least d)⟩
      · next first =>
        obtain rfl := Option.some.inj h
        exact ⟨.head _, fun d hd => (List.mem_cons.1 hd).elim (fun e => e ▸ irrefl _) fun hd =>
          trans _ _ _ (least d hd) (Bool.eq_false_of_not_eq_true first)⟩

theorem mayYield_iff {a : Admissions} {l : Nat} {v : Path} : v ∈ victimCandidates a.paths l ↔ MayYield a l v := by
  unfold victimCandidates MayYield Path.isTalk
  rw [List.mem_filter, show Config.listenerCap = 12 from rfl]
  simp only [Bool.and_eq_true, Bool.or_eq_true, decide_eq_true_eq, beq_iff_eq, imp_iff_not_or, Nat.not_le]
  tauto

/-- R107: the victim that an offer finds. -/
theorem victimOf_victim {a : Admissions} {l : Nat} {v : Path} (h : victimOf (victimCandidates a.paths l) = some v) : Victim a l v := by
  obtain ⟨member, least⟩ := firstBy_spec (fun p q => by simp; omega) (fun p q r => by simp; omega) h
  refine ⟨mayYield_iff.1 member, fun w hw => ?_⟩
  have := least w (mayYield_iff.2 hw)
  simp at this
  omega

theorem victimOf_isSome {a : Admissions} {l : Nat} {v : Path} (h : MayYield a l v) :
    ∃ w, victimOf (victimCandidates a.paths l) = some w := firstBy_isSome (mayYield_iff.2 h)

/-- R107: admission numbers of TALK paths that are distinct leave one victim. -/
theorem victim_unique {a : Admissions} {l : Nat} (numbered : ∀ v ∈ a.paths, ∀ w ∈ a.paths, v.kind = .talk → w.kind = .talk →
    v.isAdmitted = true → w.isAdmitted = true → v.number = w.number → v = w) {v w : Path} (hv : Victim a l v) (hw : Victim a l w) :
    v = w := by
  obtain ⟨⟨mv, kv, av, -⟩, first⟩ := id hv
  obtain ⟨⟨mw, kw, aw, -⟩, second⟩ := id hw
  have := first w hw.1
  have := second v hv.1
  exact numbered v mv w mw kv kw av aw (by omega)

theorem offer_offered {a : Admissions} (numbered : ∀ v ∈ a.paths, ∀ w ∈ a.paths, v.kind = .talk → w.kind = .talk →
    v.isAdmitted = true → w.isAdmitted = true → v.number = w.number → v = w) (p : Path) : Offered p a (offer a p) := by
  have offers : offer a p = if fits a.paths p.listener then enterPath p a
      else match victimOf (victimCandidates a.paths p.listener) with
        | some v => if v.priority < p.priority then enterPath p ⟨changePath a.paths v .starved, a.counter⟩ else a
        | none => a := rfl
  refine ⟨fun fit => ?_, fun full v victim lower => ?_, fun full higher => ?_⟩
  · rw [offers, if_pos ((fits_iff ..).2 fit)]
    exact enterPath_entered p a
  · obtain ⟨w, found⟩ := victimOf_isSome victim.1
    obtain rfl := victim_unique numbered victim (victimOf_victim found)
    rw [offers, if_neg (mt (fits_iff ..).1 full), found]
    dsimp only
    rw [if_pos lower]
    exact enterPath_entered p _
  · rw [offers, if_neg (mt (fits_iff ..).1 full)]
    cases found : victimOf (victimCandidates a.paths p.listener) with
    | none => rfl
    | some v => exact if_neg (Nat.not_lt.2 (higher v (victimOf_victim found)))

/-! ### The words -/

theorem pathWords : PathWords where
  admitted p := by rw [isAdmitted_iff]; simp
  kind p := by simp [Path.isTalk]
  number p n c h := by simp [Path.number, h]
  same p q := by simp [Path.same, and_assoc]
  into paths l := by simp only [admittedInto, talkCountInto, count, isAdmitted_iff, Path.isTalk]; trivial
  all paths := by simp only [admittedCount, count, funext isAdmitted_iff]
  order := tableBefore_iff
  talks s ids := rfl
  level := highestLevel_spec
  priority := highestPriority_spec

/-! ### The path table after a handling -/

theorem mem_handling_iff (before s : State) (k : PathKind × Nat × Nat) :
    (∃ p ∈ (handling before s).tme.paths, p.key = k) ↔
      (∃ pair ∈ s.talkPairs, (.talk, pair.1, pair.2) = k) ∨ ∃ e ∈ s.tc.ifbs.entries, (.program e.1, e.2.program, e.2.output) = k := by
  have keys : (∃ p ∈ (handling before s).tme.paths, p.key = k) ↔ ∃ x ∈ before.standings s, x.1.key = k := by
    constructor
    · rintro ⟨p, hp, rfl⟩
      obtain ⟨x, hx, same⟩ := unplaced_of_handling before s hp
      exact ⟨x, hx, (congrArg Path.key same :)⟩
    · rintro ⟨x, hx, rfl⟩
      obtain ⟨p, hp, same⟩ := handling_of_unplaced before s hx
      exact ⟨p, hp, (congrArg Path.key same :)⟩
  rw [keys]
  simp only [mem_standings_iff, or_and_right, exists_or]
  refine or_congr ⟨?_, ?_⟩ ⟨?_, ?_⟩
  · rintro ⟨x, ⟨pair, member, rfl⟩, key⟩; exact ⟨pair, member, (pairStanding_key ..).symm.trans key⟩
  · rintro ⟨pair, member, key⟩; exact ⟨_, ⟨pair, member, rfl⟩, (pairStanding_key ..).trans key⟩
  · rintro ⟨x, ⟨e, member, rfl⟩, key⟩; exact ⟨e, member, (programStanding_key ..).symm.trans key⟩
  · rintro ⟨e, member, key⟩; exact ⟨_, ⟨e, member, rfl⟩, (programStanding_key ..).trans key⟩

/-- R102: a TALK path of a handling holds what its talks give it. -/
theorem handling_talkPath {before s : State} {p : Path} (hp : p ∈ (handling before s).tme.paths) (kind : p.kind = .talk) :
    p.unplaced = s.talkPath p.talker p.listener .starved ∧ (p.talker, p.listener) ∈ s.talkPairs := by
  obtain ⟨x, hx, same⟩ := unplaced_of_handling before s hp
  have key : x.1.key = p.key := (congrArg Path.key same :)
  rcases (mem_standings_iff before s x).1 hx with ⟨pair, member, rfl⟩ | ⟨e, -, rfl⟩
  · rw [pairStanding_key] at key
    obtain rfl : pair = (p.talker, p.listener) := congrArg Prod.snd key
    exact ⟨same.symm.trans (pairStanding_record before s _), member⟩
  · rw [programStanding_key, Path.key, kind] at key
    simp at key

/-- R120: the coefficient of an admitted path of a handling, over the table that it leaves. -/
theorem handling_coefficient {before s : State} {p : Path} (hp : p ∈ (handling before s).tme.paths) {number : Nat} {c : Coefficient}
    (admitted : p.admission = .admitted number c) :
    (p.kind = .talk → c = talkCoefficient s (talkCountInto (handling before s).tme.paths p.listener) p.talker p.listener p.level) ∧
      ∀ n i, p.kind = .program n → s.ifb? n = some i → c = programCoefficient s i := by
  rw [handling_paths] at hp ⊢
  generalize (admissions s (before.standings s)).paths = ps at hp ⊢
  have seen : ∀ l, talkCountInto (ps.map (s.withCoefficient ps)) l = talkCountInto ps l := fun l => by
    unfold talkCountInto count
    rw [List.filter_map, List.length_map]
    refine congrArg List.length (List.filter_congr fun q _ => ?_)
    unfold State.withCoefficient
    cases h : q.admission <;> simp [Path.isAdmitted, Path.isTalk, h]
  obtain ⟨q, -, rfl⟩ := List.mem_map.1 hp
  rw [seen]
  unfold State.withCoefficient at admitted ⊢
  cases place : q.admission with
  | starved => rw [place] at admitted; exact absurd (place.symm.trans admitted) nofun
  | admitted m d =>
    rw [place] at admitted
    dsimp only at admitted ⊢
    obtain ⟨-, rfl⟩ := Admission.admitted.inj admitted
    exact ⟨fun kind => by rw [kind], fun n i kind configured => by rw [kind]; dsimp only; rw [configured]⟩

/-- Settles O38: the table by its standings, its admissions by `handling_admitted`, one candidate by `offer_offered`. -/
theorem pathsFollowTalks : Obligations.PathsFollowTalks := by
  refine ⟨pathWords, fun before s => ?_, fun a p => ⟨fun fit => ?_, fun full => if_neg (mt (fits_iff ..).1 full), fun numbered =>
    offer_offered numbered p⟩⟩
  · intro t
    have talkPath : ∀ p ∈ t.tme.paths, p.kind = .talk → p.talks = s.contributors p.talker p.listener ∧
        p.level = highestLevel (s.talksOf p.talks) ∧ p.priority = highestPriority (s.talksOf p.talks) := fun p hp kind => by
      obtain ⟨record, -⟩ := handling_talkPath hp kind
      have talks : p.talks = s.contributors p.talker p.listener := (congrArg Path.talks record :)
      rw [talks]
      exact ⟨rfl, (congrArg Path.level record :), (congrArg Path.priority record :)⟩
    refine ⟨fun a b => ?_, talkPath, fun distinct p hp kind => ?_, handling_listed before s, fun n a b => ?_,
      fun p hp number c => handling_coefficient hp, ?_, fun apart listed => handling_admitted before apart listed, handling_eq before s⟩
    · have member := mem_handling_iff before s (.talk, a, b)
      simp only [Path.key, Prod.mk.injEq] at member
      refine member.trans ⟨?_, fun h => .inl ⟨(a, b), mem_talkPairs.2 h.symm, by simp⟩⟩
      rintro (⟨pair, joined, -, rfl, rfl⟩ | ⟨e, -, kind, -⟩)
      · exact (mem_talkPairs.1 joined).symm
      · cases kind
    · intro joins
      obtain ⟨talks, level, priority⟩ := talkPath p hp kind
      obtain ⟨⟨x, hx, talker, listener⟩, -⟩ := mem_talkPairs.1 (handling_talkPath hp kind).2
      have named : ∀ y, y ∈ s.talksOf p.talks ↔ joins y := fun y => by
        rw [talks, State.contributors, talksOf_contributors distinct, List.mem_filter]
        simp [joins]
      have some : s.talksOf p.talks ≠ [] := List.ne_nil_of_mem ((named x).2 ⟨hx, talker, listener⟩)
      obtain ⟨⟨y, hy, high⟩, below⟩ := highestLevel_spec _ some
      obtain ⟨⟨z, hz, first⟩, behind⟩ := highestPriority_spec _ some
      rw [← level] at high below
      rw [← priority] at first behind
      exact ⟨⟨y, (named y).1 hy, high⟩, ⟨z, (named z).1 hz, first⟩, fun x hx => ⟨below x ((named x).2 hx), behind x ((named x).2 hx)⟩⟩
    · have member := mem_handling_iff before s (.program n, a, b)
      simp only [Path.key, Prod.mk.injEq] at member
      refine member.trans ⟨?_, fun ⟨i, configured, program, output⟩ => .inr ⟨(n, i), configured, rfl, program, output⟩⟩
      rintro (⟨pair, -, kind, -⟩ | ⟨e, configured, kind, program, output⟩)
      · cases kind
      · obtain rfl := PathKind.program.inj kind
        exact ⟨e.2, configured, program, output⟩
    · rw [handling_starved, List.any_eq_true]
      simp [isAdmitted_iff]
      rfl
  · rw [readmit, if_pos ((fits_iff ..).2 fit)]
    exact enterPath_entered p a

end Sys2Proof.Machine

/-! SET_PANEL, and what the loss and the removal of a panel leave (R9, R49, R72, R95, R134, R135, R152). -/

namespace Sys2Proof.Machine

/-! ### What the loss and the removal of a panel have in common -/

/-- R49: one mixer marked stale when its source is the bridge of panel p. -/
def staleIfBridgeOf (p : Nat) (s : State) (m : Nat) : State :=
  if (s.mixer m).source = .bridge p then s.setMixer m (s.mixer m).allStale else s

theorem mixer_staleIfBridgeOf (p : Nat) (s : State) (m k : Nat) : (staleIfBridgeOf p s m).mixer k =
    if k = m ∧ (s.mixer k).source = .bridge p then (s.mixer k).allStale else s.mixer k := by
  unfold staleIfBridgeOf
  by_cases bridge : (s.mixer m).source = .bridge p
  · rw [if_pos bridge]
    by_cases hk : k = m
    · subst hk; rw [State.mixer_setMixer_self, if_pos ⟨rfl, bridge⟩]
    · rw [State.mixer_setMixer_ne _ hk, if_neg fun h => hk h.1]
  · rw [if_neg bridge, if_neg (fun h : k = m ∧ _ => bridge (h.1 ▸ h.2))]

theorem mixer_staleBridge (p : Nat) (s : State) (m : Nat) : (staleBridge p s).mixer m =
    if (1 ≤ m ∧ m ≤ 2) ∧ (s.mixer m).source = .bridge p then (s.mixer m).allStale else s.mixer m := by
  have steps : staleBridge p s = staleIfBridgeOf p (staleIfBridgeOf p s 1) 2 := rfl
  rw [steps, mixer_staleIfBridgeOf, mixer_staleIfBridgeOf]
  by_cases first : m = 1
  · subst first; simp
  · by_cases second : m = 2
    · subst second; simp
    · rw [if_neg fun h => second h.1, if_neg fun h => first h.1, if_neg fun h => by omega]

theorem tt_staleBridge (p : Nat) (s : State) : (staleBridge p s).tt = { s.tt with mixers := (staleBridge p s).tt.mixers } := by
  have steps : staleBridge p s = staleIfBridgeOf p (staleIfBridgeOf p s 1) 2 := rfl
  have kept : ∀ x m, (staleIfBridgeOf p x m).tt = { x.tt with mixers := (staleIfBridgeOf p x m).tt.mixers } := fun x m => by
    unfold staleIfBridgeOf; split <;> rfl
  rw [steps, kept, kept]

theorem dropPanelCalls_tou (p : Nat) (s : State) : (dropPanelCalls p s).tou = { s.tou with
    holders := s.tou.holders.filter (fun h => h.panel != p), outputs := (dropPanelCalls p s).tou.outputs } ∧
    SameOutputs s (dropPanelCalls p s) := by
  unfold dropPanelCalls
  split
  · exact setHolders_tou _ s
  · next none =>
    have all : s.tou.holders.filter (fun h => h.panel != p) = s.tou.holders :=
      List.filter_eq_self.2 fun h hh => by
        by_contra same
        exact none (List.any_eq_true.2 ⟨h, hh, by simpa using same⟩)
    rw [all]
    exact ⟨rfl, fun n => ⟨rfl, rfl⟩⟩

/-- R49, R72, R95: the talks, the calls and the buses of panel p go. -/
def dropPanel (p : Nat) (s : State) : State := staleBridge p (dropPanelCalls p (dropPanelTalks p s))

theorem dropPanel_tc (p : Nat) (s : State) : (dropPanel p s).tc =
    { (endTalks (s.talkIds (Talk.ofPanel p)) s).tc with keys := s.tc.keys.erase p } := by
  unfold dropPanel
  rw [staleBridge_tc, dropPanelCalls_tc]
  unfold dropPanelTalks idleKeys
  dsimp only
  rw [endTalks_tc_eq]

theorem key_dropPanel (p : Nat) (s : State) (q k : Nat) :
    (dropPanel p s).key q k = if q = p then ⟨.idle, none, none, false⟩ else s.key q k := by
  unfold State.key
  rw [dropPanel_tc]
  unfold Table.get
  dsimp only
  by_cases same : q = p
  · subst same; rw [Table.find?_erase_self, if_pos rfl]; rfl
  · rw [Table.find?_erase_ne _ same, if_neg same]

theorem dropPanel_rest (p : Nat) (s : State) : (dropPanel p s).rc = s.rc ∧ (dropPanel p s).stu = s.stu ∧ (dropPanel p s).pbc = s.pbc ∧
    (dropPanel p s).fd = s.fd ∧ (dropPanel p s).pending = s.pending := by
  unfold dropPanel; simp

theorem dropPanel_mixed (p : Nat) (s : State) : MixHandled s (dropPanel p s) :=
  (endTalks_mixed (s.talkIds (Talk.ofPanel p)) s).of_same (by rw [dropPanel_tc]) (by rw [dropPanel_tc]) (by rw [dropPanel_tc])
    (by unfold dropPanel; simp [dropPanelTalks])

/-- R49, R72, R95, R151, R178: what the loss and the removal of panel p have in common, when its context has been emptied. -/
theorem dropPanel_dropped {p : Nat} {s x t : State} (distinct : (s.tc.talks.map fun y => y.id).Nodup) (tc : x.tc = s.tc)
    (tt : x.tt = s.tt) (tou : x.tou = s.tou) (stu : x.stu = s.stu) (pending : x.pending = s.pending)
    (context : ∀ q, x.context q = if q = p then ⟨none, none⟩ else s.context q)
    (ht : t = { dropPanel p x with hlc := t.hlc, pbc := t.pbc }) : PanelDropped p s t := by
  have ids : x.talkIds (Talk.ofPanel p) = (s.tc.talks.filter fun y => y.ofPanel p).map fun y => y.id := by
    rw [State.talkIds, tc]
  have calls := dropPanelCalls_tou p (dropPanelTalks p x)
  have before : (dropPanelTalks p x).tou = s.tou := (dropPanelTalks_tou p x).trans tou
  obtain ⟨holders, outputs⟩ := calls
  rw [before] at holders
  have same : t.tc = (dropPanel p x).tc := by rw [ht]
  have after : t.tou = (dropPanel p x).tou := by rw [ht]
  have tables : t.tt = (dropPanel p x).tt := by rw [ht]
  have called : (dropPanel p x).tou = (dropPanelCalls p (dropPanelTalks p x)).tou := staleBridge_tou ..
  refine ⟨⟨by rw [after, called]; exact holders, fun n => ?_⟩, ?_, ?_, ?_, fun q k => ?_, ⟨?_, fun m => ?_⟩, fun q => ?_, ?_⟩
  · have := outputs n
    rw [State.output, State.output, before] at this
    rw [State.output, after, called]
    exact this
  · rw [same, dropPanel_tc]
    have left := endTalks_ofAnyPanel (s := x) (by rw [tc]; exact distinct) (Talk.ofPanel p)
    rw [tc] at left
    exact left
  · rw [same, dropPanel_tc, endTalks_tc_eq, tc]
  · rw [← ids]
    exact (ifbsLeft_endTalks (x.talkIds (Talk.ofPanel p)) x).congr (by rw [tc]) (by rw [tc]) (by rw [same, dropPanel_tc])
      (by rw [same, dropPanel_tc])
  · rw [State.key, same, ← State.key, key_dropPanel, State.key, State.key, tc]
  · rw [tables, dropPanel, tt_staleBridge, dropPanelCalls_tt, dropPanelTalks_tt, tt]
  · have mixers : (dropPanelCalls p (dropPanelTalks p x)).mixer m = s.mixer m := by
      rw [State.mixer, dropPanelCalls_tt, dropPanelTalks_tt, tt]; rfl
    rw [State.mixer, tables, ← State.mixer, dropPanel, mixer_staleBridge, mixers]
  · rw [← context, State.context, ht]
    show (dropPanel p x).context q = _
    rw [State.context, (dropPanel_rest p x).2.2.2.1]; rfl
  · obtain ⟨-, stu', -, -, pending'⟩ := dropPanel_rest p x
    rw [ht]
    exact ⟨stu'.trans stu, pending'.trans pending⟩

end Sys2Proof.Machine

/-! SET_PANEL (R9, R134, R135, R152). -/

namespace Sys2Proof.Machine

/-- R176, R186: a request in its turn that is answered and whose writes the lamps follow. -/
theorem relamped_inTurn {α : Type} {c : Instr} {kind tag : Byte} {payload : List Byte} {decode : List Byte → Option α}
    {body : Request → α → State → State} {a : α} {code : ReplyCode} {s s1 z : State}
    (executes : exec c s = .next (requestOf kind tag payload decode body s)) (settled : Settled s)
    (turn : InTurn ⟨kind, tag, payload⟩ s s1) (read : decode payload = some a)
    (writes : body ⟨kind, tag, payload⟩ a s1 = relamp z) (link : z.hlc = s1.hlc.replied ⟨kind, tag, payload⟩ code []) :
    ∃ t, exec c s = .next t ∧ LampsFollow { z with hlc := s1.hlc.answered ⟨kind, tag, payload⟩ code [] } t :=
  ⟨_, written_inTurn executes settled turn read writes link, relamp_follows { z with hlc := s1.hlc.answered _ code [] }⟩

/-! ### Declaring (R134) -/

theorem panelKindOf_byte (k : PanelKind) : panelKindOf (panelKindByte k) = some k := by cases k <;> rfl

theorem panelKindOf_large {b : Byte} (h : 1 < b.toNat) : panelKindOf b = none := by
  unfold panelKindOf
  rw [if_neg fun e => by rw [e] at h; exact absurd h (by decide), if_neg fun e => by rw [e] at h; exact absurd h (by decide)]

theorem panel_inRange_iff (kind : PanelKind) (l q : Byte) (dom : Domain) :
    PanelArgs.inRange ⟨kind, l.toNat, dom, optionalOf q⟩ = true ↔ l.toNat ≤ 3 ∧ q.toNat ≤ 64 := by
  unfold PanelArgs.inRange
  rw [Bool.and_eq_true, within_iff]
  refine and_congr (by simp) ?_
  by_cases none : q = 0
  · subst none; exact ⟨fun _ => Nat.zero_le _, fun _ => rfl⟩
  · have positive : 1 ≤ q.toNat := Nat.one_le_iff_ne_zero.2 fun h => none (BitVec.eq_of_toNat_eq h)
    have port : optionalOf q = some q.toNat := if_neg none
    dsimp only
    rw [port, within_iff]
    exact and_iff_right positive

theorem outOfService_iff (x : PanelState) : x.outOfService = true ↔ x = .absent ∨ x = .lost := by cases x <;> simp [PanelState.outOfService]

theorem context_setContext (s : State) (p q : Nat) (v : Context) : (s.setContext p v).context q = if q = p then v else s.context q := by
  by_cases h : q = p
  · subst h; rw [State.context_setContext_self, if_pos rfl]
  · rw [State.context_setContext_ne _ h, if_neg h]

theorem InTurn.panel?_eq {r : Request} {s s1 : State} (turn : InTurn r s s1) (p : Nat) : s1.panel? p = s.panel? p := by
  rw [State.panel?, turn.pbc_eq]; rfl

theorem InTurn.context_eq {r : Request} {s s1 : State} (turn : InTurn r s s1) (p : Nat) : s1.context p = s.context p := by
  rw [State.context, turn.fd_eq]; rfl

/-! ### Removing (R135) -/

/-- R135: the state from which the talks, the calls and the buses of a removed panel go. -/
def unlisted (p : Nat) (s : State) : State :=
  let discarded (t : Transaction) : Transaction := if t.panel = p then { t with discard := true } else t
  dropHeld p ((clearProtects p { s with pbc := { s.pbc with
    panels := s.pbc.panels.erase p, transaction := s.pbc.transaction.map discarded } }).setContext p Context.start)

theorem removePanel_eq (p : Nat) (v : Panel) (s : State) : removePanel p v s = { dropPanel p (unlisted p s) with
    hlc := (removePanel p v s).hlc, pbc := { (unlisted p s).pbc with panelErrors := (removePanel p v s).pbc.panelErrors } } := by
  have bus : (dropPanel p (unlisted p s)).pbc = (unlisted p s).pbc := (dropPanel_rest p _).2.2.1
  have steps : removePanel p v s = if v.state = .absent then dropPanel p (unlisted p s) else panelStateChanged (dropPanel p (unlisted p s)) := rfl
  rw [steps, ← bus]
  split
  · rfl
  · exact panelStateChanged_eq _

theorem held?_dropHeld (p : Nat) (s : State) (q k : Nat) : (dropHeld p s).held? q k = if q = p then none else s.held? q k := by
  unfold State.held? dropHeld Table.get
  dsimp only
  by_cases same : q = p
  · subst same; rw [Table.find?_erase_self, if_pos rfl]; rfl
  · rw [Table.find?_erase_ne _ same, if_neg same]

theorem unlisted_pbc (p : Nat) (s : State) : (unlisted p s).pbc = { s.pbc with
    panels := s.pbc.panels.erase p
    transaction := s.pbc.transaction.map fun t => if t.panel = p then { t with discard := true } else t } := rfl

theorem unlisted_rc (p : Nat) (s : State) :
    (unlisted p s).rc = { s.rc with dests := (numbers 1 256).foldl (reprotect (withoutPanel p)) s.rc.dests } := by
  unfold unlisted dropHeld State.setContext clearProtects rewriteProtects
  rfl

theorem unlisted_fd (p : Nat) (s : State) : (unlisted p s).fd =
    { s.fd with contexts := s.fd.contexts.set Context.start p Context.start, held := s.fd.held.erase p } := rfl

theorem held?_unlisted (p : Nat) (s : State) (q k : Nat) : (unlisted p s).held? q k = if q = p then none else s.held? q k := by
  rw [← held?_dropHeld, State.held?, unlisted_fd]
  rfl

theorem context_unlisted (p : Nat) (s : State) (q : Nat) : (unlisted p s).context q = if q = p then Context.start else s.context q := by
  rw [← context_setContext, State.context, unlisted_fd]
  rfl

theorem dest_unlisted (p : Nat) (s : State) {d : Nat} (range : 1 ≤ d ∧ d ≤ 256) : (unlisted p s).dest d =
    if (s.dest d).protect = .panel p then { s.dest d with protect := .none } else s.dest d := by
  have protects : (unlisted p s).rc = (rewriteProtects (withoutPanel p) s).rc := by
    unfold unlisted dropHeld State.setContext clearProtects rewriteProtects
    generalize numbers 1 256 = ds
    rfl
  rw [State.dest, protects, ← State.dest, State.dest_rewriteProtects, if_pos range]
  unfold withoutPanel
  split <;> rfl

/-- R152, R156: the flags of the removal of a panel go out behind the reply. -/
theorem PanelStateReported.begun {r : Request} {m : Message} {before : Bool} {h : HostLink} {u : State} (leads : h.leads r m)
    (reported : PanelStateReported before h u) : PanelStateReported before h.begun { u with hlc := u.hlc.begun } := by
  obtain ⟨errors, link⟩ := reported
  obtain ⟨raised, leads⟩ := begun_raised leads .panelState
  refine ⟨errors, ?_⟩
  rw [link, (begun_handed leads _ _ _).1, raised]

/-- Settles O43. -/
theorem panelsAreDeclaredAndRemoved : Obligations.PanelsAreDeclaredAndRemoved := by
  refine ⟨?_, ?_, ?_⟩
  · intro tag b l q kind dom s s1 r hr settled turn fits port
    subst hr
    let r : Request := ⟨0x80, tag, [b, panelKindByte kind, l, domainByte dom, q]⟩
    let a : PanelArgs := ⟨kind, l.toNat, dom, port⟩
    have executes : exec (.setPanel tag r.payload) s = .next (requestOf 0x80 tag r.payload panelArgs setPanelRequest s) := rfl
    have read : panelArgs r.payload = some (b.toNat, some a) := by
      simp only [r, panelArgs, panelKindOf_byte, domainOf_byte]
      rfl
    have inRange : (within 1 32 b.toNat && a.inRange) = true ↔ fits := by
      rw [Bool.and_eq_true, within_iff]
      exact and_congr_right fun _ => panel_inRange_iff kind l q dom
    have begins : ∀ x, setPanelRequest r (b.toNat, some a) x = declarePanel r b.toNat a x := fun _ => rfl
    refine ⟨fun unfit => refused_inTurn executes settled turn read ((begins s1).trans (if_neg (mt inRange.1 unfit))), ?_, ?_⟩
    · intro fit undeclared
      let z : State := ((answer r .ok s1).setPanel b.toNat a.declared).setContext b.toNat Context.start
      have writes : setPanelRequest r (b.toNat, some a) s1 = relamp z := by
        rw [begins, declarePanel, if_pos (inRange.2 fit), turn.panel?_eq, undeclared]
      obtain ⟨t, done, lamps⟩ := relamped_inTurn (code := .ok) executes settled turn read writes rfl
      refine ⟨{ z with hlc := s1.hlc.answered r .ok [] }, t, done, State.panel?_setPanel_self ..,
        fun p hp => (State.panel?_setPanel_ne _ hp _).trans (turn.panel?_eq p), fun p => ?_, rfl, lamps⟩
      rw [← turn.context_eq]
      exact context_setContext _ b.toNat p Context.start
    · intro v fit declared busy
      have judged : (a.kind ≠ v.kind ∧ (!v.state.outOfService) = true) ↔ busy := and_congr_right fun _ => by
        rw [Bool.not_eq_true', ← Bool.not_eq_true, outOfService_iff, not_or]
      have branch : declarePanel r b.toNat a s1 = if a.kind ≠ v.kind ∧ !v.state.outOfService then answer r .busy s1
          else relamp ((answer r .ok s1).setPanel b.toNat { v with kind := kind, access := l.toNat, domain := dom, ownPort := port }) := by
        rw [declarePanel, if_pos (inRange.2 fit), turn.panel?_eq, declared]
      refine ⟨fun stuck => refused_inTurn executes settled turn read ((begins s1).trans (branch.trans (if_pos (judged.2 stuck)))),
        fun free => ?_⟩
      obtain ⟨t, done, lamps⟩ := relamped_inTurn (code := .ok) executes settled turn read
        ((begins s1).trans (branch.trans (if_neg (mt judged.1 free)))) rfl
      exact ⟨{ s1.setPanel b.toNat { v with kind := kind, access := l.toNat, domain := dom, ownPort := port } with
          hlc := s1.hlc.answered r .ok [] }, t, done, State.panel?_setPanel_self ..,
        fun p hp => (State.panel?_setPanel_ne _ hp _).trans (turn.panel?_eq p), rfl, lamps⟩
  · intro tag b kind l dom q s s1 r hr settled turn large
    subst hr
    refine unread_inTurn (decode := panelArgs) rfl settled turn ?_
    rcases large with large | large
    · simp only [panelArgs, panelKindOf_large large]
    · simp only [panelArgs, domainOf_large large]
      cases panelKindOf kind <;> rfl
  · intro tag b s s1 r hr settled turn distinct
    subst hr
    let r : Request := ⟨0x80, tag, [b]⟩
    have executes : exec (.setPanelUndeclared tag [b]) s = .next (requestOf 0x80 tag [b] panelArgs setPanelRequest s) := rfl
    have read : panelArgs [b] = some (b.toNat, none) := rfl
    have begins : setPanelRequest r (b.toNat, none) s1 = undeclarePanel r b.toNat s1 := rfl
    refine ⟨fun outside => ?_, fun range undeclared => ?_, fun v range declared => ?_⟩
    · exact refused_inTurn executes settled turn read (begins.trans (if_neg (mt within_iff.1 outside)))
    · refine refused_inTurn executes settled turn read (begins.trans ?_)
      rw [undeclarePanel, if_pos (within_iff.2 range), turn.panel?_eq, undeclared]
    let p := b.toNat
    let x : State := answer r .ok s1
    let z := removePanel p v x
    have writes : setPanelRequest r (p, none) s1 = relamp z := by
      rw [begins, undeclarePanel, if_pos (within_iff.2 range), turn.panel?_eq, declared]
    have done : exec (.setPanelUndeclared tag [b]) s = .next { relamp z with hlc := z.hlc.begun } := by
      rw [executes, requestOf_inTurn turn read, writes, transmit_eq]; rfl
    have leads := replied_leads r .ok [] (turn.settled settled)
    obtain ⟨h, reported, quiet, loud⟩ := removePanel_reported p v x
    obtain ⟨begun, behind⟩ := reported.begun leads
    rw [begun_replied _ _ _ (turn.settled settled)] at begun
    have shape : z = _ := removePanel_eq p v x
    obtain ⟨rc, stu, pbc, fd, pending⟩ := dropPanel_rest p (unlisted p x)
    have router : z.rc = (unlisted p x).rc := by rw [shape]; exact rc
    have functions : z.fd = (unlisted p x).fd := by rw [shape]; exact fd
    have mixed : MixHandled s z := by
      have same := (dropPanel_mixed p (unlisted p x)).congr (a' := s) (b' := z) turn.tc_eq.symm turn.tme_eq.symm
      exact same (by rw [shape]) (by rw [shape])
    refine ⟨{ z with hlc := z.hlc.begun }, _, done, ?_, ?_, fun q hq => ?_, fun d range => ?_, ?_, mixed.congr rfl rfl rfl rfl,
      fun q k => ?_, ?_, ?_, ⟨h.begun, begun.congr ?_ ?_ rfl rfl, fun absent => ?_, fun present => ?_⟩, idle_follows z⟩
    · exact dropPanel_dropped (x := unlisted p x) distinct turn.tc_eq turn.tt_eq turn.tou_eq turn.stu_eq turn.pending_eq
        (fun q => by rw [context_unlisted, ← turn.context_eq]; rfl) (by rw [shape])
    · show z.panel? p = none
      rw [State.panel?, shape]
      exact Table.find?_erase_self ..
    · show z.panel? q = s.panel? q
      rw [← turn.panel?_eq, State.panel?, shape]
      exact Table.find?_erase_ne _ hq
    · show z.dest d = _
      rw [State.dest, router, ← State.dest, dest_unlisted p x range, ← turn.dest_eq]
      rfl
    · show z.rc = { s.rc with dests := z.rc.dests }
      obtain ⟨dests, written⟩ : ∃ dests, z.rc = { s1.rc with dests := dests } := ⟨_, router.trans (unlisted_rc p x)⟩
      rw [written, turn.rc_eq]
    · show z.held? q k = _
      have same : z.held? q k = (unlisted p x).held? q k :=
        congrArg (fun f : FunctionDispatcher => (f.held.get ⟨[]⟩ q).find? k) functions
      have before : x.held? q k = s.held? q k := congrArg (fun f : FunctionDispatcher => (f.held.get ⟨[]⟩ q).find? k) turn.fd_eq
      exact same.trans ((held?_unlisted p x q k).trans (by rw [before]))
    · show z.fd = { s.fd with contexts := z.fd.contexts, held := z.fd.held }
      have frame : ∀ f, f = (unlisted p x).fd → f = { s.fd with contexts := f.contexts, held := f.held } := fun f hf => by
        subst hf; rw [unlisted_fd, ← turn.fd_eq]; rfl
      exact frame _ functions
    · show z.pbc = _
      have bus : z.pbc = { (unlisted p x).pbc with panelErrors := z.pbc.panelErrors } := congrArg State.pbc shape
      rw [bus, unlisted_pbc, ← turn.pbc_eq]
      rfl
    · exact congrArg TalkController.ifbs turn.tc_eq.symm
    · exact turn.tme_eq.symm
    · obtain ⟨link, errors⟩ := quiet absent
      exact ⟨congrArg HostLink.begun link, errors.trans (congrArg PanelBus.panelErrors turn.pbc_eq)⟩
    · have told := (loud present).begun behind
      rw [show x.pbc = s.pbc from turn.pbc_eq] at told
      exact told

end Sys2Proof.Machine

/-! Error counts (R153 to R156). -/

namespace Sys2Proof.Machine

/-! ### A transfer -/

/-- R154: the state of a panel after its judgement. -/
def PanelBus.judged (b : PanelBus) (v : Panel) : PanelState :=
  if v.state = .online ∧ b.threshold ≤ v.errors then .degraded
  else if v.state = .degraded ∧ v.errors < b.threshold then .online else v.state

theorem transferred_eq (b : PanelBus) (v : Panel) :
    v.transferred b.threshold = { v with lastWindow := v.errors, errors := 0, state := b.judged v } := by
  unfold Panel.transferred PanelBus.judged
  cases state : v.state <;> simp

theorem transfer_panel? (s : State) (p : Nat) : (transfer s).panel? p = (s.panel? p).map fun v => v.transferred s.pbc.threshold := by
  have panels : (transfer s).pbc.panels = s.pbc.panels.mapValues fun _ v => v.transferred s.pbc.threshold := by
    unfold transfer
    dsimp only
    split
    · rw [panelStateChanged_eq]
    · rfl
  rw [State.panel?, panels, Table.find?_mapValues]
  rfl

theorem transfer_eq (s : State) : transfer s = { s with
    hlc := (transfer s).hlc
    pbc := { s.pbc with panels := (transfer s).pbc.panels, panelErrors := (transfer s).pbc.panelErrors } } := by
  unfold transfer
  dsimp only
  split
  · rw [panelStateChanged_eq]
  · rfl

/-- R152, R154: the flags of a transfer. -/
theorem transfer_reported (s : State) :
    ((∃ e ∈ s.pbc.panels.entries, s.pbc.judged e.2 ≠ e.2.state) → PanelStateReported s.pbc.panelErrors s.hlc (transfer s)) ∧
      ((∀ e ∈ s.pbc.panels.entries, s.pbc.judged e.2 = e.2.state) →
        (transfer s).pbc.panelErrors = s.pbc.panelErrors ∧ (transfer s).hlc = s.hlc) := by
  have changed : (s.pbc.panels.values.any fun v => (v.transferred s.pbc.threshold).state != v.state) = true ↔
      ∃ e ∈ s.pbc.panels.entries, s.pbc.judged e.2 ≠ e.2.state := by
    simp [Table.values, transferred_eq]
  unfold transfer
  dsimp only
  refine ⟨fun moved => ?_, fun still => ?_⟩
  · rw [if_pos (changed.2 moved)]
    exact panelStateChanged_reported _
  · rw [if_neg fun h => by obtain ⟨e, he, moved⟩ := changed.1 h; exact moved (still e he)]
    exact ⟨rfl, rfl⟩

theorem countModeOf_byte (m : CountMode) : countModeOf (countModeByte m) = some m := by cases m <;> rfl

theorem countModeOf_large {b : Byte} (h : 1 < b.toNat) : countModeOf b = none := by
  unfold countModeOf
  rw [if_neg fun e => by rw [e] at h; exact absurd h (by decide), if_neg fun e => by rw [e] at h; exact absurd h (by decide)]

/-- Settles O44. -/
theorem errorCountsAreTransferred : Obligations.ErrorCountsAreTransferred := by
  unfold Obligations.ErrorCountsAreTransferred
  intro judged transferred
  have panels : ∀ (s : State) p, (transfer s).panel? p =
      (s.panel? p).map fun v => { v with lastWindow := v.errors, errors := 0, state := judged s v } := fun s p => by
    rw [transfer_panel?]
    exact congrArg (fun f : Panel → Panel => (s.panel? p).map f) (funext (transferred_eq s.pbc))
  refine ⟨?_, ?_, ?_, fun s => ⟨fun mode => ?_, fun mode => ?_⟩⟩
  · intro tag b mode s s1 r hr settled turn
    subst hr
    have executes : exec (.setCountMode tag [countModeByte mode, b]) s =
        .next (requestOf 0x81 tag [countModeByte mode, b] countModeArgs setCountMode s) := rfl
    have read : countModeArgs [countModeByte mode, b] = some (mode, b.toNat) := by simp [countModeArgs, countModeOf_byte]
    refine ⟨fun positive => ?_, fun zero => ?_⟩
    · refine written_inTurn (code := .ok) executes settled turn read (if_pos (within_iff.2 ⟨?_, ?_⟩)) rfl
      · exact Nat.one_le_iff_ne_zero.2 fun h => positive (BitVec.eq_of_toNat_eq h)
      · exact Nat.le_of_lt_succ b.isLt
    · subst zero
      exact refused_inTurn executes settled turn read (if_neg (show ¬within 1 255 (0#8).toNat = true by decide))
  · intro tag m b s s1 r hr settled turn large
    subst hr
    refine unread_inTurn (decode := countModeArgs) rfl settled turn ?_
    simp [countModeArgs, countModeOf_large large]
  · intro tag s s1 r hr settled turn
    subst hr
    let r : Request := ⟨0x82, tag, []⟩
    have executes : exec (.countsSnapshot tag []) s = .next (requestOf 0x82 tag [] noArg countsSnapshot s) := rfl
    have read : noArg [] = some () := rfl
    refine ⟨fun mode => refused_inTurn executes settled turn read ?_, fun mode => ?_⟩
    · rw [countsSnapshot, turn.pbc_eq, mode]
    let x : State := answer r .ok s1
    let z := transfer x
    have writes : countsSnapshot r () s1 = relamp z := by rw [countsSnapshot, turn.pbc_eq, mode]
    have leads := replied_leads r .ok [] (turn.settled settled)
    have link : x.hlc.begun = s1.hlc.answered r .ok [] := begun_replied _ _ _ (turn.settled settled)
    have bus : x.pbc = s.pbc := turn.pbc_eq
    obtain ⟨moved, still⟩ := transfer_reported x
    rw [bus] at moved still
    refine ⟨_, by rw [executes, requestOf_inTurn turn read, writes, transmit_eq], { z with hlc := z.hlc.begun }, fun p => ?_, ?_,
      fun h => ?_, fun h => ?_, idle_follows z⟩
    · exact (panels x p).trans (by rw [show x.panel? p = s.panel? p from turn.panel?_eq p]; unfold judged; rw [bus])
    · exact (congrArg (fun y : State => { y with hlc := z.hlc.begun }) (transfer_eq x) :)
    · obtain ⟨errors, told⟩ := (moved h).begun leads
      exact ⟨errors, by rw [← link]; exact told⟩
    · obtain ⟨errors, told⟩ := still h
      exact ⟨errors, by rw [← link]; exact congrArg HostLink.begun told⟩
  · refine ⟨relamp (transfer s), ?_, transfer s, panels s, transfer_eq s, (transfer_reported s).1, (transfer_reported s).2,
      relamp_follows _⟩
    have steps : exec .countTransfer s = .next (transmit (secondTransfer s)) := rfl
    rw [steps, transmit_eq, secondTransfer, mode]
  · have steps : exec .countTransfer s = .next (transmit (secondTransfer s)) := rfl
    rw [steps, transmit_eq, secondTransfer, mode]

end Sys2Proof.Machine

/-! The poll cycle (R136 to R138, R144, R147, R157). -/

namespace Sys2Proof.Machine

/-! ### Which panel comes next -/

theorem numbers_find? {lo hi p : Nat} {f : Nat → Bool} : (numbers lo hi).find? f = some p ↔
    (lo ≤ p ∧ p ≤ hi) ∧ f p = true ∧ ∀ q, lo ≤ q → q < p → f q = false := by
  unfold numbers
  rw [List.find?_range'_eq_some, List.mem_range'_1]
  simp only [Bool.not_eq_true']
  constructor
  · rintro ⟨holds, range, before⟩; exact ⟨⟨range.1, by omega⟩, holds, before⟩
  · rintro ⟨range, holds, before⟩; exact ⟨holds, ⟨range.1, by omega⟩, before⟩

theorem numbers_find?_none {lo hi : Nat} {f : Nat → Bool} : (numbers lo hi).find? f = none ↔ ∀ q, lo ≤ q → q ≤ hi → f q = false := by
  rw [List.find?_eq_none]
  simp only [mem_numbers, within_iff, Bool.not_eq_true, and_imp]

theorem polls_iff (b : PanelBus) (x : PanelState) :
    b.polls x = true ↔ x = .joining ∨ x = .online ∨ (x = .degraded ∧ b.odd = false) := by
  cases x <;> simp [PanelBus.polls]

/-- R137: the panels that a choice may poll. -/
def PanelBus.pollable (b : PanelBus) (p : Nat) : Bool :=
  decide (b.lastPolled < p) && match b.panels.find? p with | some v => b.polls v.state | none => false

theorem qualifies_iff (b : PanelBus) (p : Nat) : b.qualifies p ↔ (1 ≤ p ∧ p ≤ 32) ∧ b.pollable p = true := by
  unfold PanelBus.qualifies PanelBus.pollable
  rw [Bool.and_eq_true, decide_eq_true_eq]
  cases b.panels.find? p <;> simp [polls_iff]

theorem nextPoll_some {b : PanelBus} {p : Nat} (qualifies : b.qualifies p) (first : ∀ q, q < p → ¬b.qualifies q) : b.nextPoll = some p := by
  obtain ⟨range, polled⟩ := (qualifies_iff b p).1 qualifies
  refine numbers_find?.2 ⟨range, polled, fun q lower below => ?_⟩
  by_contra other
  exact first q below ((qualifies_iff b q).2 ⟨⟨lower, by omega⟩, eq_true_of_ne_false other⟩)

theorem nextPoll_none {b : PanelBus} (idle : ∀ q, ¬b.qualifies q) : b.nextPoll = none :=
  numbers_find?_none.2 fun q lower upper => by
    by_contra other
    exact idle q ((qualifies_iff b q).2 ⟨⟨lower, upper⟩, eq_true_of_ne_false other⟩)

theorem probed_iff (b : PanelBus) (p : Nat) : b.probed p ↔ (1 ≤ p ∧ p ≤ 32) ∧ b.probes p = true := by
  unfold PanelBus.probed PanelBus.probes
  cases b.panels.find? p <;> simp

theorem nextProbe_some {b : PanelBus} {p : Nat} (pointer : 1 ≤ b.pointer) (turn : b.probeTurn p) : b.nextProbe = some p := by
  obtain ⟨probed, turn⟩ := turn
  obtain ⟨range, answers⟩ := (probed_iff b p).1 probed
  have silent : ∀ q, 1 ≤ q → q ≤ 32 → ¬b.probed q → b.probes q = false := fun q lower upper h => by
    by_contra other
    exact h ((probed_iff b q).2 ⟨⟨lower, upper⟩, by simpa using other⟩)
  unfold PanelBus.nextProbe
  rcases turn with ⟨above, first⟩ | ⟨wrapped, first⟩
  · rw [numbers_find?.2 ⟨⟨above, range.2⟩, answers, fun q lower below => silent q (by omega) (by omega) (first q lower below)⟩]
    rfl
  · rw [numbers_find?_none.2 fun q lower upper => silent q (by omega) upper (wrapped q lower), Option.none_or]
    exact numbers_find?.2 ⟨range, answers, fun q lower below => silent q lower (by omega) (first q below)⟩

theorem nextProbe_none {b : PanelBus} (pointer : 1 ≤ b.pointer) (idle : ∀ q, ¬b.probed q) : b.nextProbe = none := by
  have silent : ∀ q, 1 ≤ q → q ≤ 32 → b.probes q = false := fun q lower upper => by
    by_contra other
    exact idle q ((probed_iff b q).2 ⟨⟨lower, upper⟩, by simpa using other⟩)
  unfold PanelBus.nextProbe
  rw [numbers_find?_none.2 fun q lower upper => silent q (by omega) upper, Option.none_or]
  exact numbers_find?_none.2 silent

/-! ### The transaction that is sent -/

theorem sendPoll_polled {p : Nat} {b : PanelBus} (declared : ∃ v, b.panels.find? p = some v) : Polled p b (sendPoll p b) := by
  obtain ⟨v, record⟩ := declared
  have sent : sendPoll p b = { b with
      lastPolled := p
      panels := b.panels.put p { v with scan := v.nextScan }
      transaction := some ⟨false, p, v.seqBit, v.scanned.map fun k => (k, (v.lamp k).desired), false, v.kind⟩ } := by
    unfold sendPoll; rw [record]
  rw [sent]
  refine ⟨⟨v, record, ?_⟩, fun q other => Table.find?_put_ne _ other _, rfl⟩
  intro keys
  have scanned : v.scanned = keys := congrArg (List.take 16) (List.filter_congr fun k _ => by rw [Panel.differs, Bool.eq_iff_iff]; simp)
  clear_value keys
  subst scanned
  exact ⟨rfl, Table.find?_put_self ..⟩

theorem sendProbe_probed {p : Nat} {b : PanelBus} (declared : ∃ v, b.panels.find? p = some v) : Probed p b (sendProbe p b) := by
  obtain ⟨v, record⟩ := declared
  exact ⟨v, record, by unfold sendProbe; rw [record]⟩

/-- R137, R138: the next transaction of a cycle, which is `ended` where there is none. -/
def PanelBus.onward (b ended : PanelBus) : PanelBus :=
  match b.nextPoll with
  | some p => sendPoll p b
  | none =>
    match b.nextProbe with
    | some p => sendProbe p b
    | none => ended

theorem onward_chosen {b ended : PanelBus} {done : PanelBus → Prop} (pointer : 1 ≤ b.pointer) (finished : done ended) :
    Chosen done b (b.onward ended) := by
  unfold PanelBus.onward
  refine ⟨fun p qualifies first => ?_, fun idle p turn => ?_, fun idle silent => ?_⟩
  · obtain ⟨-, -, v, record, -⟩ := id qualifies
    rw [nextPoll_some qualifies first]
    exact sendPoll_polled ⟨v, record⟩
  · obtain ⟨-, v, record, -⟩ := turn.1
    rw [nextPoll_none idle, nextProbe_some pointer turn]
    exact sendProbe_probed ⟨v, record⟩
  · rw [nextPoll_none idle, nextProbe_none pointer silent]
    exact finished

theorem chooseNext_open {probe : Bool} {b : PanelBus} (stands : b.newCycle = false) :
    chooseNext probe b = if probe then nextCycle b else b.onward (nextCycle b) := if_neg (by simp [stands])

theorem startCycle_eq (b : PanelBus) :
    startCycle b = ({ b with lastPolled := 0 } : PanelBus).onward { b with lastPolled := 0, transaction := none } := rfl

/-- Settles O47. -/
theorem pollCyclesTurn : Obligations.PollCyclesTurn := by
  refine ⟨fun s idle => ?_, fun s x busy => ?_, fun b pointer stands => ?_,
    fun b stands => chooseNext_open stands, fun probe b restarted => if_pos restarted, fun b pointer =>
    ?_⟩
  · have steps : exec .emptyCycleEnd s = .next (transmit (endEmptyCycle s)) := rfl
    rw [steps, transmit_eq, endEmptyCycle, idle]; rfl
  · have steps : exec .emptyCycleEnd s = .next (transmit (endEmptyCycle s)) := rfl
    rw [steps, transmit_eq, endEmptyCycle, busy]
  · rw [chooseNext_open stands]
    exact onward_chosen pointer rfl
  · rw [startCycle_eq]
    exact onward_chosen (b := { b with lastPolled := 0 }) pointer rfl

end Sys2Proof.Machine

/-! The outcome of a transaction (R134, R138 to R143, R148 to R153, R197). -/

namespace Sys2Proof.Machine

/-! ### Valid answers (R142, R143, R148 to R150) -/

/-- The state whose transaction has ended. -/
def State.unoccupied (s : State) : State := { s with pbc := { s.pbc with transaction := none } }

theorem yesNo_bit (b : Bool) : (yesNo b).getLsbD 0 = b := by cases b <;> rfl

theorem keyCountOf_eq {s : State} {p : Nat} {v : Panel} (declared : s.panel? p = some v) : s.keyCountOf p = v.keyCount.getD 0 := by
  unfold State.keyCountOf; rw [declared]; rfl

/-- R142: a REPLY is read as the events that it was written of. -/
theorem answerOf_reply {keys : Nat} {bit : Bool} {es : List PanelAction} (small : keys ≤ 64) (few : es.length ≤ 8)
    (reportable : ∀ a ∈ es, a.reportable keys) :
    answerOf false keys 0x81 (yesNo bit :: byte es.length :: es.flatMap PanelAction.record) = some (.reply bit es) := by
  have count : (byte es.length).toNat = es.length := byte_toNat (by omega)
  unfold answerOf
  dsimp only
  rw [if_pos ⟨rfl, by omega, by rw [records_length, count]⟩, eventsOf_records keys small es reportable, yesNo_bit]
  rfl

/-- R142, R143: whether a REPLY brings its events. -/
def State.fresh (s : State) (v : Panel) (bit : Bool) (es : List PanelAction) : Bool :=
  v.state != .joining && bit != v.seqBit && decide (s.pbc.events.length + es.length ≤ 64)

/-- R142: the events of a REPLY in the queue and its sequence bit accepted. -/
def State.brought (s : State) (p : Nat) (v : Panel) (bit : Bool) (es : List PanelAction) : State :=
  let x := s.setPanel p { v with seqBit := bit }
  { x with pbc := { x.pbc with events := s.pbc.events ++ es.map (KeyEvent.mk p) } }

theorem takeEvents_spec {p : Nat} {v : Panel} {s : State} (declared : s.panel? p = some v) (present : v.state ≠ .absent)
    (found : v.state ≠ .lost) (bit : Bool) (es : List PanelAction) :
    (takeEvents p v bit es s).panel? p =
      some { v with seqBit := if s.fresh v bit es || v.state == .joining then bit else v.seqBit } ∧
    (∀ q, q ≠ p → (takeEvents p v bit es s).panel? q = s.panel? q) ∧
    takeEvents p v bit es s = { s with pbc := { s.pbc with
      panels := (takeEvents p v bit es s).pbc.panels
      events := if s.fresh v bit es then s.pbc.events ++ es.map (KeyEvent.mk p) else s.pbc.events } } := by
  have serving : v.state ≠ .joining → takeEvents p v bit es s = if s.fresh v bit es then s.brought p v bit es else s := fun served => by
    have taken : takeEvents p v bit es s = if bit = v.seqBit then s
        else if s.pbc.events.length + es.length ≤ 64 then s.brought p v bit es else s := by
      unfold takeEvents
      split
      · next joining => exact absurd joining served
      · next absent => exact absurd absent present
      · next lost => exact absurd lost found
      · rfl
    rw [taken]
    unfold State.fresh
    by_cases old : bit = v.seqBit
    · simp [old]
    · by_cases room : s.pbc.events.length + es.length ≤ 64
      · rw [if_neg old, if_pos room, if_pos (by simp [old, room, served])]
      · rw [if_neg old, if_neg room, if_neg (by simp [room])]
  by_cases joining : v.state = .joining
  · have taken : takeEvents p v bit es s = s.setPanel p { v with seqBit := bit } := by unfold takeEvents; rw [joining]
    have stale : s.fresh v bit es = false := by unfold State.fresh; simp [joining]
    rw [taken, stale]
    exact ⟨by rw [State.panel?_setPanel_self]; simp [joining], fun q other => State.panel?_setPanel_ne _ other _, rfl⟩
  · rw [serving joining]
    cases fresh : s.fresh v bit es
    · refine ⟨?_, fun q _ => rfl, rfl⟩
      show s.panel? p = _
      rw [declared]
      simp [joining]
    · exact ⟨State.panel?_setPanel_self .., fun q other => State.panel?_setPanel_ne _ other _, rfl⟩

theorem panelStateChanged_frame (s : State) : panelStateChanged s = { s with
    hlc := (panelStateChanged s).hlc
    pbc := { s.pbc with
      panels := (panelStateChanged s).pbc.panels, panelErrors := (panelStateChanged s).pbc.panelErrors } } := by
  have panels : (panelStateChanged s).pbc.panels = s.pbc.panels := by rw [panelStateChanged_eq]
  rw [panels]
  exact panelStateChanged_eq s

/-- R140, R148, R150: what an answered poll makes of the record of its panel. -/
theorem answeredPoll_spec {p : Nat} {v : Panel} {s : State} (declared : s.panel? p = some v) {entries : List (Nat × Lamp)}
    (distinct : (entries.map Prod.fst).Nodup) : ∃ w : Panel,
    (answeredPoll p entries s).panel? p = some w ∧ (∀ q, q ≠ p → (answeredPoll p entries s).panel? q = s.panel? q) ∧
    w = { v with missed := 0, lamps := w.lamps, state := w.state } ∧
    (∀ k, (w.lamp k).desired = (v.lamp k).desired) ∧ (∀ e ∈ entries, (w.lamp e.1).sent = some e.2) ∧
    (∀ k, (∀ e ∈ entries, e.1 ≠ k) → (w.lamp k).sent = (v.lamp k).sent) ∧
    answeredPoll p entries s = { s with
      hlc := (answeredPoll p entries s).hlc
      pbc := { s.pbc with
        panels := (answeredPoll p entries s).pbc.panels, panelErrors := (answeredPoll p entries s).pbc.panelErrors } } ∧
    let shown : Prop := v.state = .joining ∧ ∀ k, 1 ≤ k → k ≤ 64 → (w.lamp k).sent ≠ none
    (shown → w.state = .online ∧ PanelStateReported s.pbc.panelErrors s.hlc (answeredPoll p entries s)) ∧
    (¬shown → w.state = v.state ∧ (answeredPoll p entries s).hlc = s.hlc ∧
      (answeredPoll p entries s).pbc.panelErrors = s.pbc.panelErrors) := by
  let w0 : Panel := { v with missed := 0 }.acknowledge entries
  obtain ⟨record, desired, sent, others⟩ := Panel.acknowledge_lamps entries { v with missed := 0 } distinct
  have state : w0.state = v.state := (congrArg Panel.state record :)
  have answered : answeredPoll p entries s = if w0.state = .joining ∧ w0.allKnown then
      panelStateChanged (s.setPanel p { w0 with state := .online }) else s.setPanel p w0 := by
    unfold answeredPoll; rw [declared]
  have known : w0.state = .joining ∧ w0.allKnown = true ↔
      v.state = .joining ∧ ∀ k, 1 ≤ k → k ≤ 64 → (w0.lamp k).sent ≠ none := by rw [state, Panel.allKnown_iff]
  rw [answered]
  by_cases shows : w0.state = .joining ∧ w0.allKnown = true
  · rw [if_pos shows]
    let x := s.setPanel p { w0 with state := .online }
    have written := panelStateChanged_eq x
    refine ⟨{ w0 with state := .online }, ?_, fun q other => ?_, (congrArg (fun y : Panel => { y with state := .online }) record :), desired,
      sent, others, panelStateChanged_frame x, fun _ => ⟨rfl, panelStateChanged_reported x⟩, fun h => absurd (known.1 shows) h⟩
    · rw [State.panel?, written]; exact State.panel?_setPanel_self ..
    · rw [State.panel?, written]; exact State.panel?_setPanel_ne _ other _
  · rw [if_neg shows]
    exact ⟨w0, State.panel?_setPanel_self .., fun q other => State.panel?_setPanel_ne _ other _,
      record.trans (by rw [state]), desired, sent, others, rfl,
      fun h => absurd (known.2 h) shows, fun _ => ⟨state, rfl, rfl⟩⟩

/-- R149: a valid IDENT of the kind that was expected. -/
theorem takeIdent_spec {p : Nat} {v : Panel} {s : State} (declared : s.panel? p = some v) (kind : PanelKind) (keys : Nat) (bit : Bool) :
    let u := takeIdent p kind kind keys bit s
    ∃ w : Panel, u.panel? p = some w ∧ (∀ q, q ≠ p → u.panel? q = s.panel? q) ∧
      w = { v with state := .joining, keyCount := some keys, seqBit := bit, missed := 0, scan := 1, lamps := w.lamps } ∧
      (∀ j, 1 ≤ j → j ≤ 64 → w.lamp j = ⟨(v.lamp j).desired, none⟩) ∧
      (∀ q j, u.held? q j = if q = p then none else s.held? q j) ∧
      u = { s with
        hlc := u.hlc
        pbc := { s.pbc with panels := u.pbc.panels, panelErrors := u.pbc.panelErrors }
        fd := { s.fd with held := u.fd.held } } ∧
      PanelStateReported s.pbc.panelErrors s.hlc u := by
  intro u
  let v1 : Panel := { v with state := .joining, keyCount := some keys, seqBit := bit, missed := 0 }
  let w := v1.forgetSent
  let x := dropHeld p (s.setPanel p w)
  have joined : u = panelStateChanged x := by
    unfold u takeIdent; rw [declared]; exact if_pos rfl
  have written := panelStateChanged_eq x
  have forgotten := Panel.forget_lamps (numbers 1 64) { v1 with scan := 1 }
  rw [joined]
  refine ⟨w, ?_, fun q other => ?_, (forgotten 0).1, fun j lower upper => ?_, fun q j => ?_, ?_, panelStateChanged_reported x⟩
  · rw [State.panel?, written]; exact State.panel?_setPanel_self ..
  · rw [State.panel?, written]; exact State.panel?_setPanel_ne _ other _
  · exact (forgotten j).2.trans (if_pos (mem_numbers.2 (within_iff.2 ⟨lower, upper⟩)))
  · rw [State.held?, written]; exact held?_dropHeld p (s.setPanel p w) q j
  · rw [panelStateChanged_fd]
    exact panelStateChanged_frame x

/-- Settles O45. -/
theorem panelsAnswer : Obligations.PanelsAnswer := by
  refine ⟨?_, ?_⟩
  · intro s x v keys bit es busy poll goes small declared counted few present found distinct short reportable fresh
    let y := takeEvents x.panel v bit es s.unoccupied
    let u := answeredPoll x.panel x.entries y
    have address : (byte x.panel).toNat = x.panel := byte_toNat (by omega)
    have outcome : u = outcome x (judgeFrame x.probe x.panel (s.keyCountOf x.panel)
        (withCrc (byte x.panel :: 0x81 :: (yesNo bit :: byte es.length :: es.flatMap PanelAction.record)))) s.unoccupied := by
      rw [judgeFrame_eq, keyCountOf_eq declared, counted, poll, Option.getD_some, answerOf_reply few short reportable]
      dsimp only
      rw [if_pos address]
      unfold Machine.outcome
      rw [poll]
      dsimp only
      unfold takeReply
      rw [show s.unoccupied.panel? x.panel = some v from declared]
    have ends := transactionEnds_frame busy goes _ _ _ outcome
    obtain ⟨declared', others', frame'⟩ := takeEvents_spec (s := s.unoccupied) declared present found bit es
    obtain ⟨w, record, others, shape, desired, sent, kept, frame, shown, hidden⟩ := answeredPoll_spec declared' distinct
    have link : y.hlc = s.hlc := (congrArg State.hlc frame' :)
    have errors : y.pbc.panelErrors = s.pbc.panelErrors := (congrArg (fun z : State => z.pbc.panelErrors) frame' :)
    rw [link, errors] at shown hidden
    refine ⟨u, w, ends, record, fun q other => (others q other).trans (others' q other), shape, desired, sent, kept, ?_, shown, hidden⟩
    exact frame.trans (congrArg (fun z : State => { z with
      hlc := u.hlc, pbc := { z.pbc with panels := u.pbc.panels, panelErrors := u.pbc.panelErrors } }) frame' :)
  · intro s x v k n seq busy probe goes small declared range kind
    have address : (byte x.panel).toNat = x.panel := byte_toNat (by omega)
    have expected : (if k.getLsbD 0 then PanelKind.mixerBridge else .control) = x.kind := by
      cases h : x.kind <;> simp [h] at kind ⊢ <;> exact kind
    obtain ⟨w, record, others, shape, forgotten, held, frame, reported⟩ :=
      takeIdent_spec (s := s.unoccupied) declared x.kind n.toNat (seq.getLsbD 0)
    refine ⟨takeIdent x.panel x.kind x.kind n.toNat (seq.getLsbD 0) s.unoccupied, w, transactionEnds_frame busy goes _ _ _ ?_,
      record, others, shape, forgotten, held, frame, reported⟩
    have read : answerOf true (s.keyCountOf x.panel) 0x82 [k, n, seq] = some (.ident x.kind n.toNat (seq.getLsbD 0)) := by
      rw [← expected]
      exact if_pos ⟨rfl, within_iff.2 range⟩
    rw [judgeFrame_eq, probe, read]
    dsimp only
    rw [if_pos address]
    unfold outcome
    rw [probe]
    rfl

end Sys2Proof.Machine

/-! Counted errors, missed polls and the loss of a panel (R134, R138 to R140, R149, R151, R153, R197). -/

namespace Sys2Proof.Machine

/-! ### What is judged bad (R139, R197) -/

theorem eventOf_malformed {keys : Option Nat} {e : Byte × Byte × Byte} :
    MalformedEvent keys e ↔ eventOf (keys.getD 0) e.1 e.2.1 e.2.2 = none := by
  obtain ⟨kind, a, b⟩ := e
  unfold MalformedEvent eventOf
  have one : kind = 1 ↔ kind.toNat = 1 := (BitVec.toNat_inj (x := kind) (y := 1)).symm
  have two : kind = 2 ↔ kind.toNat = 2 := (BitVec.toNat_inj (x := kind) (y := 2)).symm
  have inside : (∃ n, keys = some n ∧ 1 ≤ a.toNat ∧ a.toNat ≤ n) ↔ within 1 (keys.getD 0) a.toNat = true := by
    rw [within_iff]
    cases keys with
    | none => simp; omega
    | some n => simp
  dsimp only
  rw [one, two, inside]
  rcases h : kind.toNat with _ | _ | _ | _ | _ | n
  · simp
  · cases within 1 (keys.getD 0) a.toNat <;> simp
  · cases within 1 (keys.getD 0) a.toNat <;> simp
  · simp
  · simp
  · simp

theorem eventsOf_malformed {keys : Option Nat} (records : List (Byte × Byte × Byte)) :
    (∃ e ∈ records, MalformedEvent keys e) ↔ eventsOf (keys.getD 0) (records.flatMap fun e => [e.1, e.2.1, e.2.2]) = none := by
  induction records with
  | nil => simp [eventsOf]
  | cons e records ih =>
    rw [List.exists_mem_cons_iff, ih, eventOf_malformed, List.flatMap_cons]
    show _ ↔ eventsOf (keys.getD 0) (e.1 :: e.2.1 :: e.2.2 :: records.flatMap fun e => [e.1, e.2.1, e.2.2]) = none
    rw [eventsOf]
    cases eventOf (keys.getD 0) e.1 e.2.1 e.2.2 <;>
      cases eventsOf (keys.getD 0) (records.flatMap fun e => [e.1, e.2.1, e.2.2]) <;> simp

theorem recordBytes_length (records : List (Byte × Byte × Byte)) :
    (records.flatMap fun e => [e.1, e.2.1, e.2.2]).length = 3 * records.length := by
  induction records with
  | nil => rfl
  | cons e records ih => rw [List.flatMap_cons, List.length_append, ih]; simp; omega

/-- R139: the content of a frame that is no REPLY is no answer to a poll. -/
theorem answerOf_poll (keys : Nat) (k seq n : Byte) (rest : List Byte) : answerOf false keys k (seq :: n :: rest) =
    if k = 0x81 ∧ n.toNat ≤ 8 ∧ rest.length = 3 * n.toNat then
      (eventsOf keys rest).map fun es => .reply (seq.getLsbD 0) es
    else none := by
  unfold answerOf
  dsimp only

theorem answerOf_poll_short (keys : Nat) (k : Byte) {content : List Byte} (short : content.length < 2) :
    answerOf false keys k content = none := by
  match content, short with
  | [], _ => rfl
  | [_], _ => rfl

theorem answerOf_probe (keys : Nat) (k a n seq : Byte) : answerOf true keys k [a, n, seq] =
    if k = 0x82 ∧ within 1 64 n.toNat then
      some (.ident (if a.getLsbD 0 then .mixerBridge else .control) n.toNat (seq.getLsbD 0))
    else none := rfl

theorem answerOf_probe_length (keys : Nat) (k : Byte) {content : List Byte} (length : content.length ≠ 3) :
    answerOf true keys k content = none := by
  match content, length with
  | [], _ => rfl
  | [_], _ => rfl
  | [_, _], _ => rfl
  | [_, _, _], h => exact absurd rfl h
  | _ :: _ :: _ :: _ :: _, _ => rfl

/-- R139, R197: a frame of another kind answers nothing. -/
theorem answerOf_kind (probe : Bool) (keys : Nat) {k : Byte} (content : List Byte) (other : k ≠ if probe then 0x82 else 0x81) :
    answerOf probe keys k content = none := by
  cases probe with
  | false =>
    match content with
    | [] => rfl
    | [_] => rfl
    | seq :: n :: rest => rw [answerOf_poll, if_neg fun h => other h.1]
  | true =>
    by_cases length : content.length = 3
    · match content, length with
      | [a, n, seq], _ => rw [answerOf_probe, if_neg fun h => other h.1]
    · exact answerOf_probe_length keys k length

/-- R139: the judgement of what a bad answer is. -/
def BusJudgement.badFor : ErrorKind → BusJudgement
  | .timeout => .timeout
  | why => .bad why

/-- R139, R197: a truncated frame is malformed. -/
theorem judgeFrame_truncated {probe : Bool} {p keys : Nat} {body : List Byte} (checks : crcChecks body = true) (short : body.length < 4) :
    judgeFrame probe p keys body = .bad .framing := by
  unfold judgeFrame
  rw [if_pos checks]
  match body, short with
  | [], _ => rfl
  | [_], _ => rfl
  | address :: kind :: rest, short =>
    have empty : rest.take (rest.length - 2) = [] := by
      rw [show rest.length - 2 = 0 by simp at short; omega]; rfl
    have silent : answerOf probe keys kind [] = none := by cases probe <;> rfl
    dsimp only
    rw [empty, silent]

/-- R139: the end of a transaction with a judgement. -/
theorem transactionEnds_body {s : State} {x : Transaction} (busy : s.pbc.transaction = some x) (goes : x.discard = false) (body : List Byte) :
    TransactionEnds (.panelFrameReceived (0x5A :: body)) s x
      (outcome x (judgeFrame x.probe x.panel (s.keyCountOf x.panel) body) s.unoccupied) := by
  refine ⟨relamp (outcome x (judgeFrame x.probe x.panel (s.keyCountOf x.panel) body) s.unoccupied), ?_, relamp_follows _⟩
  show Host.Outcome.next (transmit (receivePanelFrame (0x5A :: body) s)) = _
  simp only [receivePanelFrame, if_true, endTransaction, busy, goes]
  rw [transmit_eq]; rfl

theorem transactionEnds_timeout {s : State} {x : Transaction} (busy : s.pbc.transaction = some x) (goes : x.discard = false) :
    TransactionEnds .transactionTimeout s x (outcome x .timeout s.unoccupied) := by
  refine ⟨relamp (outcome x .timeout s.unoccupied), ?_, relamp_follows _⟩
  show Host.Outcome.next (transmit (timeOut s)) = _
  simp only [timeOut, endTransaction, busy, goes]
  rw [transmit_eq]; rfl

/-- R139, R197: a bad answer ends the transaction with its judgement. -/
theorem badAnswer_ends {c : Instr} {s : State} {x : Transaction} {v : Panel} {why : ErrorKind} (busy : s.pbc.transaction = some x)
    (goes : x.discard = false) (declared : s.panel? x.panel = some v) (bad : BadAnswer x v.keyCount why c) :
    TransactionEnds c s x (outcome x (.badFor why) s.unoccupied) := by
  have malformed : ∀ a k content, answerOf x.probe (v.keyCount.getD 0) k content = none →
      TransactionEnds (.panelFrameReceived (panelFrame a k content)) s x (outcome x (.bad .framing) s.unoccupied) :=
    fun a k content none => transactionEnds_frame busy goes a k content (by
      rw [judgeFrame_eq, keyCountOf_eq declared, none]; rfl)
  have astray : ∀ a k content answer, answerOf x.probe (v.keyCount.getD 0) k content = some answer → a.toNat ≠ x.panel →
      TransactionEnds (.panelFrameReceived (panelFrame a k content)) s x (outcome x (.bad .wrongAddress) s.unoccupied) :=
    fun a k content answer some other => transactionEnds_frame busy goes a k content (by
      rw [judgeFrame_eq, keyCountOf_eq declared, some]
      dsimp only
      rw [if_neg other]; rfl)
  cases bad with
  | timedOut poll => exact transactionEnds_timeout busy goes
  | crc body fails =>
    have := transactionEnds_body busy goes body
    rwa [show judgeFrame _ _ _ body = .bad .crc from if_neg (by simp [fails])] at this
  | truncated body checks short =>
    have := transactionEnds_body busy goes body
    rwa [judgeFrame_truncated checks short] at this
  | kind a k content other => exact malformed a k content (answerOf_kind _ _ content other)
  | replyShort a content poll short => exact malformed a _ content (poll ▸ answerOf_poll_short _ _ short)
  | replyLength a seq n rest poll length =>
    refine malformed a _ _ ?_
    rw [poll, answerOf_poll, if_neg]
    omega
  | replyEvent a seq records poll few wrong =>
    refine malformed a _ _ ?_
    have count : (byte records.length).toNat = records.length := byte_toNat (by omega)
    unfold replyContent
    rw [poll, answerOf_poll, (eventsOf_malformed records).1 wrong]
    split <;> rfl
  | replyAddress a seq records poll few right other =>
    have count : (byte records.length).toNat = records.length := byte_toNat (by omega)
    obtain ⟨es, read⟩ := Option.ne_none_iff_exists'.1 (mt (eventsOf_malformed records).2 fun ⟨e, he, wrong⟩ => right e he wrong)
    refine astray a _ _ (.reply (seq.getLsbD 0) es) ?_ other
    unfold replyContent
    rw [poll, answerOf_poll, if_pos ⟨rfl, by omega, by rw [recordBytes_length, count]⟩, read]
    rfl
  | identLength a content probe length => exact malformed a _ content (probe ▸ answerOf_probe_length _ _ length)
  | identKeys a k n seq probe range =>
    refine malformed a _ _ ?_
    rw [probe, answerOf_probe, if_neg fun h => range (within_iff.1 h.2)]
  | identAddress a k n seq probe range other =>
    refine astray a _ _ (.ident (if k.getLsbD 0 then .mixerBridge else .control) n.toNat (seq.getLsbD 0)) ?_ other
    rw [probe, answerOf_probe, if_pos ⟨rfl, within_iff.2 range⟩]

end Sys2Proof.Machine

/-! The counting of errors and the loss of a panel (R138 to R140, R151, R153). -/

namespace Sys2Proof.Machine

/-! ### A counted error (R153) -/

theorem countError_spec {p : Nat} {v : Panel} {s : State} (declared : s.panel? p = some v) (why : ErrorKind) :
    countError p why s = { s.setPanel p (v.counted why) with hlc := s.hlc.counted v } := by
  unfold countError
  rw [declared, show Config.errorCounterTop = 65535 from rfl]
  dsimp only
  unfold Panel.counted HostLink.counted
  by_cases below : v.errors < 65535
  · rw [if_pos below, if_pos below]
    by_cases top : v.errors = 65534
    · rw [if_pos (by omega), if_pos top, raise_eq]; rfl
    · rw [if_neg (by omega), if_neg top]; rfl
  · rw [if_neg below, if_neg below, if_neg (by omega)]; rfl

theorem outcome_badProbe {x : Transaction} (probe : x.probe = true) {why : ErrorKind} (late : why ≠ .timeout) (s : State) :
    outcome x (.badFor why) s = countError x.panel why s := by
  unfold outcome BusJudgement.badFor
  rw [probe]
  cases why <;> first | exact absurd rfl late | rfl

theorem outcome_badPoll {x : Transaction} (poll : x.probe = false) (why : ErrorKind) (s : State) :
    outcome x (.badFor why) s = missPoll x.panel (countError x.panel why s) := by
  unfold outcome BusJudgement.badFor
  rw [poll]
  cases why <;> rfl

theorem BadAnswer.not_timeout {x : Transaction} {keys : Option Nat} {why : ErrorKind} {c : Instr} (bad : BadAnswer x keys why c)
    (probe : x.probe = true) : why ≠ .timeout := by
  cases bad with
  | timedOut poll => rw [probe] at poll; cases poll
  | _ => exact nofun

/-- R149: an IDENT of a kind that was not expected. -/
theorem takeIdent_unexpected {p : Nat} {v : Panel} {s : State} (declared : s.panel? p = some v) {kind expected : PanelKind}
    (other : kind ≠ expected) (keys : Nat) (bit : Bool) : takeIdent p expected kind keys bit s = countError p .wrongKind s := by
  unfold takeIdent
  rw [declared]
  exact if_neg other

/-- R151: what the loss of a panel leaves. -/
theorem losePanel_spec {p : Nat} {v : Panel} {s y : State} (distinct : (s.tc.talks.map fun t => t.id).Nodup)
    (tc : y.tc = s.tc) (tme : y.tme = s.tme) (tt : y.tt = s.tt) (tou : y.tou = s.tou) (stu : y.stu = s.stu)
    (pending : y.pending = s.pending) (fd : y.fd = s.fd) :
    let u := losePanel p v y
    u.panel? p = some { v with missed := 0, state := .lost, page := false } ∧ (∀ q, q ≠ p → u.panel? q = y.panel? q) ∧
      PanelDropped p s u ∧ MixHandled s u ∧ u.fd = { s.fd with contexts := u.fd.contexts } ∧
      u.pbc = { y.pbc with panels := u.pbc.panels, panelErrors := u.pbc.panelErrors } := by
  intro u
  let x := (y.setPanel p { v with state := .lost, missed := 0, page := false }).setContext p Context.start
  have lost : u = panelStateChanged (dropPanel p x) := rfl
  have bus : (dropPanel p x).pbc = x.pbc := (dropPanel_rest p x).2.2.1
  have functions : u.fd = x.fd := by rw [lost, panelStateChanged_fd, (dropPanel_rest p x).2.2.2.1]
  have written : u = { dropPanel p x with hlc := u.hlc, pbc := u.pbc } := by rw [lost, panelStateChanged_eq]
  have frame : u.pbc = { x.pbc with panels := u.pbc.panels, panelErrors := u.pbc.panelErrors } := by
    rw [← bus]; exact (congrArg State.pbc (panelStateChanged_frame (dropPanel p x)) :)
  have panels : u.pbc.panels = x.pbc.panels := by
    rw [← bus, lost, panelStateChanged_eq]
  refine ⟨?_, fun q other => ?_, dropPanel_dropped (x := x) distinct tc tt tou stu pending (fun q => ?_) written, ?_, ?_, frame⟩
  · rw [State.panel?, panels]; exact State.panel?_setPanel_self ..
  · rw [State.panel?, panels]; exact State.panel?_setPanel_ne _ other _
  · have before : y.context q = s.context q := by rw [State.context, fd]; rfl
    rw [← before]
    exact context_setContext _ p q Context.start
  · exact (dropPanel_mixed p x).congr tc.symm tme.symm (by rw [written]) (by rw [written])
  · have contexts : ∀ f, f = x.fd → f = { s.fd with contexts := f.contexts } := fun f hf => by
      subst hf; rw [← fd]; rfl
    exact contexts _ functions

/-- Settles O46. -/
theorem panelErrorsAreCounted : Obligations.PanelErrorsAreCounted := by
  refine ⟨?_, ?_, fun s x busy probe goes => ?_, ?_, ?_⟩
  · intro c s x v why busy goes small declared bad
    let y := countError x.panel why s.unoccupied
    have counted : y = { s.unoccupied.setPanel x.panel (v.counted why) with hlc := s.hlc.counted v } :=
      countError_spec (s := s.unoccupied) declared why
    have ends := badAnswer_ends busy goes declared bad
    have record : y.panel? x.panel = some (v.counted why) := by rw [counted]; exact State.panel?_setPanel_self ..
    have others : ∀ q, q ≠ x.panel → y.panel? q = s.panel? q := fun q other => by
      rw [counted]; exact State.panel?_setPanel_ne _ other _
    refine ⟨fun probe => ⟨y, ?_, record, others, by rw [counted]; rfl⟩, fun poll few => ?_, fun poll many distinct => ?_⟩
    · rw [outcome_badProbe probe (bad.not_timeout probe)] at ends; exact ends
    · rw [outcome_badPoll poll] at ends
      have missed : missPoll x.panel y = y.setPanel x.panel { v.counted why with missed := v.missed + 1 } := by
        unfold missPoll
        rw [record]
        exact if_neg (by show ¬3 ≤ v.missed + 1; omega)
      rw [show countError x.panel why s.unoccupied = y from rfl, missed] at ends
      refine ⟨_, ends, State.panel?_setPanel_self .., fun q other => (State.panel?_setPanel_ne _ other _).trans (others q other), ?_⟩
      rw [counted]; rfl
    · rw [outcome_badPoll poll] at ends
      have missed : missPoll x.panel y = losePanel x.panel (v.counted why) y := by
        unfold missPoll
        rw [record]
        exact if_pos many
      rw [show countError x.panel why s.unoccupied = y from rfl, missed] at ends
      obtain ⟨h, reported, told⟩ := losePanel_reported x.panel (v.counted why) y
      have fields : y.tc = s.tc ∧ y.tme = s.tme ∧ y.tt = s.tt ∧ y.tou = s.tou ∧ y.stu = s.stu ∧ y.pending = s.pending ∧
          y.fd = s.fd ∧ y.rc = s.rc ∧ y.hlc = s.hlc.counted v ∧ y.pbc.panelErrors = s.pbc.panelErrors := by
        rw [counted]; exact ⟨rfl, rfl, rfl, rfl, rfl, rfl, rfl, rfl, rfl, rfl⟩
      obtain ⟨tc, tme, tt, tou, stu, pending, fd, rc, link, errors⟩ := fields
      obtain ⟨lost, rest, dropped, mixed, contexts, bus⟩ := losePanel_spec (p := x.panel) (v := v.counted why) distinct tc tme tt tou stu pending fd
      rw [link] at reported
      rw [errors] at told
      refine ⟨_, ends, lost, fun q other => (rest q other).trans (others q other), dropped, (losePanel_rc ..).trans rc, mixed, contexts, ?_,
        h, reported.congr (by rw [tc]) tme.symm rfl rfl, told⟩
      refine bus.trans ?_
      rw [counted]
      rfl
  · intro s x v k n seq busy probe goes small declared range wrong
    have address : (byte x.panel).toNat = x.panel := byte_toNat (by omega)
    let kind : PanelKind := if k.getLsbD 0 then .mixerBridge else .control
    have unexpected : kind ≠ x.kind := fun same => wrong (by
      rw [← same]
      unfold kind
      cases k.getLsbD 0 <;> simp)
    have counted := countError_spec (s := s.unoccupied) declared .wrongKind
    refine ⟨countError x.panel .wrongKind s.unoccupied, transactionEnds_frame busy goes _ _ _ ?_, ?_, fun q other => ?_, ?_⟩
    · rw [judgeFrame_eq, probe, answerOf_probe, if_pos ⟨rfl, within_iff.2 range⟩]
      dsimp only
      rw [if_pos address]
      unfold outcome
      rw [probe]
      exact (takeIdent_unexpected (s := s.unoccupied) declared unexpected ..).symm
    · rw [counted]; exact State.panel?_setPanel_self ..
    · rw [counted]; exact State.panel?_setPanel_ne _ other _
    · rw [counted]; rfl
  · have ends := transactionEnds_timeout busy goes
    unfold outcome at ends
    rwa [probe] at ends
  · intro c s x command busy discarded
    have ended : ∀ j, transmit (endTransaction j s) = { s with
        hlc := s.hlc.begun, pbc := chooseNext x.probe { s.pbc with transaction := none } } := fun j => by
      rw [transmit_eq]
      unfold endTransaction
      rw [busy]
      dsimp only
      rw [if_pos discarded]
    rcases command with rfl | ⟨bytes, rfl⟩
    · exact congrArg Host.Outcome.next (ended _)
    · exact congrArg Host.Outcome.next (ended fun t y => judgeFrame t.probe t.panel (y.keyCountOf t.panel) bytes)
  · intro c s command idle
    have stands : ∀ j, endTransaction j s = s := fun j => by
      unfold endTransaction; rw [idle]
    rcases command with rfl | ⟨bytes, rfl⟩
    · show Host.Outcome.next (transmit (timeOut s)) = _
      rw [timeOut, stands, transmit_eq]
    · show Host.Outcome.next (transmit (receivePanelFrame bytes s)) = _
      rw [transmit_eq]
      have received : receivePanelFrame bytes s = s := by
        unfold receivePanelFrame
        cases bytes with
        | nil => rfl
        | cons b body => dsimp only; rw [stands]; split <;> rfl
      rw [received]

end Sys2Proof.Machine

/-! Key presses: the use checks (R164, R165, R171). -/

namespace Sys2Proof.Machine

/-! ### An event that is taken -/

/-- R164: the taking of an event leaves every reading but that of the key event queue. -/
theorem Taken.cases {e : KeyEvent} {s s1 : State} (taken : Taken e s s1) :
    ∃ events, s1 = { s with pbc := { s.pbc with events := events } } := by
  rcases taken with ⟨-, rfl⟩ | ⟨rest, -, rfl⟩
  · exact ⟨s1.pbc.events, rfl⟩
  · exact ⟨rest, rfl⟩

theorem Taken.panel?_eq {e : KeyEvent} {s s1 : State} (taken : Taken e s s1) (p : Nat) : s1.panel? p = s.panel? p := by
  obtain ⟨events, rfl⟩ := taken.cases; rfl

theorem Taken.key_eq {e : KeyEvent} {s s1 : State} (taken : Taken e s s1) (p k : Nat) : s1.key p k = s.key p k := by
  obtain ⟨events, rfl⟩ := taken.cases; rfl

/-- R165, R171: a press of an IDLE key that a use check refuses. -/
theorem press_refused {p k : Nat} {v : Panel} {s s1 : State} (taken : Taken ⟨p, .press k⟩ s s1) (idle : (s.key p k).state = .idle)
    (declared : s.panel? p = some v) (served : v.state = .online ∨ v.state = .degraded) {why : Reason}
    (refused : s1.usedFunction p k v = .error why) :
    ∃ u, EventEnds (.keyPress p k) s u ∧ KeyRefused p k v why s1 u := by
  have record : s1.panel? p = some v := (taken.panel?_eq p).trans declared
  have ends := press_ends taken
  have pressed : handlePress p k s1 = keyRefusal p k why s1 := by
    unfold handlePress
    rw [taken.key_eq, if_pos idle, record]
    dsimp only
    rw [refused]
    exact if_pos ((inService_iff record).2 served)
  rw [pressed] at ends
  exact ⟨_, ends, keyRefusal_refused why record⟩

theorem pressIdle_unserved {p k : Nat} {s : State} (unserved : s.inService p = false) (target : Target) (mode : TalkMode) (level : Int)
    (priority : Nat) : pressIdle p k target mode level priority s = s := by
  unfold pressIdle
  cases s.panel? p with
  | none => rfl
  | some v => exact if_neg (by simp [unserved])

/-- R165 step 4: what is handed on without capture does nothing. -/
theorem handOnUncaptured_unserved {p k : Nat} {s : State} (unserved : s.inService p = false) (f : FunctionAction) :
    handOnUncaptured p k f s = s := by
  unfold handOnUncaptured
  cases f with
  | talk target dom mode level priority => exact pressIdle_unserved unserved target mode level priority
  | call c => exact if_pos (by simp [unserved])
  | _ => rfl

theorem handlePress_unserved {p k : Nat} {s : State} (idle : (s.key p k).state = .idle) (unserved : s.inService p = false) :
    handlePress p k s = s := by
  unfold handlePress
  rw [if_pos idle]
  cases s.panel? p with
  | none => rfl
  | some v =>
    dsimp only
    cases s.usedFunction p k v with
    | error why => exact if_neg (by simp [unserved])
    | ok f => exact (if_neg (by simp [unserved])).trans (handOnUncaptured_unserved unserved f.action)

/-- R164: an event that another one stands before. -/
theorem takeEvent_behind {e x : KeyEvent} {rest : List KeyEvent} {s : State} (waiting : s.pbc.events = x :: rest) (other : x ≠ e)
    (handle : State → State) : takeEvent e handle s = s := by
  unfold takeEvent
  rw [waiting]
  exact if_neg other

/-- Settles O48. -/
theorem pressesAreChecked : Obligations.PressesAreChecked := by
  refine ⟨fun p k s s1 taken idle => ⟨fun undeclared => ?_, ?_⟩, ?_⟩
  · have ends := press_ends taken
    have unserved : s1.inService p = false := by
      unfold State.inService State.panelState?
      rw [taken.panel?_eq, undeclared]; rfl
    rwa [handlePress_unserved ((congrArg KeyTalk.state (taken.key_eq p k)).trans idle) unserved] at ends
  · intro v declared served slot
    have record : s1.panel? p = some v := (taken.panel?_eq p).trans declared
    have bound : s1.binding p v.page k = slot := by obtain ⟨events, rfl⟩ := taken.cases; rfl
    have functions : ∀ n, s1.function? n = s.function? n := fun n => by obtain ⟨events, rfl⟩ := taken.cases; rfl
    refine ⟨fun unserved => ?_, fun here null => ?_, fun here bound' empty => ?_, fun f here bound' found refused => ?_⟩
    · have ends := press_ends taken
      have outside : s1.inService p = false := by
        by_contra inside
        exact unserved ((inService_iff record).1 (by simpa using inside))
      rwa [handlePress_unserved ((congrArg KeyTalk.state (taken.key_eq p k)).trans idle) outside] at ends
    · exact press_refused taken idle declared here (if_pos (bound.trans null))
    · refine press_refused taken idle declared here ?_
      unfold State.usedFunction
      rw [bound, if_neg bound', functions, empty]
    · refine press_refused taken idle declared here ?_
      have denied : f.allows v = false := by
        by_contra allowed
        obtain ⟨level, domain⟩ := (KeyFunction.allows_iff f v).1 (by simpa using allowed)
        rcases refused with low | ⟨function, panel⟩ | ⟨function, panel⟩
        · omega
        · simp [function, panel] at domain
        · simp [function, panel] at domain
      unfold State.usedFunction
      rw [bound, if_neg bound', functions, found]
      exact if_neg (by simp [denied])
  · intro c e x rest s carries waiting other
    have behind := fun handle => takeEvent_behind waiting other handle
    cases c with
    | keyPress p k =>
      show Host.Outcome.next (transmit (takeEvent ⟨p, .press k⟩ _ s)) = _
      rw [← carries, behind, transmit_eq]
    | keyRelease p k =>
      show Host.Outcome.next (transmit (takeEvent ⟨p, .release k⟩ _ s)) = _
      rw [← carries, behind, transmit_eq]
    | knob p delta =>
      show Host.Outcome.next (transmit (takeEvent ⟨p, .knob delta⟩ _ s)) = _
      rw [← carries, behind, transmit_eq]
    | busState p b i =>
      show Host.Outcome.next (transmit (takeEvent ⟨p, .busState b i⟩ _ s)) = _
      rw [← carries, behind, transmit_eq]
    | _ => exact carries.elim

end Sys2Proof.Machine

/-! What a captured function does, TALK apart (R163, R165 to R169, R172). -/

namespace Sys2Proof.Machine

/-! ### The functions -/

theorem panelTake_offered {p k : Nat} {v : Panel} {s : State} (declared : s.panel? p = some v) (d : Nat) (mask : LevelMask) (x : Nat) :
    PanelTakeOffered p k v ⟨d, mask, x, .panel p k, false⟩ s (panelTake p k d mask x s) := by
  have refused : ∀ why, offerTake ⟨d, mask, x, .panel p k, false⟩ s = .error why → KeyRefused p k v why s (panelTake p k d mask x s) :=
    fun why error => by unfold panelTake; rw [error]; exact keyRefusal_refused why declared
  refine ⟨fun why check => refused why (offerTake_refused check), fun e check => ⟨fun full => refused _ (offerTake_full check full),
    fun room => ?_⟩⟩
  obtain ⟨firings, accepted, counts⟩ := offerTake_accepted check room
  unfold panelTake
  rw [accepted]
  exact ⟨counts, rfl⟩

/-- R6: a protect toggle, by the domain of the destination and its protect state. -/
theorem panelToggle_spec {p k : Nat} {v : Panel} {s : State} (declared : s.panel? p = some v) (d : Nat) :
    let u := panelToggle p k d s
    let allowed : Prop := (s.dest d).domain = .shared ∨ ((s.dest d).domain = .a ∧ v.domain = .a) ∨
      ((s.dest d).domain = .b ∧ v.domain = .b)
    let becomes (x : Protect) : Prop := u.dest d = { s.dest d with protect := x } ∧ (∀ e, e ≠ d → u.dest e = s.dest e) ∧
      u = { s with rc := { s.rc with dests := u.rc.dests } }
    (¬allowed → KeyRefused p k v .denied s u) ∧ (allowed → (s.dest d).protect = .none → becomes (.panel p)) ∧
      (allowed → (s.dest d).protect = .panel p → becomes .none) ∧
      (∀ q, allowed → (s.dest d).protect = .panel q → q ≠ p → KeyRefused p k v .prot s u) ∧
      (allowed → (s.dest d).protect = .systemLock ∨ (s.dest d).protect = .startupLock → KeyRefused p k v .locked s u) := by
  intro u allowed becomes
  obtain ⟨-, -, -, rule⟩ := domainPermissionAndToggle
  obtain ⟨outside, inside⟩ := rule s p d
  have passes : s.domainPasses (.panel p 0) d = true ↔ allowed := by
    rw [domainPasses_panel, declared]
    simp [allowed]
  have refused : ∀ why, s.toggled p d = .error why → KeyRefused p k v why s u := fun why error => by
    unfold u panelToggle; rw [error]; exact keyRefusal_refused why declared
  have written : ∀ x, s.toggled p d = .ok x → becomes x := fun x ok => by
    unfold becomes u panelToggle
    rw [ok]
    exact ⟨State.dest_setDest_self .., fun e other => State.dest_setDest_ne _ other _, rfl⟩
  refine ⟨fun h => refused _ (outside (by simpa using mt passes.1 h)), fun h => ?_, fun h => ?_, fun q h => ?_, fun h => ?_⟩ <;>
    obtain ⟨free, own, others, locks⟩ := inside (passes.2 h)
  · exact fun protect => written _ (free protect)
  · exact fun protect => written _ (own protect)
  · exact fun protect other => refused _ (others q other protect)
  · exact fun protect => refused _ (locks protect)

/-- R27, R167: a panel firing. -/
theorem panelFiring_spec {p k : Nat} {v : Panel} {s : State} (declared : s.panel? p = some v) (n : Nat) :
    let u := panelFiring p k n s
    let passing := s.passing n (.panel p k) false
    let used := s.pendingEntries + s.drawnEntries
    let own := (acceptedEntries passing ([], s.rc.queue, [])).1
    let left := (acceptedEntries passing ([], s.rc.queue, [])).2.1
    let replies := (acceptedEntries passing ([], s.rc.queue, [])).2.2
    let counts : Counts := ⟨0, (s.salvo n).length - passing.length, 0, passing.length - own.length, 0⟩
    (passing = [] → u = s) ∧ (passing ≠ [] → 64 < used + passing.length → KeyRefused p k v .busy s u) ∧
      (passing ≠ [] → used + passing.length ≤ 64 →
        (∀ q m, u.pendingFirings q m = s.pendingFirings q m - acceptedFirings q m passing s.rc.queue +
          if q = p ∧ m = n then 1 else 0) ∧
        u = { s with
          hlc := { s.hlc with outbound := s.hlc.outbound ++ replies }
          rc := { s.rc with queue := left ++ [⟨some ⟨.panel p k, n, counts⟩, own⟩] }
          fd := { s.fd with firings := u.fd.firings } }) := by
  intro u passing used own left replies counts
  refine ⟨fun none => ?_, fun filled full => ?_, fun filled room => ?_⟩
  · unfold u panelFiring; rw [fireSalvo_ended none]
  · unfold u panelFiring
    rw [fireSalvo_busy filled full]
    exact keyRefusal_refused .busy declared
  · obtain ⟨firings, accepted, counted⟩ := fireSalvo_accepted filled room
    unfold u panelFiring
    rw [accepted]
    refine ⟨fun q m => ?_, rfl⟩
    dsimp only
    by_cases same : q = p ∧ m = n
    · obtain ⟨rfl, rfl⟩ := same
      rw [State.pendingFirings_setPendingFirings_self, if_pos ⟨rfl, rfl⟩, ← counted]
      rfl
    · rw [State.pendingFirings_setPendingFirings_ne _ same, if_neg same, ← counted]
      rfl

/-- R169: a context written. -/
theorem setContext_spec (p : Nat) (x : Context) (s : State) : (s.setContext p x).context p = x ∧
    (∀ q, q ≠ p → (s.setContext p x).context q = s.context q) ∧
    s.setContext p x = { s with fd := { s.fd with contexts := (s.setContext p x).fd.contexts } } :=
  ⟨State.context_setContext_self .., fun _ other => State.context_setContext_ne _ other _, rfl⟩

/-- R166: a held-key record written. -/
theorem setHeld_spec (p k : Nat) (h : Option Held) (s : State) : (s.setHeld p k h).held? p k = h ∧
    (∀ q j, ¬(q = p ∧ j = k) → (s.setHeld p k h).held? q j = s.held? q j) ∧
    s.setHeld p k h = { s with fd := { s.fd with held := (s.setHeld p k h).fd.held } } :=
  ⟨State.held?_setHeld_self .., fun _ _ other => State.held?_setHeld_ne _ other _, rfl⟩

theorem called_iff (s : State) (p k : Nat) :
    (s.tou.holders.any (CallEntry.ofKey p k)) = true ↔ ∃ h ∈ s.tou.holders, h.panel = p ∧ h.key = k := by
  simp [CallEntry.ofKey]

/-- R70: a call press of a panel in service. -/
theorem callPress_cases {p k : Nat} {s : State} (served : s.inService p = true) (c : Nat) :
    ((∃ h ∈ s.tou.holders, h.panel = p ∧ h.key = k) → callPress p k c s = s) ∧
    (¬(∃ h ∈ s.tou.holders, h.panel = p ∧ h.key = k) →
      (64 ≤ s.tou.holders.length → callPress p k c s = keyRefusal p k .noSpace s) ∧
      (s.tou.holders.length < 64 → callPress p k c s = setHolders (s.tou.holders ++ [⟨p, k, c⟩]) s)) := by
  unfold callPress
  rw [if_neg (by simp [served]), show Config.callPlaces = 64 from rfl]
  refine ⟨fun called => if_pos ((called_iff ..).2 called), fun fresh => ?_⟩
  rw [if_neg (mt (called_iff ..).1 fresh)]
  exact ⟨fun full => if_pos full, fun room => if_neg (Nat.not_le.2 room)⟩

/-- R172: an entry offered to the system key queue. -/
theorem offerSystemKey_eq (e : SystemKeyEntry) (s : State) : offerSystemKey e s = { s with
    hlc := s.hlc.raised .systemKey
    fd := { s.fd with
      systemKeys := if s.fd.systemKeys.length < 16 then s.fd.systemKeys ++ [e] else s.fd.systemKeys } } := by
  unfold offerSystemKey
  rw [raise_eq, show Config.systemKeyPlaces = 16 from rfl]
  split <;> rfl

/-- Settles O49: each function by its own lemma. -/
theorem capturedFunctionsAct : Obligations.CapturedFunctionsAct := by
  unfold Obligations.CapturedFunctionsAct
  intro p k v f s s1 taken captures ends refused take toggle selects holds
  obtain ⟨events, rfl⟩ := taken.cases
  let s1 : State := { s with pbc := { s.pbc with events := events } }
  have pressed : ends (carryOut p k f.action s1) := by
    have := press_ends taken
    rwa [captured_press taken captures] at this
  have declared : s1.panel? p = some v := captures.panel
  have served : s1.inService p = true := (inService_iff declared).2 captures.service
  have toggles : ∀ d, ends (panelToggle p k d s1) → toggle d := fun d done => by
    obtain ⟨denied, free, own, others, locks⟩ := panelToggle_spec (k := k) declared d
    exact ⟨fun h => ⟨_, done, denied h⟩, fun h x => ⟨_, done, free h x⟩, fun h x => ⟨_, done, own h x⟩,
      fun q h x other => ⟨_, done, others q h x other⟩, fun h x => ⟨_, done, locks h x⟩⟩
  have takes : ∀ d mask x, ends (panelTake p k d mask x s1) → take d mask x := fun d mask x done =>
    ⟨_, done, panelTake_offered declared d mask x⟩
  have unset : ends (keyRefusal p k .noContext s1) → refused .noContext := fun done => ⟨_, done, keyRefusal_refused _ declared⟩
  cases action : f.action with
  | routeTake d mask x => rw [action] at pressed; exact takes d mask x pressed
  | selectDest d => rw [action] at pressed; exact ⟨_, pressed, setContext_spec p _ s1⟩
  | presetSource x => rw [action] at pressed; exact ⟨_, pressed, setContext_spec p _ s1⟩
  | takePreset mask =>
    rw [action] at pressed
    refine ⟨fun d x context => ?_, fun absent => unset ?_⟩
    · have chosen : carryOut p k (.takePreset mask) s1 = panelTake p k d mask x s1 := by
        unfold carryOut
        rw [show s1.context p = ⟨some d, some x⟩ from context]
      rw [chosen] at pressed
      exact takes d mask x pressed
    · have chosen : carryOut p k (.takePreset mask) s1 = keyRefusal p k .noContext s1 := by
        unfold carryOut
        rcases absent with absent | absent
        · rw [show (s1.context p).dest = none from absent]
        · rw [show (s1.context p).source = none from absent]
          cases (s1.context p).dest <;> rfl
      rwa [chosen] at pressed
  | salvoFire n =>
    rw [action] at pressed
    obtain ⟨none, busy, accepted⟩ := panelFiring_spec (k := k) declared n
    refine ⟨fun empty => ?_, fun filled full => ⟨_, pressed, busy filled full⟩, fun filled room => ⟨_, pressed, accepted filled room⟩⟩
    have still : carryOut p k (.salvoFire n) s1 = s1 := none empty
    rwa [still] at pressed
  | protectToggle dest =>
    rw [action] at pressed
    cases dest with
    | some d => exact toggles d pressed
    | none =>
      refine ⟨fun d context => ?_, fun absent => unset ?_⟩
      · have chosen : carryOut p k (.protectToggle none) s1 = panelToggle p k d s1 := by
          unfold carryOut
          rw [show (s1.context p).dest = some d from context]
        rw [chosen] at pressed
        exact toggles d pressed
      · have chosen : carryOut p k (.protectToggle none) s1 = keyRefusal p k .noContext s1 := by
          unfold carryOut
          rw [show (s1.context p).dest = none from absent]
        rwa [chosen] at pressed
  | talk target dom mode level priority => exact trivial
  | call c =>
    rw [action] at pressed
    let w := s1.setHeld p k (some (.call c))
    obtain ⟨record, others, frame⟩ := setHeld_spec p k (some (.call c)) s1
    obtain ⟨repeated, fresh⟩ := callPress_cases (s := w) (k := k) served c
    refine ⟨fun called => ?_, fun uncalled full => ?_, fun uncalled room => ?_⟩
    · have still : carryOut p k (.call c) s1 = w := repeated called
      rw [still] at pressed
      exact ⟨w, pressed, ⟨record, others⟩, frame⟩
    · have refusal : carryOut p k (.call c) s1 = keyRefusal p k .noSpace w := (fresh uncalled).1 full
      rw [refusal] at pressed
      exact ⟨_, w, pressed, ⟨record, others⟩, frame, keyRefusal_refused _ declared⟩
    · have joined : carryOut p k (.call c) s1 = setHolders (s.tou.holders ++ [⟨p, k, c⟩]) w := (fresh uncalled).2 room
      rw [joined] at pressed
      refine ⟨_, pressed, ⟨record, others⟩, (setHolders_tou _ w).2, fun n _ _ => ?_, rfl⟩
      unfold setHolders
      rw [output_driveAll, driveOf_driveAll]
  | pageToggle =>
    rw [action] at pressed
    have turned : carryOut p k .pageToggle s1 = s1.setPanel p { v with page := !v.page } := by
      unfold carryOut togglePage
      rw [declared]
    rw [turned] at pressed
    exact ⟨_, pressed, State.panel?_setPanel_self .., fun q other => State.panel?_setPanel_ne _ other _, rfl⟩
  | systemKey code =>
    rw [action] at pressed
    obtain ⟨record, others, frame⟩ := setHeld_spec p k (some (.systemKey code)) s1
    have offered : carryOut p k (.systemKey code) s1 = _ := offerSystemKey_eq ⟨p, k, code, false⟩ (s1.setHeld p k (some (.systemKey code)))
    rw [offered] at pressed
    exact ⟨_, pressed, ⟨record, others⟩, rfl⟩

end Sys2Proof.Machine

/-! Talk keys that are pressed (R84, R86, R88 to R91, R114, R116). -/

namespace Sys2Proof.Machine

/-! ### What the creation and the endings of talks leave alone -/

theorem State.eq_outside {s t : State} (rc : t.rc = s.rc) (stu : t.stu = s.stu) (tt : t.tt = s.tt) (tou : t.tou = s.tou)
    (pbc : t.pbc = s.pbc) (fd : t.fd = s.fd) (pending : t.pending = s.pending) :
    t = { s with hlc := t.hlc, tc := t.tc, tme := t.tme } := by
  rw [← rc, ← stu, ← tt, ← tou, ← pbc, ← fd, ← pending]

/-- R88: a key talk state written. -/
theorem setKey_spec (p k : Nat) (y : KeyTalk) (s : State) : (s.setKey p k y).key p k = y ∧
    (∀ q j, ¬(q = p ∧ j = k) → (s.setKey p k y).key q j = s.key q j) ∧
    s.setKey p k y = { s with tc := { s.tc with keys := (s.setKey p k y).tc.keys } } :=
  ⟨State.key_setKey_self .., fun _ _ other => State.key_setKey_ne _ other _, rfl⟩

/-- R90, R91: the talk of a key ends and the key moves. -/
structure KeyEnded (p k : Nat) (y : KeyTalk) (s u : State) : Prop where
  talks : SameTalks u.tc.talks (s.tc.talks.filter fun x => (s.key p k).talk != some x.id)
  ifbs : IfbsLeft (s.key p k).talk.toList s u
  key : u.key p k = y
  others : ∀ q j, ¬(q = p ∧ j = k) → u.key q j = s.key q j
  rest : u = { s with
    hlc := u.hlc
    tc := { s.tc with talks := u.tc.talks, ifbs := u.tc.ifbs, keys := u.tc.keys }
    tme := u.tme }
  mixed : MixHandled s u
  reported : TalkReported s u s.hlc u.hlc

theorem endKeyTalk_ended (p k : Nat) (y : KeyTalk) (s : State) :
    KeyEnded p k y s ((endTalks (s.key p k).talk.toList s).setKey p k y) := by
  let ids := (s.key p k).talk.toList
  let e := endTalks ids s
  have keys : ∀ q j, e.key q j = s.key q j := fun q j => by
    rw [State.key, endTalks_tc_eq]; rfl
  have left : (s.tc.talks.filter fun x => !ids.contains x.id) = s.tc.talks.filter fun x => (s.key p k).talk != some x.id := by
    refine List.filter_congr fun x _ => ?_
    unfold ids
    cases (s.key p k).talk with
    | none => rfl
    | some z => by_cases same : z = x.id <;> simp [same, Ne.symm]
  have talks := endTalks_talks ids s
  rw [left] at talks
  refine ⟨talks, (ifbsLeft_endTalks ids s).congr rfl rfl rfl rfl, State.key_setKey_self .., fun q j other =>
    (State.key_setKey_ne _ other _).trans (keys q j), ?_, (endTalks_mixed ids s).congr rfl rfl rfl rfl |>.of_same rfl rfl rfl rfl,
    (endTalks_reported ids s).congr rfl rfl rfl rfl⟩
  have moved : (e.setKey p k y).tc = { s.tc with talks := e.tc.talks, ifbs := e.tc.ifbs, keys := (e.setKey p k y).tc.keys } :=
    (congrArg (fun c => { c with keys := (e.setKey p k y).tc.keys }) (endTalks_tc_eq ids s) :)
  refine (State.eq_outside (s := s) (t := e.setKey p k y) (endTalks_rc ..) (endTalks_stu ..) (endTalks_tt ..) (endTalks_tou ..)
    (endTalks_pbc ..) (endTalks_fd ..) (endTalks_pending ..)).trans ?_
  exact (congrArg (fun c => { s with hlc := e.hlc, tc := c, tme := e.tme }) moved :)

/-- R91: a press of a key that is not IDLE. -/
theorem pressOwned_spec (p k : Nat) (s : State) :
    let cancels : Prop := (s.key p k).state = .latched ∧ ((s.key p k).mode = some .latching ∨ (s.key p k).mode = some .auto)
    (¬cancels → pressOwned p k s = s) ∧
      (cancels → KeyEnded p k ⟨.heldCancel, (s.key p k).mode, none, false⟩ s (pressOwned p k s)) := by
  intro cancels
  unfold pressOwned
  dsimp only
  refine ⟨fun stays => ?_, fun ends => ?_⟩
  · split
    · next mode state => exact absurd ⟨state, .inl mode⟩ stays
    · next mode state => exact absurd ⟨state, .inr mode⟩ stays
    · rfl
  · obtain ⟨state, mode | mode⟩ := ends <;> rw [mode, state] <;> dsimp only <;> rw [← mode] <;> exact endKeyTalk_ended ..

end Sys2Proof.Machine

/-! Talk keys that are pressed (R84, R86, R88 to R91, R114, R116): the offers of IDLE keys, and O50. -/

namespace Sys2Proof.Machine

/-- R89: the offer that a press of a talk key of a panel makes. -/
def Panel.talkOffer (v : Panel) (p k : Nat) (target : Target) (level : Int) (priority : Nat) : TalkOffer :=
  ⟨v.ownPort, target, level, priority, .panel p k, some v.domain⟩

section
variable {p k : Nat} {v : Panel} {s : State} (declared : s.panel? p = some v) (served : s.inService p = true) {target : Target}
  (mode : TalkMode) {level : Int} {priority : Nat}
include declared served

/-- R89: a press whose offer is refused. -/
theorem pressIdle_refused {why : Reason} (refused : s.offerRefusal (v.talkOffer p k target level priority) = some why) :
    pressIdle p k target mode level priority s = keyRefusal p k why (s.setKey p k ⟨.heldCancel, some mode, none, false⟩) := by
  unfold pressIdle
  rw [declared]
  dsimp only
  rw [if_pos served]
  unfold Panel.talkOffer at refused
  rw [refused]

/-- R89: a press whose offer is accepted. -/
theorem pressIdle_accepted {q : Nat} (port : v.ownPort = some q)
    (accepted : s.offerRefusal (v.talkOffer p k target level priority) = none) :
    let new := s.newTalk (v.talkOffer p k target level priority) q
    pressIdle p k target mode level priority s = (createTalk new s).setKey p k
      ⟨if mode = .latching then .latched else .held, some mode, some new.id, mode == .auto⟩ := by
  unfold pressIdle
  rw [declared]
  dsimp only
  rw [if_pos served]
  unfold Panel.talkOffer at accepted ⊢
  rw [accepted, port]
  cases mode <;> rfl

end

/-- R86, R89: the talk of a key is created and the key captures it. -/
structure KeyTalkBegun (p k : Nat) (new : Talk) (y : KeyTalk) (s u : State) : Prop where
  talks : TalkJoined new s.tc.talks s.tc.counter u.tc.talks u.tc.counter
  ifbs : IfbJoined new s u
  key : u.key p k = y
  others : ∀ q j, ¬(q = p ∧ j = k) → u.key q j = s.key q j
  rest : u = { s with
    hlc := u.hlc
    tc := { s.tc with talks := u.tc.talks, ifbs := u.tc.ifbs, keys := u.tc.keys, counter := u.tc.counter }
    tme := u.tme }
  mixed : MixHandled s u
  reported : TalkReported s u s.hlc u.hlc

theorem createKeyTalk_begun (p k : Nat) (new : Talk) (y : KeyTalk) (s : State) :
    KeyTalkBegun p k new y s ((createTalk new s).setKey p k y) := by
  let c := createTalk new s
  obtain ⟨talks, ifbs, frame⟩ := createTalk_joined new s
  have keys : ∀ q j, c.key q j = s.key q j := fun q j => by
    rw [State.key, show c.tc = _ from frame]; rfl
  have moved : (c.setKey p k y).tc =
      { s.tc with talks := c.tc.talks, ifbs := c.tc.ifbs, keys := (c.setKey p k y).tc.keys, counter := c.tc.counter } :=
    (congrArg (fun tc => { tc with keys := (c.setKey p k y).tc.keys }) frame :)
  refine ⟨talks, ifbs, State.key_setKey_self .., fun q j other => (State.key_setKey_ne _ other _).trans (keys q j), ?_,
    (createTalk_mixed new s).of_same rfl rfl rfl rfl, (createTalk_reported new s).congr rfl rfl rfl rfl⟩
  refine (State.eq_outside (s := s) (t := c.setKey p k y) (createTalk_rc ..) (createTalk_stu ..) (createTalk_tt ..)
    (createTalk_tou ..) (createTalk_pbc ..) (createTalk_fd ..) (createTalk_pending ..)).trans ?_
  exact (congrArg (fun tc => { s with hlc := c.hlc, tc := tc, tme := c.tme }) moved :)

/-- Settles O50: the offer by `pressIdle_refused` and `pressIdle_accepted`, the rest by `pressOwned_spec`. -/
theorem talkKeysArePressed : Obligations.TalkKeysArePressed := by
  refine ⟨?_, ?_⟩
  · intro p k v f target x mode level priority s s1 taken captures action moved refused
    obtain ⟨events, rfl⟩ := taken.cases
    let s1 : State := { s with pbc := { s.pbc with events := events } }
    let o := v.talkOffer p k target level priority
    have declared : s1.panel? p = some v := captures.panel
    have served : s1.inService p = true := (inService_iff declared).2 captures.service
    have pressed : EventEnds (.keyPress p k) s (pressIdle p k target mode level priority s1) := by
      have := press_ends taken
      rwa [captured_press taken captures, action] at this
    have refusal : ∀ why, s1.offerRefusal o = some why → refused why := fun why refusal => by
      rw [pressIdle_refused declared served mode refusal] at pressed
      obtain ⟨key, others, frame⟩ := setKey_spec p k ⟨.heldCancel, some mode, none, false⟩ s1
      exact ⟨_, _, pressed, ⟨key, others⟩, frame, keyRefusal_refused why declared⟩
    refine ⟨fun absent => refusal _ ?_, fun q port => ?_⟩
    · unfold State.offerRefusal
      rw [show o.talker = none from absent]
    intro places room
    have talker : o.talker = some q := port
    have rooms : s1.hasRoom o q ↔ room := by
      have reserved : s1.reservationOf o.target q o.domain = places := by
        unfold places
        cases target <;> rfl
      unfold State.hasRoom
      rw [reserved]
      rfl
    refine ⟨fun role => refusal _ ?_, fun normal invalid => refusal _ ?_, fun normal valid full => refusal _ ?_, fun normal valid spacious => ?_⟩
    · unfold State.offerRefusal
      rw [talker]
      exact if_pos (bne_iff_ne.2 role)
    · unfold State.offerRefusal
      rw [talker]
      have role : ((s1.port q).role != .normal) = false := bne_eq_false_iff_eq.2 normal
      have target : (!s1.targetValid o.target) = true := congrArg (!·) invalid
      exact (if_neg (by rw [role]; decide)).trans (if_pos target)
    · exact (offerRefusal_hasRoom talker normal valid).2 (mt rooms.1 full)
    · let new := s1.newTalk o q
      have accepted := (offerRefusal_hasRoom talker normal valid).1 (rooms.2 spacious)
      rw [pressIdle_accepted declared served mode port accepted] at pressed
      have begun := createKeyTalk_begun p k new ⟨if mode = .latching then .latched else .held, some mode, some new.id, mode == .auto⟩ s1
      have record : new.bare = ⟨new.id, q, target, level, priority, .panel p k, some v.domain, s.tc.counter, places, []⟩ := by
        unfold places
        cases target <;> rfl
      exact ⟨_, new, pressed, freeTalkId_lowest spacious.1, record, begun.talks, begun.ifbs, ⟨begun.key, begun.others⟩, begun.rest,
        begun.mixed.of_same rfl rfl rfl rfl, begun.reported.congr rfl rfl rfl rfl⟩
  · intro p k s s1 taken owned cancels
    obtain ⟨events, rfl⟩ := taken.cases
    let s1 : State := { s with pbc := { s.pbc with events := events } }
    have pressed : EventEnds (.keyPress p k) s (pressOwned p k s1) := by
      have := press_ends taken
      rwa [show handlePress p k s1 = pressOwned p k s1 from if_neg owned] at this
    obtain ⟨stays, ends⟩ := pressOwned_spec p k s1
    refine ⟨fun not => ?_, fun cancelled => ?_⟩
    · rwa [stays not] at pressed
    · have ended := ends cancelled
      exact ⟨_, pressed, ended.talks, ended.ifbs.congr rfl rfl rfl rfl, ended.key, ended.others, ended.rest,
        ended.mixed.of_same rfl rfl rfl rfl, ended.reported.congr rfl rfl rfl rfl⟩

end Sys2Proof.Machine

/-! Key releases (R71, R90, R91, R116, R170, R172). -/

namespace Sys2Proof.Machine

/-- R90, R91: a release of a talk key. -/
theorem releaseOwned_cases (p k : Nat) (s : State) :
    let is (mode : TalkMode) (state : KeyState) : Prop := (s.key p k).mode = some mode ∧ (s.key p k).state = state
    let drops : Prop := is .momentary .held ∨ is .auto .heldLong
    let clears : Prop := is .momentary .heldCancel ∨ is .latching .heldCancel ∨ is .auto .heldCancel
    (drops → releaseOwned p k s = (endTalks (s.key p k).talk.toList s).setKey p k KeyTalk.start) ∧
      (clears → releaseOwned p k s = s.setKey p k KeyTalk.start) ∧
      (is .auto .held → releaseOwned p k s = s.setKey p k ⟨.latched, some .auto, (s.key p k).talk, false⟩) ∧
      (¬drops → ¬clears → ¬is .auto .held → releaseOwned p k s = s) := by
  intro is drops clears
  unfold releaseOwned
  dsimp only
  refine ⟨?_, ?_, ?_, fun keeps stays unheld => ?_⟩
  · rintro (⟨mode, state⟩ | ⟨mode, state⟩) <;> rw [mode, state]
  · rintro (⟨mode, state⟩ | ⟨mode, state⟩ | ⟨mode, state⟩) <;> rw [mode, state]
  · rintro ⟨mode, state⟩
    rw [mode, state]
  · split
    · next mode state => exact absurd (.inl ⟨mode, state⟩) keeps
    · next mode state => exact absurd (.inl ⟨mode, state⟩) stays
    · next mode state => exact absurd (.inr (.inl ⟨mode, state⟩)) stays
    · next mode state => exact absurd ⟨mode, state⟩ unheld
    · next mode state => exact absurd (.inr ⟨mode, state⟩) keeps
    · next mode state => exact absurd (.inr (.inr ⟨mode, state⟩)) stays
    · rfl

/-- R71: the calls of a key are released, and the drives follow where one was. -/
theorem callRelease_spec (p k : Nat) (s : State) :
    let u := callRelease p k s
    SameOutputs s u ∧ (∀ h, h ∈ u.tou.holders ↔ h ∈ s.tou.holders ∧ ¬(h.panel = p ∧ h.key = k)) ∧
      (u.tou.holders ≠ s.tou.holders → ∀ n, (u.output n).drive = u.driveOf n) ∧
      u = { s with tou := { s.tou with holders := u.tou.holders, outputs := u.tou.outputs } } := by
  intro u
  unfold u callRelease
  split
  · next called =>
    refine ⟨(setHolders_tou _ s).2, fun h => ?_, fun _ n => ?_, rfl⟩
    · show h ∈ List.filter _ _ ↔ _
      simp [CallEntry.ofKey, imp_iff_not_or]
    · unfold setHolders
      rw [output_driveAll, driveOf_driveAll]
  · next uncalled =>
    refine ⟨fun n => ⟨rfl, rfl⟩, fun h => ⟨fun held => ⟨held, fun own => uncalled ((called_iff ..).2 ⟨h, held, own⟩)⟩, And.left⟩,
      fun changed => absurd rfl changed, rfl⟩

/-- Settles O51: talk keys by `releaseOwned_cases`, calls by `callRelease_spec`, system keys by `offerSystemKey_eq`. -/
theorem releasesFollowCaptures : Obligations.ReleasesFollowCaptures := by
  unfold Obligations.ReleasesFollowCaptures
  intro p k s s1 taken ends is moved drops clears
  obtain ⟨events, rfl⟩ := taken.cases
  let s1 : State := { s with pbc := { s.pbc with events := events } }
  have released : ends (handleRelease p k s1) := release_ends taken
  have owned : (s.key p k).state ≠ .idle → ends (releaseOwned p k s1) := fun busy => by
    rwa [show handleRelease p k s1 = releaseOwned p k s1 from if_neg busy] at released
  obtain ⟨dropped, cleared, latched, still⟩ := releaseOwned_cases p k s1
  refine ⟨fun drop => ?_, fun clear => ?_, fun held => ?_, fun busy keeps stays unheld => ?_, ?_⟩
  · have done := owned (by rcases drop with ⟨-, h⟩ | ⟨-, h⟩ <;> simp [h])
    rw [dropped drop] at done
    have ended := endKeyTalk_ended p k KeyTalk.start s1
    exact ⟨_, done, ended.talks, ended.ifbs.congr rfl rfl rfl rfl, ⟨ended.key, ended.others⟩, ended.rest,
      ended.mixed.of_same rfl rfl rfl rfl, ended.reported.congr rfl rfl rfl rfl⟩
  · have done := owned (by rcases clear with ⟨-, h⟩ | ⟨-, h⟩ | ⟨-, h⟩ <;> simp [h])
    rw [cleared clear] at done
    obtain ⟨key, others, frame⟩ := setKey_spec p k KeyTalk.start s1
    exact ⟨_, done, ⟨key, others⟩, frame⟩
  · have done := owned (by simp [held.2])
    rw [latched held] at done
    obtain ⟨key, others, frame⟩ := setKey_spec p k ⟨.latched, some .auto, (s.key p k).talk, false⟩ s1
    exact ⟨_, done, ⟨key, others⟩, frame⟩
  · have done := owned busy
    rwa [still keeps stays unheld] at done
  · intro idle emptied
    have handles : handleRelease p k s1 = _ := if_pos idle
    rw [handles] at released
    refine ⟨fun empty => ?_, fun c call => ?_, fun code key => ?_⟩
    · rwa [show s1.held? p k = none from empty] at released
    · rw [show s1.held? p k = some (.call c) from call] at released
      obtain ⟨outputs, holders, driven, frame⟩ := callRelease_spec p k s1
      obtain ⟨callers, lines, freed⟩ : ∃ h o, callRelease p k s1 = { s1 with tou := { s1.tou with holders := h, outputs := o } } :=
        ⟨_, _, frame⟩
      rw [freed] at released outputs holders driven
      obtain ⟨record, others, -⟩ := setHeld_spec p k none { s1 with tou := { s1.tou with holders := callers, outputs := lines } }
      exact ⟨_, released, ⟨record, others⟩, outputs, holders, fun changed n _ _ => driven changed n, rfl⟩
    · rw [show s1.held? p k = some (.systemKey code) from key] at released
      have offered : ends ((offerSystemKey ⟨p, k, code, true⟩ s1).setHeld p k none) := released
      obtain ⟨record, others, -⟩ := setHeld_spec p k none (offerSystemKey ⟨p, k, code, true⟩ s1)
      rw [offerSystemKey_eq] at offered record others
      exact ⟨_, offered, ⟨record, others⟩, rfl⟩

end Sys2Proof.Machine

/-! SET_FUNCTION, SET_BINDING and SET_LAMP (R160 to R162, R177). -/

namespace Sys2Proof.Machine

/-! ### The fields of the requests -/

theorem maskOf_maskByte (m : LevelMask) : maskOf (maskByte m) = some m := by
  obtain ⟨vid, aud1, aud2, aux⟩ := m
  cases vid <;> cases aud1 <;> cases aud2 <;> cases aux <;> rfl

theorem talkModeOf_byte (m : TalkMode) : talkModeOf (talkModeByte m) = some m := by cases m <;> rfl

theorem functionDomainOf_byte (d : FunctionDomain) : functionDomainOf (functionDomainByte d) = some d := by cases d <;> rfl

theorem lampOf_byte (x : Lamp) : Sys2Proof.Machine.lampOf (lampByte x) = some x := by
  cases x with
  | off => rfl
  | lit colour flash => cases colour <;> cases flash <;> rfl

/-- Section 11.1: the numbers of a function's arguments fit their fields, and an ONAIR target alone carries a domain. -/
def FunctionAction.encodable : FunctionAction → Prop
  | .routeTake d _ x => d < 65536 ∧ x < 65536
  | .selectDest d => d < 65536
  | .presetSource x => x < 65536
  | .salvoFire n => n < 256
  | .protectToggle (some d) => 1 ≤ d ∧ d < 65536
  | .talk t x _ k p => -128 ≤ k ∧ k ≤ 127 ∧ p < 256 ∧ (x ≠ none ↔ t = .onair) ∧
    (match t with | .port q => q < 256 | .group g => g < 256 | .ifb n => n < 256 | .camera c => c < 256 | .onair => True)
  | .call c => c < 256
  | .systemKey c => c < 256
  | _ => True

/-- R159, R160: the arguments of a function are in range, the code of a system key apart, which is any byte. -/
def FunctionAction.argumentsFit : FunctionAction → Prop
  | .routeTake d _ x => (1 ≤ d ∧ d ≤ 256) ∧ x ≤ 256
  | .selectDest d => 1 ≤ d ∧ d ≤ 256
  | .presetSource x => x ≤ 256
  | .salvoFire n => 1 ≤ n ∧ n ≤ 16
  | .protectToggle (some d) => d ≤ 256
  | .talk _ _ _ k p => (-80 ≤ k ∧ k ≤ 12) ∧ p ≤ 7
  | .call c => 1 ≤ c ∧ c ≤ 24
  | _ => True

/-- Section 11.2: the kind and the arguments of a function are read back. -/
theorem actionOf_bytes {a : FunctionAction} (encodable : a.encodable) :
    ∃ kind args, actionBytes a = kind :: args ∧ actionOf kind args = some a := by
  cases a with
  | routeTake d m x =>
    obtain ⟨dh, dl, dest, destValue⟩ := be16_bytes encodable.1
    obtain ⟨sh, sl, source, sourceValue⟩ := be16_bytes encodable.2
    refine ⟨0, [dh, dl, maskByte m, sh, sl], by rw [actionBytes, dest, source]; rfl, ?_⟩
    show (maskOf (maskByte m)).map (fun x => FunctionAction.routeTake (nat16 dh dl) x (nat16 sh sl)) = _
    rw [maskOf_maskByte, destValue, sourceValue]
    rfl
  | selectDest d =>
    obtain ⟨h, l, bytes, value⟩ := be16_bytes encodable
    exact ⟨1, [h, l], by rw [actionBytes, bytes]; rfl, congrArg (fun n => some (FunctionAction.selectDest n)) value⟩
  | presetSource x =>
    obtain ⟨h, l, bytes, value⟩ := be16_bytes encodable
    exact ⟨2, [h, l], by rw [actionBytes, bytes]; rfl, congrArg (fun n => some (FunctionAction.presetSource n)) value⟩
  | takePreset m => exact ⟨3, [maskByte m], rfl, congrArg (Option.map FunctionAction.takePreset) (maskOf_maskByte m)⟩
  | salvoFire n => exact ⟨4, [byte n], rfl, congrArg (fun n => some (FunctionAction.salvoFire n)) (byte_toNat encodable)⟩
  | protectToggle dest =>
    cases dest with
    | none => exact ⟨5, [0, 0], rfl, rfl⟩
    | some d =>
      obtain ⟨h, l, bytes, value⟩ := be16_bytes encodable.2
      refine ⟨5, [h, l], by rw [actionBytes, Option.getD_some, bytes]; rfl, ?_⟩
      show some (FunctionAction.protectToggle (if nat16 h l = 0 then none else some (nat16 h l))) = _
      rw [value, if_neg (Nat.ne_of_gt encodable.1)]
  | talk t dom m x p =>
    obtain ⟨low, high, small, onair, number⟩ := encodable
    obtain ⟨type, arg, bytes, target⟩ := targetOf_bytes (target := t) (dom := dom) (by
      cases t with
      | onair => exact onair.2 rfl
      | _ => exact ⟨number, by simpa using onair⟩)
    refine ⟨6, [type, arg, talkModeByte m, stepsByte x, byte p], by rw [actionBytes, bytes]; rfl, ?_⟩
    show (match targetOf type arg, talkModeOf (talkModeByte m) with
      | some y, some m => some (FunctionAction.talk y.1 y.2 m (steps (stepsByte x)) (byte p).toNat)
      | _, _ => none) = _
    rw [target, talkModeOf_byte, steps_stepsByte ⟨low, high⟩, byte_toNat small]
  | call c => exact ⟨7, [byte c], rfl, congrArg (fun n => some (FunctionAction.call n)) (byte_toNat encodable)⟩
  | pageToggle => exact ⟨8, [], rfl, rfl⟩
  | systemKey c => exact ⟨9, [byte c], rfl, congrArg (fun n => some (FunctionAction.systemKey n)) (byte_toNat encodable)⟩

theorem functionArgs_bytes {f : Nat} {a : FunctionAction} (small : f < 65536) (encodable : a.encodable) (l : Byte) (dom : FunctionDomain) :
    functionArgs (be16 f ++ actionBytes a ++ [l, functionDomainByte dom]) = some (f, some ⟨a, l.toNat, dom⟩) := by
  obtain ⟨high, low, bytes, value⟩ := be16_bytes small
  obtain ⟨kind, args, action, read⟩ := actionOf_bytes encodable
  rw [bytes, action]
  simp [functionArgs, read, functionDomainOf_byte, value]

theorem action_inRange_iff {a : FunctionAction} (encodable : a.encodable) : a.inRange = true ↔ a.argumentsFit := by
  cases a with
  | protectToggle dest =>
    cases dest with
    | none => simp [FunctionAction.inRange, FunctionAction.argumentsFit]
    | some d => simp [FunctionAction.inRange, FunctionAction.argumentsFit, within_iff, encodable.1]
  | systemKey c => simp [FunctionAction.inRange, FunctionAction.argumentsFit, within_iff, Nat.le_of_lt_succ encodable]
  | _ => simp [FunctionAction.inRange, FunctionAction.argumentsFit, within_iff, withinInt_iff]

/-! ### Bindings (R161, R162) -/

/-- R161: a binding written. -/
theorem writeBinding_spec (p : Nat) (page1 : Bool) (k f : Nat) (s : State) :
    (writeBinding p page1 k f s).binding p page1 k = f ∧
      (∀ q b j, ¬(q = p ∧ b = page1 ∧ j = k) → (writeBinding p page1 k f s).binding q b j = s.binding q b j) ∧
      writeBinding p page1 k f s = { s with fd := { s.fd with bindings := (writeBinding p page1 k f s).fd.bindings } } := by
  refine ⟨?_, fun q b j other => ?_, rfl⟩
  · unfold State.binding State.bindings writeBinding
    cases page1 <;> simp
  · unfold State.binding State.bindings writeBinding
    by_cases panel : q = p
    · subst panel
      by_cases page : b = page1
      · subst page
        have key : j ≠ k := fun same => other ⟨rfl, rfl, same⟩
        cases b <;> simp [State.bindings, Table.get_set_ne _ _ key]
      · cases b <;> cases page1 <;> simp [State.bindings] at page ⊢
    · simp [Table.get_set_ne _ _ panel]

theorem allows_iff (f : KeyFunction) (v : Panel) : f.allows v = true ↔
    v.access ≤ f.level ∧ (f.domain = .any ∨ (f.domain = .a ∧ v.domain = .a) ∨ (f.domain = .b ∧ v.domain = .b)) := by
  unfold KeyFunction.allows
  cases f.domain <;> simp

theorem bindable_iff (s : State) (a : FunctionAction) : s.bindable a = true ↔
    ∀ t y m l n, a = .talk t y m l n → s.targetValid t = true := by
  cases a with
  | talk target dom mode level priority => exact ⟨fun valid t y m l n same => by injection same with e; exact e ▸ valid, fun h => h _ _ _ _ _ rfl⟩
  | _ => simp [State.bindable]

end Sys2Proof.Machine

/-! SET_FUNCTION, SET_BINDING and SET_LAMP carried out (R160 to R162, R177). -/

namespace Sys2Proof.Machine

theorem InTurn.function?_eq {r : Request} {s s1 : State} (turn : InTurn r s s1) (f : Nat) : s1.function? f = s.function? f := by
  rw [State.function?, turn.fd_eq]; rfl

theorem InTurn.binding_eq {r : Request} {s s1 : State} (turn : InTurn r s s1) (p : Nat) (page1 : Bool) (k : Nat) :
    s1.binding p page1 k = s.binding p page1 k := by
  unfold State.binding State.bindings
  rw [turn.fd_eq]

theorem InTurn.hostLamp_eq {r : Request} {s s1 : State} (turn : InTurn r s s1) (p k : Nat) : s1.hostLamp p k = s.hostLamp p k := by
  rw [State.hostLamp, turn.fd_eq]; rfl

theorem InTurn.targetValid_eq {r : Request} {s s1 : State} (turn : InTurn r s s1) (target : Target) :
    s1.targetValid target = s.targetValid target :=
  targetValid_of (by rw [turn.tc_eq]) (by rw [turn.tc_eq]) (fun n => by rw [State.ifb?, turn.tc_eq]; rfl) turn.tou_eq target

theorem toNat_beq_one (g : Byte) : (g.toNat == 1) = (g == 1) := Bool.eq_iff_iff.2 (by
  rw [beq_iff_eq, beq_iff_eq]
  exact ⟨fun h => BitVec.eq_of_toNat_eq h, fun h => congrArg BitVec.toNat h⟩)

/-- R160: SET_FUNCTION of a slot with a record. -/
theorem setFunction_written {tag l : Byte} {f : Nat} {a : FunctionAction} {dom : FunctionDomain} {s s1 : State} {r : Request}
    (small : f < 65536) (encodable : a.encodable) (hr : r = ⟨0x90, tag, be16 f ++ actionBytes a ++ [l, functionDomainByte dom]⟩)
    (settled : Settled s) (turn : InTurn r s s1) :
    let fits : Prop := (1 ≤ f ∧ f ≤ 511) ∧ l.toNat ≤ 3 ∧ a.argumentsFit
    (fits → ∃ u t, exec (.setFunction tag r.payload) s = .next t ∧ u.function? f = some ⟨a, l.toNat, dom⟩ ∧
      (∀ g, g ≠ f → u.function? g = s.function? g) ∧
      u = { s1 with hlc := s1.hlc.answered r .ok [], fd := { s1.fd with functions := u.fd.functions } } ∧ LampsFollow u t) ∧
    (¬fits → exec (.setFunction tag r.payload) s = .next { s1 with hlc := s1.hlc.answered r .badArg [] }) := by
  subst hr
  intro fits
  let r : Request := ⟨0x90, tag, be16 f ++ actionBytes a ++ [l, functionDomainByte dom]⟩
  let v : KeyFunction := ⟨a, l.toNat, dom⟩
  have executes : exec (.setFunction tag r.payload) s = .next (requestOf 0x90 tag r.payload functionArgs setFunction s) := rfl
  have read : functionArgs r.payload = some (f, some v) := functionArgs_bytes small encodable l dom
  have inRange : (within 1 511 f && (a.inRange && within 0 3 l.toNat)) = true ↔ fits := by
    rw [Bool.and_eq_true, Bool.and_eq_true, within_iff, within_iff, action_inRange_iff encodable]
    exact and_congr_right fun _ => ⟨fun ⟨action, level⟩ => ⟨level.2, action⟩, fun ⟨level, action⟩ => ⟨action, Nat.zero_le _, level⟩⟩
  refine ⟨fun fit => ?_, fun unfit => refused_inTurn executes settled turn read (if_neg (mt inRange.1 unfit))⟩
  obtain ⟨t, done, lamps⟩ := relamped_inTurn (code := .ok) executes settled turn read (if_pos (inRange.2 fit)) rfl
  exact ⟨{ s1 with hlc := s1.hlc.answered r .ok [], fd := { s1.fd with functions := s1.fd.functions.put f v } }, t, done,
    Table.find?_put_self s1.fd.functions f v,
    fun g other => (Table.find?_put_ne s1.fd.functions other v).trans (turn.function?_eq g), rfl, lamps⟩

/-- R160: SET_FUNCTION of a slot with EMPTY. -/
theorem setFunction_emptied {tag : Byte} {f : Nat} {s s1 : State} {r : Request} (small : f < 65536) (hr : r = ⟨0x90, tag, be16 f⟩)
    (settled : Settled s) (turn : InTurn r s s1) :
    (1 ≤ f ∧ f ≤ 511 → ∃ u t, exec (.setFunction tag r.payload) s = .next t ∧ u.function? f = none ∧
      (∀ g, g ≠ f → u.function? g = s.function? g) ∧
      u = { s1 with hlc := s1.hlc.answered r .ok [], fd := { s1.fd with functions := u.fd.functions } } ∧ LampsFollow u t) ∧
    (¬(1 ≤ f ∧ f ≤ 511) → exec (.setFunction tag r.payload) s = .next { s1 with hlc := s1.hlc.answered r .badArg [] }) := by
  subst hr
  let r : Request := ⟨0x90, tag, be16 f⟩
  have executes : exec (.setFunction tag r.payload) s = .next (requestOf 0x90 tag r.payload functionArgs setFunction s) := rfl
  have read : functionArgs r.payload = some (f, none) := by
    obtain ⟨high, low, bytes, value⟩ := be16_bytes small
    show functionArgs (be16 f) = _
    rw [bytes, functionArgs, value]
  have inRange : (within 1 511 f && true) = true ↔ 1 ≤ f ∧ f ≤ 511 := by rw [Bool.and_true, within_iff]
  refine ⟨fun fit => ?_, fun unfit => refused_inTurn executes settled turn read (if_neg (mt inRange.1 unfit))⟩
  obtain ⟨t, done, lamps⟩ := relamped_inTurn (code := .ok) executes settled turn read (if_pos (inRange.2 fit)) rfl
  exact ⟨{ s1 with hlc := s1.hlc.answered r .ok [], fd := { s1.fd with functions := s1.fd.functions.erase f } }, t, done,
    Table.find?_erase_self s1.fd.functions f,
    fun g other => (Table.find?_erase_ne s1.fd.functions other).trans (turn.function?_eq g), rfl, lamps⟩

/-- R162: SET_BINDING of numbers in range, by the check that fails first. -/
theorem setBinding_judged {tag p g k : Byte} {f : Nat} {s s1 : State} (small : f < 65536) (settled : Settled s)
    (turn : InTurn ⟨0x91, tag, [p, g, k] ++ be16 f⟩ s s1) :
    let r : Request := ⟨0x91, tag, [p, g, k] ++ be16 f⟩
    let fits : Prop := (1 ≤ p.toNat ∧ p.toNat ≤ 32) ∧ g.toNat ≤ 1 ∧ (1 ≤ k.toNat ∧ k.toNat ≤ 64) ∧ f ≤ 511
    let refused (code : ReplyCode) : Prop :=
      exec (.setBinding tag r.payload) s = .next { s1 with hlc := s1.hlc.answered r code [] }
    (¬fits → refused .badArg) ∧ (∀ code, fits → s1.bindingRefusal p.toNat f = some code → refused code) ∧
      (fits → s1.bindingRefusal p.toNat f = none → ∃ u t, exec (.setBinding tag r.payload) s = .next t ∧
        u.binding p.toNat (g == 1) k.toNat = f ∧
        (∀ q b j, ¬(q = p.toNat ∧ b = (g == 1) ∧ j = k.toNat) → u.binding q b j = s.binding q b j) ∧
        u = { s1 with hlc := s1.hlc.answered r .ok [], fd := { s1.fd with bindings := u.fd.bindings } } ∧ LampsFollow u t) := by
  intro r fits refused
  have executes : exec (.setBinding tag r.payload) s = .next (requestOf 0x91 tag r.payload bindingArgs setBinding s) := rfl
  have read : bindingArgs r.payload = some (p.toNat, g.toNat, k.toNat, f) := by
    obtain ⟨high, low, bytes, value⟩ := be16_bytes small
    show bindingArgs ([p, g, k] ++ be16 f) = _
    rw [bytes, ← value]
    rfl
  have inRange : (within 1 32 p.toNat && within 0 1 g.toNat && within 1 64 k.toNat && within 0 511 f) = true ↔ fits := by
    simp only [Bool.and_eq_true, within_iff, Nat.zero_le, true_and, and_assoc, fits]
  have judged : fits → setBinding r (p.toNat, g.toNat, k.toNat, f) s1 = match s1.bindingRefusal p.toNat f with
      | some code => answer r code s1
      | none => relamp (writeBinding p.toNat (g.toNat == 1) k.toNat f (answer r .ok s1)) := fun fit => if_pos (inRange.2 fit)
  refine ⟨fun unfit => refused_inTurn executes settled turn read (if_neg (mt inRange.1 unfit)),
    fun code fit refusal => refused_inTurn executes settled turn read (by rw [judged fit, refusal]), fun fit passes => ?_⟩
  rw [passes, toNat_beq_one] at judged
  obtain ⟨t, done, lamps⟩ := relamped_inTurn (code := .ok) executes settled turn read (judged fit) rfl
  obtain ⟨written, others, -⟩ := writeBinding_spec p.toNat (g == 1) k.toNat f s1
  exact ⟨{ writeBinding p.toNat (g == 1) k.toNat f s1 with hlc := s1.hlc.answered r .ok [] }, t, done, written, fun q b j other => (others q b j other).trans (turn.binding_eq q b j), rfl, lamps⟩

/-- Settles O52: the functions by `setFunction_written` and `setFunction_emptied`, the bindings by `setBinding_judged`. -/
theorem functionsAndBindingsAreSet : Obligations.FunctionsAndBindingsAreSet := by
  refine ⟨?_, fun tag f s s1 r small hr settled turn => setFunction_emptied small hr settled turn, ?_, ?_⟩
  · intro tag l f a dom s s1 r small fields hr settled turn fits
    have encodable : a.encodable := fields
    obtain ⟨written, refused⟩ := setFunction_written small encodable hr settled turn
    exact ⟨written, refused⟩
  · intro tag p g k f s s1 r small hr settled turn fits refused written
    subst hr
    obtain ⟨unfit, refuses, writes⟩ := setBinding_judged small settled turn
    have recorded : ∀ {x : KeyFunction}, f ≠ 0 → s.function? f = some x → s1.bindingRefusal p.toNat f = match s.panel? p.toNat with
        | none => some .badState
        | some v => if !x.allows v then some .denied else if !s1.bindable x.action then some .badTarget else none :=
      fun bound found => by
        have refusal : s1.bindingRefusal p.toNat f = _ := if_neg bound
        rw [turn.function?_eq, found, turn.panel?_eq] at refusal
        exact refusal.trans (by cases s.panel? p.toNat <;> rfl)
    refine ⟨unfit, fun fit null => writes fit (if_pos null), fun fit bound empty => refuses _ fit ?_, fun x fit bound found =>
      ⟨fun undeclared => refuses _ fit ?_, fun v declared => ?_⟩⟩
    · unfold State.bindingRefusal
      rw [if_neg bound, turn.function?_eq, empty]
    · rw [recorded bound found, undeclared]
    · intro allowed valid
      have judged := recorded bound found
      rw [declared] at judged
      have allows : x.allows v = true ↔ allowed := allows_iff x v
      have bindable : s1.bindable x.action = true ↔ valid := by
        rw [bindable_iff]
        simp only [turn.targetValid_eq]
        rfl
      refine ⟨fun denied => refuses _ fit ?_, fun passes invalid => refuses _ fit ?_, fun passes target => writes fit ?_⟩ <;> rw [judged]
      · exact if_pos (by simpa using mt allows.1 denied)
      · exact (if_neg (by simp [allows.2 passes])).trans (if_pos (by simpa using mt bindable.1 invalid))
      · exact (if_neg (by simp [allows.2 passes])).trans (if_neg (by simp [bindable.2 target]))
  · intro tag p k x s s1 r hr settled turn fits
    subst hr
    have executes : exec (.setLamp tag [p, k, lampByte x]) s =
        .next (requestOf 0x92 tag [p, k, lampByte x] lampArgs setHostLamp s) := rfl
    have read : lampArgs [p, k, lampByte x] = some (p.toNat, k.toNat, x) :=
      congrArg (Option.map fun x => (p.toNat, k.toNat, x)) (lampOf_byte x)
    have inRange : (within 1 32 p.toNat && within 1 64 k.toNat) = true ↔ fits := by rw [Bool.and_eq_true, within_iff, within_iff]
    refine ⟨fun fit => ?_, fun unfit => refused_inTurn executes settled turn read (if_neg (mt inRange.1 unfit))⟩
    obtain ⟨t, done, lamps⟩ := relamped_inTurn (code := .ok) executes settled turn read (if_pos (inRange.2 fit)) rfl
    exact ⟨{ s1.setHostLamp p.toNat k.toNat x with hlc := s1.hlc.answered _ .ok [] }, t, done, State.hostLamp_setHostLamp_self s1 .., fun q j other =>
      (State.hostLamp_setHostLamp_ne s1 other x).trans (turn.hostLamp_eq q j), rfl, lamps⟩

end Sys2Proof.Machine

/-! The requests that read (R20, R62, R100, R119, R158, R173, R179, R193). -/

namespace Sys2Proof.Machine

/-! ### A query in its turn -/

/-- R183, R185: a query is answered at once with OK and its data, and changes nothing but the link. -/
def Gives (c : Byte → List Byte → Instr) (kind : Byte) (payload : List Byte) (data : State → List Byte) : Prop :=
  ∀ (tag : Byte) (s s1 : State), Settled s → InTurn ⟨kind, tag, payload⟩ s s1 →
    exec (c tag payload) s = .next { s1 with hlc := s1.hlc.answered ⟨kind, tag, payload⟩ .ok (data s1) }

/-- R194: a query is answered at once with BAD_ARG, and changes nothing but the link. -/
def Refuses (c : Byte → List Byte → Instr) (kind : Byte) (payload : List Byte) : Prop :=
  ∀ (tag : Byte) (s s1 : State), Settled s → InTurn ⟨kind, tag, payload⟩ s s1 →
    exec (c tag payload) s = .next { s1 with hlc := s1.hlc.answered ⟨kind, tag, payload⟩ .badArg [] }

section
variable {α : Type} {c : Byte → List Byte → Instr} {kind : Byte} {payload : List Byte} {decode : List Byte → Option α}
  {body : Request → α → State → State} {a : α} {data : State → List Byte}
  (executes : ∀ tag s, exec (c tag payload) s = .next (requestOf kind tag payload decode body s)) (read : decode payload = some a)
include executes read

theorem gives_of_body (answers : ∀ r s, body r a s = answerData r .ok (data s) s) : Gives c kind payload data :=
  fun tag s s1 settled turn => by
    rw [executes, requestOf_inTurn turn read, answers, transmit_answerData _ _ _ (turn.settled settled)]

/-- R194: a query whose number is judged before its data is read. -/
theorem reads_of_body {fits : Prop} {guard : Bool} (range : guard = true ↔ fits)
    (answers : ∀ r s, body r a s = if guard then answerData r .ok (data s) s else answer r .badArg s) :
    (fits → Gives c kind payload data) ∧ (¬fits → Refuses c kind payload) :=
  ⟨fun fit => gives_of_body executes read fun r s => (answers r s).trans (if_pos (range.2 fit)),
    fun unfit tag s _ settled turn => refused_inTurn (executes tag s) settled turn read
      ((answers _ _).trans (if_neg (mt range.1 unfit)))⟩

end

/-- Section 11.1: a form whose argument is a number of two bytes. -/
theorem wordForm_bytes {α : Type} {decode : List Byte → Option α} {form : Byte} {of : Nat → α}
    (reads : ∀ h l, decode [form, h, l] = some (of (nat16 h l))) {n : Nat} (small : n < 65536) :
    decode (form :: be16 n) = some (of n) := by
  obtain ⟨h, l, bytes, value⟩ := be16_bytes small
  rw [bytes, reads, value]

/-! ### The fields of the replies -/

theorem replyFields : ReplyFields where
  words _ := ⟨rfl, rfl⟩
  lists _ := rfl
  answers := rfl
  masks _ := rfl
  domains := ⟨rfl, rfl, rfl⟩
  levels := rfl
  tallies := rfl
  gains _ := ⟨rfl, rfl, rfl⟩
  optionals := ⟨rfl, fun _ => rfl⟩
  targets _ := ⟨fun _ => rfl, fun _ => rfl, fun _ => rfl, fun _ => rfl⟩
  onair := ⟨rfl, rfl⟩
  lamps := ⟨rfl, rfl, rfl⟩
  roles := rfl
  families := rfl
  modes := ⟨rfl, rfl⟩
  kinds := rfl
  edges := ⟨rfl, fun _ => rfl⟩
  actions := ⟨fun _ _ _ => rfl, fun _ => rfl, fun _ => rfl, fun _ => rfl, fun _ => rfl, fun _ => rfl, rfl, fun _ _ _ _ _ => rfl,
    fun _ => rfl, rfl, fun _ => rfl⟩
  replies := rfl
  reasonCodes := rfl
  counts _ := rfl
  absent := ⟨rfl, rfl⟩
  present _ := ⟨rfl, rfl⟩
  numbers _ := rfl
  protects := ⟨rfl, fun _ => rfl, rfl, rfl⟩
  phases := ⟨rfl, fun _ _ => rfl, rfl, rfl⟩
  colours _ := rfl
  roots := ⟨rfl, fun _ _ _ _ => rfl, fun _ _ _ _ => rfl⟩
  results := ⟨fun _ => rfl, rfl, rfl⟩
  faults := ⟨rfl, fun _ => rfl, fun _ => rfl⟩
  sources := ⟨rfl, fun _ => rfl⟩
  drives := rfl
  lampFaults := rfl
  ports _ := rfl
  origins := ⟨fun _ _ => rfl, fun _ => rfl⟩
  talks t := by
    unfold talkBytes
    cases t.domain <;> rfl
  keyStates := rfl
  keys y := by
    unfold keyTalkBytes
    cases y.mode <;> cases y.talk <;> rfl
  coefficients := ⟨rfl, fun _ => rfl⟩
  admissions := ⟨rfl, fun _ _ => rfl⟩
  panelStates := rfl
  errors := rfl
  refusals := ⟨rfl, fun _ _ => rfl⟩
  reasons := rfl
  held := ⟨rfl, fun _ => rfl, fun _ => rfl⟩
  sent := ⟨rfl, fun _ => rfl⟩

/-! ### The data of the replies -/

theorem counted_map {α : Type} (f : α → List Byte) (as : List α) : counted (as.map f) = byte as.length :: as.flatMap f := by
  rw [counted, List.length_map, List.flatMap_def]

theorem counted_bytes {α : Type} (f : α → Byte) (as : List α) : counted (as.map fun a => [f a]) = byte as.length :: as.map f := by
  rw [counted_map]
  exact congrArg _ (List.map_eq_flatMap ..).symm

theorem isAdmitted_eq (p : Path) : p.isAdmitted = (p.admission != .starved) := by
  unfold Path.isAdmitted
  cases p.admission <;> rfl

theorem yesNo_starved (p : Path) : yesNo (!p.isAdmitted) = if p.admission = .starved then 1 else 0 := by
  rw [isAdmitted_eq]
  by_cases starved : p.admission = .starved <;> simp [yesNo, starved]

theorem placeOf_talk {s : State} {p : Path} (kind : p.kind = .talk) : s.placeOf p = s.oldestCreation p := by
  unfold State.placeOf State.oldestCreation
  rw [kind]
  cases p.talks with
  | nil => rfl
  | cons id ids => cases found : s.talk? id <;> simp [found]

/-- R62, R100 to R119: the data of a path. -/
theorem pathBytes_talk {s : State} {p : Path} (kind : p.kind = .talk) : pathBytes s p =
    [0, byte p.talker, if p.admission = .starved then 1 else 0, byte p.priority, stepsByte p.level, byte p.talks.length] ++
      p.talks.map byte ++ be32 (s.placeOf p) ++ admissionBytes p.admission := by
  unfold pathBytes
  rw [kind, counted_bytes, placeOf_talk kind, yesNo_starved]
  simp

theorem pathBytes_program {s : State} {p : Path} {n : Nat} (kind : p.kind = .program n) : pathBytes s p =
    [1, byte n, byte p.talker, if p.admission = .starved then 1 else 0, byte p.priority, byte p.talks.length] ++
      p.talks.map byte ++ admissionBytes p.admission := by
  unfold pathBytes
  rw [kind, counted_bytes, yesNo_starved]
  simp

/-- R109, R119: the starved paths in the order of the re-admission pass. -/
theorem starvedPaths_order {s : State} (once : s.tme.paths.Nodup) :
    InCandidateOrder s (fun p => p ∈ s.tme.paths ∧ p.admission = .starved)
      (inOrder (candidateBefore s) (s.tme.paths.filter fun p => !p.isAdmitted)) where
  listed p := by
    rw [(inOrder_perm _ _).mem_iff, List.mem_filter, isAdmitted_eq]
    simp
  once := (inOrder_perm _ _).nodup_iff.2 (once.filter _)
  order := pairwise_inOrder s _

theorem yesNo_refLost (s : State) : yesNo s.refLost = if s.stu.reference = .lost then 1 else 0 := by
  unfold State.refLost yesNo
  simp only [beq_iff_eq]

theorem replyData (s : State) : ReplyData s where
  level d l := by
    unfold routeLevelBytes
    refine ⟨fun unfitted => by rw [unfitted]; rfl, fun x f e fitted covers => ?_⟩
    have device : s.deviceOf? d l = some e := covers
    rw [fitted]
    unfold State.deviceNumber
    rw [device]
    rfl
  dest d := by
    unfold destData
    simp [levels]
  device n := by
    unfold deviceData
    exact ⟨fun unmapped => by rw [unmapped], fun v mapped => by rw [mapped]⟩
  colours _ := rfl
  root _ := rfl
  mixer _ := rfl
  map _ := rfl
  ties := counted_map ..
  talks _ := rfl
  slots := rfl
  keys _ := rfl
  talkPath _ kind := pathBytes_talk kind
  programPath _ _ kind := pathBytes_program kind
  listener _ _ := counted_map ..
  starved once := ⟨_, starvedPaths_order once, fun _ => counted_map ..⟩
  counts := by
    have starved : (fun p : Path => !p.isAdmitted) = fun p => p.admission == .starved := funext fun p => by
      rw [isAdmitted_eq, bne, Bool.not_not]
    unfold countsData admittedCount admittedInto
    rw [starved, show Path.isAdmitted = _ from funext isAdmitted_eq]
    rfl
  ifb n := by
    unfold ifbData
    refine ⟨fun absent => by rw [absent]; rfl, fun i present => ?_⟩
    rw [present]
    dsimp only
    rw [counted_bytes, counted_bytes]
    simp [yesNo]
  panel p := by
    unfold panelData
    exact ⟨fun absent => by rw [absent]; rfl, fun v declared => by rw [declared]; rfl⟩
  function f := by
    unfold functionData
    exact ⟨fun empty => by rw [empty]; rfl, fun v held => by rw [held]; rfl⟩
  bindings _ _ := rfl
  context _ := rfl
  lamps p := by
    unfold lampsData
    exact ⟨fun absent => by rw [absent]; rfl, fun v declared => by rw [declared]; rfl⟩
  panelCounts := rfl
  calls _ := rfl
  status := by
    unfold statusData timingStatus sourceStatus
    rw [yesNo_refLost]
    rfl

end Sys2Proof.Machine

/-! The requests that read, form by form (R20, R62, R100, R119, R158, R173, R179, R193). -/

namespace Sys2Proof.Machine

section
variable {payload : List Byte} {data : State → List Byte} {fits : Prop} {guard : Bool}

theorem route_reads {q : RouteQuery} (read : routeQuery payload = some q) (range : guard = true ↔ fits)
    (answers : ∀ r s, getRoute r q s = if guard then answerData r .ok (data s) s else answer r .badArg s) :
    (fits → Gives .getRoute 0x17 payload data) ∧ (¬fits → Refuses .getRoute 0x17 payload) :=
  reads_of_body (decode := routeQuery) (body := getRoute) (fun _ _ => rfl) read range answers

theorem tally_reads {q : TallyQuery} (read : tallyQuery payload = some q) (range : guard = true ↔ fits)
    (answers : ∀ r s, getTally r q s = if guard then answerData r .ok (data s) s else answer r .badArg s) :
    (fits → Gives .getTally 0x36 payload data) ∧ (¬fits → Refuses .getTally 0x36 payload) :=
  reads_of_body (decode := tallyQuery) (body := getTally) (fun _ _ => rfl) read range answers

theorem paths_reads {q : PathsQuery} (read : pathsQuery payload = some q) (range : guard = true ↔ fits)
    (answers : ∀ r s, getPaths r q s = if guard then answerData r .ok (data s) s else answer r .badArg s) :
    (fits → Gives .getPaths 0x54 payload data) ∧ (¬fits → Refuses .getPaths 0x54 payload) :=
  reads_of_body (decode := pathsQuery) (body := getPaths) (fun _ _ => rfl) read range answers

theorem paths_gives {q : PathsQuery} (read : pathsQuery payload = some q)
    (answers : ∀ r s, getPaths r q s = answerData r .ok (data s) s) : Gives .getPaths 0x54 payload data :=
  gives_of_body (decode := pathsQuery) (body := getPaths) (fun _ _ => rfl) read answers

theorem panel_reads {q : PanelQuery} (read : panelQuery payload = some q) (range : guard = true ↔ fits)
    (answers : ∀ r s, getPanel r q s = if guard then answerData r .ok (data s) s else answer r .badArg s) :
    (fits → Gives .getPanel 0x83 payload data) ∧ (¬fits → Refuses .getPanel 0x83 payload) :=
  reads_of_body (decode := panelQuery) (body := getPanel) (fun _ _ => rfl) read range answers

end

/-- R173: GET_SYSTEM_KEYS empties what it reads. -/
theorem getSystemKeys_empties {tag : Byte} {s s1 : State} (settled : Settled s) (turn : InTurn ⟨0x93, tag, []⟩ s s1) :
    exec (.getSystemKeys tag []) s = .next { s1 with
      hlc := s1.hlc.answered ⟨0x93, tag, []⟩ .ok (byte s.fd.systemKeys.length ::
        s.fd.systemKeys.flatMap fun e => [byte e.panel, byte e.key, byte e.code, yesNo e.release])
      fd := { s1.fd with systemKeys := [] } } := by
  have executes : exec (.getSystemKeys tag []) s = .next (requestOf 0x93 tag [] noArg getSystemKeys s) := rfl
  have emptied : Settled { s1 with fd := { s1.fd with systemKeys := [] } } := turn.settled settled
  rw [executes, requestOf_inTurn turn (a := ()) rfl, getSystemKeys, transmit_answerData _ _ _ emptied, counted_map, turn.fd_eq]
  rfl

/-- Settles O53: each form by the lemma of its query, the bytes by `replyFields` and `replyData`. -/
theorem queriesAnswer : Obligations.QueriesAnswer := by
  unfold Obligations.QueriesAnswer
  intro gives refuses reads
  refine ⟨fun d small => route_reads (q := .dest d) (wordForm_bytes (fun _ _ => rfl) small) within_iff fun _ _ => rfl,
    fun n => route_reads (q := .device n.toNat) rfl within_iff fun _ _ => rfl,
    fun x small => tally_reads (q := .sources x) (wordForm_bytes (fun _ _ => rfl) small) within_iff fun _ _ => rfl,
    fun n => tally_reads (q := .root n.toNat) rfl within_iff fun _ _ => rfl,
    fun n => tally_reads (q := .mixer n.toNat) rfl within_iff fun _ _ => rfl,
    fun n => tally_reads (q := .map n.toNat) rfl within_iff fun _ _ => rfl,
    gives_of_body (decode := tallyQuery) (body := getTally) (a := .ties) (fun _ _ => rfl) rfl fun _ _ => rfl,
    fun n => paths_reads (q := .talks n.toNat) rfl within_iff fun _ _ => rfl,
    paths_gives (q := .slots) rfl fun _ _ => rfl,
    fun n => paths_reads (q := .port n.toNat) rfl within_iff fun _ _ => rfl,
    fun n => paths_reads (q := .group n.toNat) rfl within_iff fun _ _ => rfl,
    fun n => paths_reads (q := .keys n.toNat) rfl within_iff fun _ _ => rfl,
    fun n k => paths_reads (q := .listener n.toNat k.toNat) rfl (by rw [Bool.and_eq_true, within_iff, within_iff]) fun _ _ => rfl,
    fun k small => paths_reads (q := .starved k) (wordForm_bytes (fun _ _ => rfl) small) within_iff fun _ _ => rfl,
    paths_gives (q := .counts) rfl fun _ _ => rfl,
    fun n => reads_of_body (decode := byteArg) (body := getIfb) (a := n.toNat) (fun _ _ => rfl) rfl within_iff fun _ _ => rfl,
    fun n => panel_reads (q := .panel n.toNat) rfl within_iff fun _ _ => rfl,
    fun f small => panel_reads (q := .function f) (wordForm_bytes (fun _ _ => rfl) small) within_iff fun _ _ => rfl,
    fun n g => panel_reads (q := .bindings n.toNat g.toNat) (guard := within 1 32 n.toNat && within 0 1 g.toNat) rfl ?_ fun _ _ => ?_,
    fun n => panel_reads (q := .context n.toNat) rfl within_iff fun _ _ => rfl,
    fun n => panel_reads (q := .lamps n.toNat) rfl within_iff fun _ _ => rfl,
    gives_of_body (decode := noArg) (a := ()) (fun _ _ => rfl) rfl fun _ _ => rfl,
    gives_of_body (decode := noArg) (a := ()) (fun _ _ => rfl) rfl fun _ _ => rfl,
    replyFields, replyData, fun tag s s1 settled turn => getSystemKeys_empties settled turn⟩
  · rw [Bool.and_eq_true, within_iff, within_iff]
    exact and_congr_right fun _ => ⟨And.right, fun h => ⟨Nat.zero_le _, h⟩⟩
  · rw [getPanel, toNat_beq_one]

end Sys2Proof.Machine
